-- ==== Sys2Proof/Word.lean ====
section
/-!
DEFINITION. The word types of the module: bytes, and the bit vectors that software or a brick sees as words.
Counts, indices, addresses after computation and beat numbers are natural numbers.
-/
namespace Sys2Proof

/-- One byte (R3: every multi-byte field is little-endian). -/
abbrev Byte := BitVec 8

/-- A run of bytes, first byte first (R4). -/
abbrev Bytes := List Byte

/-- A 64-bit scalar register of a brick (Table 09-2). -/
abbrev Word64 := BitVec 64

/-- A 32-bit word: an FP32 encoding, an attribute word, an accumulator element. -/
abbrev Word32 := BitVec 32

end Sys2Proof
end

