-- ==== Sys2Proof/Syntax.lean ====
section
/-!
DEFINITION. The commands of the block: one constructor of `Instr` for each row of the opcode table, with the operands that
reach the module from outside (bytes read by DMA, frames, pin events, sensor values) or that name the object the step acts on.
-/
namespace Sys2Proof

/-- What a read of a descriptor's source gave (R389, R497, R498): its bytes, poison, a media error, or no answer because the
host port failed. -/
inductive Dma where
  | ok (bytes : Bytes)
  | poisoned
  | media
  | failed
deriving DecidableEq, Repr

/-- What Floor's ECC found in a read of stored data (R495): its bytes, or a line that it could not correct. -/
inductive ReadRes where
  | ok
  | poisoned
deriving DecidableEq, Repr

/-- What an enable write names (R411, R412). -/
inductive EnKind where
  | wing
  | sq
  | cq
deriving DecidableEq, Repr

/-- The management path a command arrived over (Table 15-5). -/
inductive MPath where
  | mailbox (ld : Nat)
  | doe (ld : Nat)
  | fmLd
  | mctp
deriving DecidableEq, Repr

/-- A Bruvia frame (Table 18-2): header fields, arguments (bytes 24 to 63) and payload. `resv` says that a reserved bit of the
header was not 0. -/
structure Frame where
  typ : Nat
  chan : Nat
  colour : Nat
  hdrVer : Nat
  wing : Nat
  last : Bool
  resp : Bool
  epoch : Nat
  seq : Nat
  tag : Nat
  deadline : Nat
  args : Bytes
  payload : Bytes
  resv : Bool
deriving DecidableEq, Repr

/-- One 64-byte CXL.mem write: the bytes with their enables, and whether it carries poison (R280, R298, R380). -/
structure LineWrite where
  data : List (Option Byte)
  poison : Bool
deriving DecidableEq, Repr

/-- The kinds of sensor of Table 19-9. -/
inductive Sensor where
  | hall (i : Nat)
  | gateCellar (i : Nat)
  | floor (i : Nat)
  | nand (i : Nat)
  | inlet
deriving DecidableEq, Repr

/-- The actions of Transfer FW (R483). -/
inductive FwAction where
  | full
  | initiate
  | continue
  | finish
  | abort
deriving DecidableEq, Repr

/-- What a patrol scrub or a read found in a line (R495). -/
inductive LineEcc where
  | clean
  | corrected
  | uncorrectable
deriving DecidableEq, Repr

/-- Where a line that patrol scrub reads lies (R495): a line of a wing's tier range; an internal Floor line of a collection, a
session or an embedding table, by its key in that object; another internal line of a stack; a brick-store line; hub memory. -/
inductive ScrubLine where
  | range (wing addr : Nat)
  | coll (wing handle line : Nat)
  | sess (wing handle line : Nat)
  | emb (wing handle line : Nat)
  | internal (stack : Nat)
  | store (brick addr : Nat)
  | hub
deriving DecidableEq, Repr

/-- The commands, one for each row of the opcode table, in its order. -/
inductive Instr where
  /-- REG_WRITE (R7): A write to a register that has no row of its own is applied under its access type, width and alignment rules. -/
  | regWrite (src bar off width val : Nat)
  /-- REG_WRITE_LOW_HALF_HOLD (R6): A 32-bit write to the low half of a 64-bit register is held for its requester until the high half is written. -/
  | regWriteLowHalfHold (src off val : Nat)
  /-- REG_READ_LOW_HALF_CAPTURE (R513): A low-half read of a live 64-bit register captures the whole register for that requester's next high-half read. -/
  | regReadLowHalfCapture (src off : Nat)
  /-- MCTP_REGISTER_ACCESS (R514): A vendor-defined MCTP message carries one aligned BAR0 access that acts as the same access by the set-up device. -/
  | mctpRegisterAccess (isWrite : Bool) (off width val : Nat)
  /-- COUNTER_SNAP (R104): A SNAP bit written in a block copies every live counter of the block into its snapshot in one cycle. -/
  | counterSnap (src off : Nat) (alsoClear : Bool)
  /-- COUNTER_CLEAR (R104): A CLEAR bit written in a block sets every live counter of the block to 0. -/
  | counterClear (src off : Nat)
  /-- BEAT_EDGE (R32): A rising edge on BEAT_P/N is synchronised and, by receiver state and acceptance window, starts a beat, qualifies, or is counted as a glitch. -/
  | beatEdge
  /-- BEAT_WINDOW_CLOSE (R32): In LOCKED, the acceptance window closes with no edge, a generated boundary is taken, LOST is set and the receiver enters FREE. -/
  | beatWindowClose
  /-- BEAT_GENERATED_BOUNDARY (R524): In FREE or REACQ, the local oscillator reaches the next reference time P after the last and generates a boundary. -/
  | beatGeneratedBoundary
  /-- BEAT_BOUNDARY (R37): 96 cycles after a boundary's reference time, beat n begins on every die: the beat number is adopted or advanced and scheduled events fire. -/
  | beatBoundary
  /-- BEAT_NEXT_WRITE (R36): A write to BEAT_NEXT offers a beat number for the next boundary. -/
  | beatNextWrite (src val : Nat)
  /-- BEAT_CFG_WRITE (R30): A write to BEAT_CFG sets the period from the next boundary, or is refused as a lock violation when out of range. -/
  | beatCfgWrite (src val : Nat)
  /-- BEAT_ANNOUNCE_SEND (R40): When BEAT_POS reaches half the period, one BEAT_ANNOUNCE carrying C + 1 is sent on each port enabled in ANN_TX. -/
  | beatAnnounceSend
  /-- SLICE_RESUME (R244): When restore has finished on every brick, the incoming program resumes on all of them in the same cycle. -/
  | sliceResume (wing prog : Nat)
  /-- POLICER_TICK_REFILL (R423): On each 1 MHz tick every meter rate unit adds a tenth of a byte to its bucket up to the bucket's size. -/
  | policerTickRefill
  /-- HP_BW_WINDOW_END (R374): At each 1 us window boundary a host port's byte count is reduced by its budget and floored at 0, and DevLoad is recomputed. -/
  | hpBwWindowEnd (port : Nat)
  /-- DESCRIPTOR_TIMEOUT (R47): A descriptor's timeout expires before its completion is fixed and it is stopped and completes with TIMEOUT. -/
  | descriptorTimeout (fid : Nat)
  /-- BRICK_WATCHDOG_EXPIRY (R232): A brick watchdog expires and raises the fault WATCHDOG. -/
  | brickWatchdogExpiry (brick : Nat)
  /-- HK_WATCHDOG_EXPIRY (R49): The Housekeeper watchdog expires and only the Housekeeper is reset and restarted. -/
  | hkWatchdogExpiry
  /-- CELLAR_BACKGROUND_SCHEDULE (R46): A Cellar background schedule timer set by the Housekeeper expires and its background work starts. -/
  | cellarBackgroundSchedule
  /-- TEMP_HISTORY_HOUR (R359): Each powered hour the hottest NAND temperature is recorded in the health record's history. -/
  | tempHistoryHour (temp : Int)
  /-- DESCRIPTOR_FETCH (R399): Intake fetches a descriptor from a ready ring, reserves its completion slot and in-flight place, checks the header and polices it. -/
  | descriptorFetch (raw : Dma) (cont : Bytes)
  /-- DESCRIPTOR_ADMIT (R400): A descriptor held by FENCE or CHAIN is admitted, or aborted on a failed chain, once the earlier completion is fixed. -/
  | descriptorAdmit (fid : Nat)
  /-- NOP (R396): Does nothing and completes with OK. -/
  | nopDescriptor (fid : Nat)
  /-- CQ_ENTRY_SEND (R405): A fixed completion entry is written to its completion ring when its ORDER allows, followed by any MSI-X message. -/
  | cqEntrySend (wing cq : Nat)
  /-- MSIX_COALESCE_EXPIRY (R406): The COALESCE_US interval after a ring's message ends and a single message is sent for the entries due meanwhile. -/
  | msixCoalesceExpiry (wing cq : Nat)
  /-- SQ_DOORBELL (R392): A write to a submission doorbell advances TAIL when valid, or is discarded and counted. -/
  | sqDoorbell (port wing ring val : Nat)
  /-- CQ_DOORBELL (R392): A write to a completion doorbell advances HEAD when valid, or is discarded and counted. -/
  | cqDoorbell (port wing ring val : Nat)
  /-- ENABLE_WRITE_ON (R412): EN = 1 written to a submission ring, completion ring or wing enables it at once or latches ENABLE_PENDING during a drain. -/
  | enableWriteOn (src : Nat) (kind : EnKind) (wing ring : Nat)
  /-- ENABLE_WRITE_OFF (R411): EN = 0 written to a submission ring, completion ring or wing starts its drain. -/
  | enableWriteOff (src : Nat) (kind : EnKind) (wing ring : Nat)
  /-- ENABLE_DRAIN_END (R411): A ring, completion ring or wing finishes draining and becomes DISABLED, or ENABLED if an enable is latched. -/
  | enableDrainEnd (kind : EnKind) (wing ring : Nat)
  /-- SQ_ABORT (R408): SQ_CTRL.ABORT completes every fetched, unfixed descriptor of the ring with ABORTED in one cycle. -/
  | sqAbort (src wing ring : Nat)
  /-- WNG_ABORT (R408): WNG_CTRL.ABORT aborts every ring of the wing in one cycle. -/
  | wngAbort (src wing : Nat)
  /-- COLL_CREATE (R68): Defines a collection and allocates and charges its pages. -/
  | collCreate (fid : Nat)
  /-- COLL_LOAD (R70): Copies one part for a range of nodes into a BUILDING collection. -/
  | collLoad (fid : Nat) (src : Dma)
  /-- COLL_OPEN (R72): Starts validation of a BUILDING collection against Table 03-10 on the Mortar engines. -/
  | collOpen (fid : Nat)
  /-- COLL_VALIDATION_DONE (R72): Open validation ends, and the open fails with INVALID or is admitted with its target beat and the collection becomes OPENING. -/
  | collValidationDone (fid : Nat)
  /-- COLL_DESCRIBE (R73): Writes the collection's 128-byte description record to host memory. -/
  | collDescribe (fid : Nat)
  /-- COLL_DESTROY (R74): Schedules the collection to stop at a beat and be released after draining. -/
  | collDestroy (fid : Nat)
  /-- COLL_DRAIN_DONE (R67): The last admitted request of a DRAINING collection ends and its pages and handle are released. -/
  | collDrainDone (wing handle : Nat)
  /-- GRAPH_SEARCH (R77): Checks and admits a graph search, pins its version and queues it for slots. -/
  | graphSearch (fid : Nat) (query filt : Dma)
  /-- FLAT_SCAN (R96): Checks and admits a flat scan over node-index ranges and queues it for slots. -/
  | flatScan (fid : Nat) (query filt ranges : Dma)
  /-- SLOT_GRANT (R84): A waiting admitted query takes all its slots and Mantel segments in one cycle. -/
  | slotGrant (fid : Nat)
  /-- SEED (R88): Seed scores every entry-list node of the shard and places the SEEDS best in the beam. -/
  | seedShard (fid search shard : Nat)
  /-- EXPAND_STEP (R89): An adjacency record arrives and Expand scores its unvisited neighbours, filters them and updates the beam, or stops. -/
  | expandStep (fid search shard : Nat)
  /-- FLAT_SCAN_PAGE (R97): A tier page of codes in a flat scan is scored by Score or handed to the compute stack. -/
  | flatScanPage (fid search shard : Nat)
  /-- STACK_HANDOFF_RESULT (R97): A compute stack returns the scores at or above the threshold for a handed-off page. -/
  | stackHandoffResult (fid search shard : Nat)
  /-- MANTEL_MERGE_PASS (R115): A brick-store merge pass combines up to 16 sorted runs into one. -/
  | mantelMergePass (fid search shard : Nat)
  /-- REFINE_READ_RETURN (R98): An SQ8 refine read returns, and when the pipeline's last one returns it re-sorts and passes its best entries to Join. -/
  | refineReadReturn (fid search shard node : Nat) (res : ReadRes)
  /-- JOIN (R122): With every local list and result part present, Join removes duplicates and keeps the K best entries. -/
  | joinLists (fid : Nat)
  /-- VEC_INSERT (R137): Stages up to 4,096 vectors in a change set. -/
  | vecInsert (fid : Nat) (src : Dma)
  /-- VEC_DELETE (R141): Stages the deletion of up to 65,536 vector IDs in a change set. -/
  | vecDelete (fid : Nat) (src : Dma)
  /-- STAGING_SWEEP (R134): A Mortar sweep of the node tables finishes and resolves the staging descriptors queued on it, in admission order. -/
  | stagingSweep (wing handle : Nat)
  /-- VERSION_PUBLISH (R142): Makes a change set the next version by compare-and-set, to become current at a beat. -/
  | versionPublish (fid : Nat)
  /-- CSET_DISCARD (R144): Drops a change set and everything staged in it. -/
  | csetDiscard (fid : Nat)
  /-- VERSION_RETIRE (R150): Force-retires every retained version below UPTO. -/
  | versionRetire (fid : Nat)
  /-- MORTAR_MERGE (R152): Mortar merges an eligible Porch entry into the graph and sets USED. -/
  | mortarMerge (wing handle node : Nat)
  /-- MORTAR_TOMB_APPLY (R154): Mortar sets TOMB on the node of a tombstone whose DEL is at or below the oldest retained version. -/
  | mortarTombApply (wing handle node : Nat)
  /-- MORTAR_REPAIR_SWEEP (R154): A repair sweep replaces or empties adjacency slots that name dead nodes and frees eligible dead nodes. -/
  | mortarRepairSweep (wing handle shard : Nat)
  /-- MORTAR_PAUSE (R155): MORTAR_CTRL.PAUSE stops merging, tombstone application and repair on the die after the current node. -/
  | mortarPause (src die : Nat) (on : Bool)
  /-- MEM_ATTEND (R164): Runs per-head top-k searches of a collection and blends the keys found with any local keys. -/
  | memAttend (fid : Nat) (query loc : Dma)
  /-- KV_CREATE (R175): Defines a KV session and allocates its pages. -/
  | kvCreate (fid : Nat)
  /-- KV_APPEND (R178): Writes keys and values for new token positions. -/
  | kvAppend (fid : Nat) (src : Dma)
  /-- KV_ATTEND (R186): Attends up to 16 candidate positions over a session's stored keys and local keys. -/
  | kvAttend (fid : Nat) (query loc : Dma)
  /-- KV_PREFETCH (R183): Issues reads of spilled tier pages into the window cache ahead of use. -/
  | kvPrefetch (fid : Nat)
  /-- KV_TRUNCATE (R181): Shortens a session after earlier reads complete and releases pages above the new length. -/
  | kvTruncate (fid : Nat)
  /-- KV_DESTROY (R181): Releases a session after earlier reads complete. -/
  | kvDestroy (fid : Nat)
  /-- RING_ATTEND (R191): Attends local queries over the blocks of every member of a ring, sending its own block to NEXT. -/
  | ringAttend (fid : Nat) (query : Dma)
  /-- KV_SPILL (R182): The spill engine copies an eligible full tier page to Cellar and releases its Floor frame. -/
  | kvSpill (wing handle layer shard : Nat)
  /-- KV_PREFETCH_HOLD_EXPIRY (R185): A prefetched tier page passes HOLD beat boundaries unread and becomes evictable. -/
  | kvPrefetchHoldExpiry (wing handle layer shard page : Nat)
  /-- ADD (R222): sD = sA + sB modulo 2^64. -/
  | opAdd (brick : Nat)
  /-- SUB (R222): sD = sA - sB modulo 2^64. -/
  | opSub (brick : Nat)
  /-- AND (R222): sD = sA AND sB. -/
  | opAnd (brick : Nat)
  /-- OR (R222): sD = sA OR sB. -/
  | opOr (brick : Nat)
  /-- XOR (R222): sD = sA XOR sB. -/
  | opXor (brick : Nat)
  /-- SHL (R222): sD = sA shifted left by sB[5:0]. -/
  | opShl (brick : Nat)
  /-- SHR (R222): sD = sA shifted right logically by sB[5:0]. -/
  | opShr (brick : Nat)
  /-- SAR (R222): sD = sA shifted right arithmetically by sB[5:0]. -/
  | opSar (brick : Nat)
  /-- MUL (R222): sD = low 64 bits of sA times sB. -/
  | opMul (brick : Nat)
  /-- ADDI (R222): sD = sA plus the sign-extended immediate. -/
  | opAddi (brick : Nat)
  /-- MOVHI (R222): sD = (sA << 25) OR IMM. -/
  | opMovhi (brick : Nat)
  /-- SLT (R222): sD = 1 if sA < sB signed, otherwise 0. -/
  | opSlt (brick : Nat)
  /-- SLTU (R222): sD = 1 if sA < sB unsigned, otherwise 0. -/
  | opSltu (brick : Nat)
  /-- SEQ (R222): sD = 1 if sA equals sB, otherwise 0. -/
  | opSeq (brick : Nat)
  /-- LD (R222): 64-bit load from brick store into sD. -/
  | opLd (brick : Nat)
  /-- ST (R222): 64-bit store of sB to brick store. -/
  | opSt (brick : Nat)
  /-- LDW (R222): 32-bit zero-extended load into sD. -/
  | opLdw (brick : Nat)
  /-- STW (R222): 32-bit store of sB[31:0]. -/
  | opStw (brick : Nat)
  /-- BEQZ (R222): Branches when sA is zero. -/
  | opBeqz (brick : Nat)
  /-- BNEZ (R222): Branches when sA is non-zero. -/
  | opBnez (brick : Nat)
  /-- JAL (R222): Saves the return address in sD and jumps relative. -/
  | opJal (brick : Nat)
  /-- JR (R222): Jumps to the address in sA. -/
  | opJr (brick : Nat)
  /-- HALT (R222): Waits until every engine is idle and halts the brick normally. -/
  | opHalt (brick : Nat)
  /-- WDOG (R232): Restarts the brick watchdog. -/
  | opWdog (brick : Nat)
  /-- RDCYC (R222): sD = CYC_COUNT. -/
  | opRdcyc (brick : Nat)
  /-- RDBEAT (R222): sD = the beat number as BEAT_NUM reads. -/
  | opRdbeat (brick : Nat)
  /-- FENCE (R222): Waits until every engine queue is empty and every engine idle. -/
  | opFence (brick : Nat)
  /-- CLRSAT (R222): Clears the numeric-status bits named in IMM[8:0]. -/
  | opClrsat (brick : Nat)
  /-- SIG (R225): Signals a latch, raising LATCH_OVF above 255. -/
  | opSig (brick : Nat)
  /-- WAIT (R224): Waits until a latch is non-zero and takes one from it. -/
  | opWait (brick : Nat)
  /-- TRY (R222): Takes one from a non-zero latch and sets sD to 1, or sets sD to 0 at once. -/
  | opTry (brick : Nat)
  /-- RDL (R222): sD = the value of a latch. -/
  | opRdl (brick : Nat)
  /-- SETL (R226): Sets a latch to a value in one cycle. -/
  | opSetl (brick : Nat)
  /-- MMA8 (R204): INT8 matrix product into an INT32 accumulator, saturating. -/
  | opMma8 (brick : Nat)
  /-- MMAF8 (R205): FP8 matrix product into an FP32 accumulator. -/
  | opMmaf8 (brick : Nat)
  /-- MMAB (R205): BF16 matrix product into an FP32 accumulator. -/
  | opMmab (brick : Nat)
  /-- AZERO (R222): Zeroes an accumulator and clears its saturation flag. -/
  | opAzero (brick : Nat)
  /-- AST (R222): Stores an accumulator, 1 KiB, to brick store. -/
  | opAst (brick : Nat)
  /-- CBSET (R207): Sets the LUT codebook from brick store or to the default. -/
  | opCbset (brick : Nat)
  /-- LDOT (R209): 4-bit product by look-up of INT8 activations and codes into an INT32 accumulator. -/
  | opLdot (brick : Nat)
  /-- DEQ (R210): Dequantises codes under a control block into a target format. -/
  | opDeq (brick : Nat)
  /-- QUANT (R213): Quantises a row under a scale history block and updates its history. -/
  | opQuant (brick : Nat)
  /-- QPRIV (R215): Quantises a row under a privileged scale entry. -/
  | opQpriv (brick : Nat)
  /-- RESCALE (R217): Rescales an accumulator through rescale entries and row scales. -/
  | opRescale (brick : Nat)
  /-- VLD (R222): Loads 512 bytes into a vector register. -/
  | opVld (brick : Nat)
  /-- VST (R222): Stores a vector register to brick store. -/
  | opVst (brick : Nat)
  /-- VOP (R222): Applies an element-wise vector function of Table 09-6. -/
  | opVop (brick : Nat)
  /-- VRED (R200): Reduces 128 FP32 elements of a vector into sD. -/
  | opVred (brick : Nat)
  /-- MGET (R237): Mover copies bytes from a tier address into brick store through the program's windows. -/
  | opMget (brick : Nat)
  /-- MPUT (R237): Mover copies bytes from brick store to a tier address. -/
  | opMput (brick : Nat)
  /-- MGATHER (R222): Mover gathers rows under a gather block into brick store. -/
  | opMgather (brick : Nat)
  /-- MFILL (R222): Fills brick-store bytes with a 64-bit pattern. -/
  | opMfill (brick : Nat)
  /-- PSEND (R229): Sends a Post packet to a brick FIFO of the same wing. -/
  | opPsend (brick : Nat)
  /-- PHEAD (R230): Returns header word 0 of a FIFO's head packet. -/
  | opPhead (brick : Nat)
  /-- PTAKE (R230): Copies and removes a FIFO's head packet. -/
  | opPtake (brick : Nat)
  /-- PDROP (R230): Removes a FIFO's head packet. -/
  | opPdrop (brick : Nat)
  /-- PBIND (R230): Binds or unbinds a FIFO to a latch. -/
  | opPbind (brick : Nat)
  /-- POST_PACKET_DELIVER (R230): A routed packet is written whole into a FIFO once it has room and signals any bound latch. -/
  | postPacketDeliver (packet : Nat)
  /-- PROG_LOAD (R238): Checks a program image and places it on its bricks or in save areas. -/
  | progLoad (fid : Nat) (src : Dma)
  /-- PROG_START (R239): Starts a loaded program at once or at a target beat. -/
  | progStart (fid : Nat)
  /-- PROG_WAIT (R240): Completes when the program has ended. -/
  | progWait (fid : Nat)
  /-- PROG_STOP (R241): Stops every brick of the program. -/
  | progStop (fid : Nat)
  /-- PROG_POST (R242): Delivers one packet from the host to a brick FIFO. -/
  | progPost (fid : Nat) (src : Dma)
  /-- PROG_UNLOAD (R241): Releases a program's bricks and save areas. -/
  | progUnload (fid : Nat)
  /-- TEXT_CUT (R254): Cuts text into fixed-length byte segments without splitting characters. -/
  | textCut (fid : Nat) (src : Dma)
  /-- VOCAB_LOAD (R248): Loads a vocabulary image into a slot. -/
  | vocabLoad (fid : Nat) (src : Dma)
  /-- VOCAB_DROP (R248): Releases a vocabulary slot. -/
  | vocabDrop (fid : Nat)
  /-- STREAM_OPEN (R251): Opens a cut stream or a detokenising stream. -/
  | streamOpen (fid : Nat) (src : Dma)
  /-- STREAM_FEED (R258): Detokenises generated tokens, holding back stop-string prefixes and stopping on stop strings or END. -/
  | streamFeed (fid : Nat) (src : Dma)
  /-- STREAM_CLOSE (R252): Releases a stream and its draft source. -/
  | streamClose (fid : Nat)
  /-- DRAFT_SOURCE (R260): Sets the passages that a stream drafts from. -/
  | draftSource (fid : Nat) (src : Dma)
  /-- DRAFT_PROPOSE (R261): Proposes the tokens that follow the stream's latest tokens in its passages. -/
  | draftPropose (fid : Nat)
  /-- TIER_ALLOC (R268): Creates a tier range in the wing's address space. -/
  | tierAlloc (fid : Nat)
  /-- TIER_ALLOC_ZERO_DONE (R269): The frames of a Floor allocation have been zeroed and the allocation completes. -/
  | tierAllocZeroDone (fid : Nat)
  /-- TIER_FREE (R270): Checks a range for release and waits for earlier descriptors naming it. -/
  | tierFree (fid : Nat)
  /-- TIER_FREE_RELEASE (R270): The last earlier descriptor naming the range completes and the range is released without write-back. -/
  | tierFreeRelease (fid : Nat)
  /-- TIER_PIN (R272): Pins or unpins the cached pages of part of a Cellar or Annex range, filling pages not yet cached. -/
  | tierPin (fid : Nat)
  /-- TIER_PIN_RETRY (R272): A pin waiting for a frame tries again when a frame is released. -/
  | tierPinRetry (fid : Nat)
  /-- CXL_MEM_READ (R367): A host CXL.mem read is mapped through its port's window and served, snooping and filling as needed. -/
  | cxlMemRead (port dpa tag : Nat) (own bi : Bool)
  /-- CXL_MEM_WRITE (R367): A host CXL.mem write is mapped through its port's window and applied, possibly allocating a frame or writing through. -/
  | cxlMemWrite (port dpa tag : Nat) (line : LineWrite) (bi : Bool)
  /-- PAGE_FILL_DONE (R279): A fill completes and waiting accesses to the page proceed. -/
  | pageFillDone (wing page : Nat)
  /-- WRITE_BACK_DONE (R283): A write-back of a dirty page to its lower tier completes and its frame may be reused. -/
  | writeBackDone (wing page : Nat)
  /-- BACKGROUND_CLEAN (R283): The cleaner writes back a dirty page whose age reaches CLEAN_BEATS. -/
  | backgroundClean (wing page : Nat)
  /-- TIER_ACCESS_LATE (R287): A tier access outstanding beyond its cause's threshold starts stalling and is counted. -/
  | tierAccessLate (access : Nat)
  /-- TPT_PEEK_ADDR_WRITE (R290): A write to TPT_PEEK_ADDR captures the named tier page table entry for reading. -/
  | tptPeekAddrWrite (src val : Nat)
  /-- STK_OPEN (R301): Starts opening compute-stack regions with a check pass, moving a part's pages first when MOVE is set. -/
  | stkOpen (fid : Nat)
  /-- STK_OPEN_CHECK_DONE (R296): The check pass ends and all named regions become OPEN together, or the open fails with POISONED. -/
  | stkOpenCheckDone (fid : Nat) (bad : Option Nat)
  /-- STK_SEAL (R297): Starts sealing OPEN regions back to GUARDED. -/
  | stkSeal (fid : Nat)
  /-- STK_SEAL_DONE (R297): Every line of a sealing region carries matching check bits and the region becomes GUARDED. -/
  | stkSealDone (stack region : Nat)
  /-- STK_SCAN (R308): Distance scan emitting record-score pairs at or above a threshold. -/
  | stkScan (fid : Nat) (aux : Dma)
  /-- STK_BITMAP (R309): Evaluates filter clauses on attribute records into a bitmap. -/
  | stkBitmap (fid : Nat) (aux : Dma)
  /-- STK_ADD (R310): Atomic adds of update rows into rows. -/
  | stkAdd (fid : Nat) (rows aux : Dma)
  /-- STK_REDUCE (R311): Sum, maximum or minimum of a range. -/
  | stkReduce (fid : Nat)
  /-- STK_COPY (R312): Copies between open regions of one stack. -/
  | stkCopy (fid : Nat)
  /-- STK_FILL (R312): Fills open regions with a 64-bit pattern. -/
  | stkFill (fid : Nat)
  /-- STK_OP_DISPATCH (R304): The stack dispatches a queued operation after checking its regions are OPEN and CLEAN. -/
  | stkOpDispatch (stack : Nat)
  /-- BANK_SLICE_END (R314): A bank unit's slice ends, it runs an owed refresh and takes the next part by class. -/
  | bankSliceEnd (stack unit : Nat)
  /-- REFRESH_DUE (R316): A bank unit's refresh falls due and runs at once, at the slice end, or by a cut. -/
  | refreshDue (stack unit : Nat)
  /-- STK_OP_COMPLETE (R313): The last part of a compute-stack operation finishes and the operation completes. -/
  | stkOpComplete (stack op : Nat)
  /-- WNG_FLUSH_DONE_WRITE (R306): A write to WNG_FLUSH_DONE makes the named open regions CLEAN. -/
  | wngFlushDoneWrite (src wing val : Nat)
  /-- STK_REGION_SEL_WRITE (R317): A write to STK_REGION_SEL selects the region shown in STK_REGION_STAT. -/
  | stkRegionSelWrite (src stack val : Nat)
  /-- EMB_CREATE (R322): Defines an embedding table and allocates its rows. -/
  | embCreate (fid : Nat)
  /-- EMB_WRITE (R323): Overwrites a range of local rows. -/
  | embWrite (fid : Nat) (src : Dma)
  /-- EMB_DESTROY (R324): Releases a table after earlier descriptors complete. -/
  | embDestroy (fid : Nat)
  /-- EMB_GATHER (R328): Reads rows by index, optionally pooled, forwarding rows owned elsewhere. -/
  | embGather (fid : Nat) (idx next : Dma)
  /-- EMB_UPDATE (R334): Adds update rows into rows at their owners. -/
  | embUpdate (fid : Nat) (src : Dma)
  /-- PANTRY_SET (R331): Sets the rows the Pantry holds and its refresh period from a beat. -/
  | pantrySet (fid : Nat) (src : Dma)
  /-- EMB_MIGRATE (R335): Schedules rows to move between two members at a beat. -/
  | embMigrate (fid : Nat) (src : Dma)
  /-- EMB_STATS (R338): Writes the table's load record to host memory. -/
  | embStats (fid : Nat)
  /-- CEL_DISCARD (R357): Unmaps 16 KiB units of one Cellar range. -/
  | celDiscard (fid : Nat)
  /-- CEL_SYNC (R358): Writes back and commits the dirty pages of part of a Cellar range. -/
  | celSync (fid : Nat)
  /-- CEL_COMMIT_DONE (R355): A commit record reaches the journal buffer and the waiting publish, open or sync completes. -/
  | celCommitDone (fid : Nat)
  /-- CEL_HEALTH (R359): Writes the Cellar health record to host memory. -/
  | celHealth (fid : Nat)
  /-- CEL_SHUTDOWN (R352): CEL_CTRL.SHUTDOWN starts a clean shut-down of the Cellar. -/
  | celShutdown (src : Nat)
  /-- CEL_SHUTDOWN_COMPLETE (R352): The closing record is written and the Cellar reads SHUT_DOWN. -/
  | celShutdownComplete
  /-- FLASH_OP_ISSUE (R341): A Cellar die serves the next operation of a flash-die queue by class. -/
  | flashOpIssue (die : Nat)
  /-- FLASH_READ_DONE (R350): A flash read completes, after read-retry if needed, or fails with MEDIA_ERROR and poisons a fill. -/
  | flashReadDone (op : Nat) (corrected : Option (List Nat)) (retried : Bool)
  /-- FLASH_PROGRAM_DONE (R350): A program or erase completes, or fails and retires its block. -/
  | flashProgramDone (op : Nat) (failed : Bool)
  /-- GARBAGE_COLLECT (R348): Garbage collection copies the valid units of the emptiest block and erases it. -/
  | garbageCollect (die : Nat)
  /-- READ_RELOCATE (R349): A block reaching its read limit or a high corrected-bits bin is relocated. -/
  | readRelocate (block : Nat)
  /-- MAP_SEGMENT_WRITE (R343): A dirty map segment is written to the system area. -/
  | mapSegmentWrite
  /-- JOURNAL_WRITE (R344): The journal buffer is written to the system area when 2 MiB have filled. -/
  | journalWrite
  /-- JOURNAL_FLUSH_TIMER (R344): 10 ms pass since the last journal write and the buffer is written. -/
  | journalFlushTimer
  /-- CELLAR_MOUNT_DONE (R352): The Cellar mount finishes checkpoint, replay and flush-reserve restore, and start-up proceeds to READY. -/
  | cellarMountDone (ok : Bool)
  /-- LINK_TRAIN_DONE (R363): The CXL link finishes training to the widest width and highest rate both ends support. -/
  | linkTrainDone (width rate : Nat) (cxl : Bool)
  /-- BISNP_RESPONSE (R371): A host's response to a back-invalidate snoop returns the line, letting waiting accesses and window removals proceed. -/
  | bisnpResponse (snoop : Nat) (data : Option Bytes)
  /-- BI_SNOOP_TIMEOUT (R373): A snoop unanswered for BI_TIMEOUT_MS makes its port fail. -/
  | biSnoopTimeout (snoop : Nat)
  /-- HP_CTRL_FAIL (R377): HP_CTRL.FAIL fails the port with cause FORCED. -/
  | hpCtrlFail (src port : Nat)
  /-- HP_EN_WRITE (R381): A write of HP_CTRL.EN enables, drains or latches an enable on the host port by its state. -/
  | hpEnWrite (src port : Nat) (en : Bool)
  /-- HP_DRAIN_END (R381): A host port's drain ends and it becomes DISABLED or ENABLED. -/
  | hpDrainEnd (port : Nat)
  /-- HP_GRANT_WRITE (R366): A write to HP_GRANT changes the wings a port may use, refusing removals still in use. -/
  | hpGrantWrite (src port val : Nat)
  /-- HP_WIN_VALID_SET (R368): Setting VALID in HP_WIN_A installs a host window when its checks pass. -/
  | hpWinValidSet (src port win val : Nat)
  /-- HP_WIN_VALID_CLEAR (R369): Clearing VALID in HP_WIN_A starts removal of the window. -/
  | hpWinValidClear (src port win val : Nat)
  /-- HOST_HANDOVER (R382): Schedules a shared window to move from one host port to another at a beat. -/
  | hostHandover (fid : Nat)
  /-- LINK_DOWN (R377): The CXL link leaves the active state and every enabled port fails with LINK_DOWN. -/
  | linkDown
  /-- PERST_ASSERT (R493): PERST# held for 100 us resets the CXL controller and configuration space. -/
  | perstAssert
  /-- PERST_RELEASE (R470): PERST# release is acted on and link training begins. -/
  | perstRelease
  /-- LD_RESET (R493): A function-level reset of one LD clears its configuration and MSI-X and fails its port. -/
  | ldReset (port : Nat)
  /-- GET_LD_INFO (R386): MLD command reporting logical device information. -/
  | getLdInfo (path : MPath)
  /-- GET_LD_ALLOCATIONS (R386): MLD command reporting each LD's 32 TiB DPA space. -/
  | getLdAllocations (path : MPath)
  /-- GET_QOS_CONTROL (R386): MLD command reporting QoS control. -/
  | getQosControl (path : MPath)
  /-- GET_QOS_STATUS (R386): MLD command reporting QoS status. -/
  | getQosStatus (path : MPath)
  /-- GET_QOS_ALLOCATED_BW (R386): MLD command reporting allocated bandwidth. -/
  | getQosAllocatedBw (path : MPath)
  /-- GET_QOS_BW_LIMIT (R386): MLD command reporting bandwidth limits. -/
  | getQosBwLimit (path : MPath) (port : Nat)
  /-- SET_QOS_BW_LIMIT (R386): MLD command writing a port's HP_BW.LIMIT from a fraction of 128 GB/s. -/
  | setQosBwLimit (path : MPath) (port num den : Nat)
  /-- SET_LD_ALLOCATIONS (R386): MLD command answered as unsupported. -/
  | setLdAllocations (path : MPath)
  /-- SET_QOS_CONTROL (R386): MLD command answered as unsupported. -/
  | setQosControl (path : MPath)
  /-- SET_QOS_ALLOCATED_BW (R386): MLD command answered as unsupported. -/
  | setQosAllocatedBw (path : MPath)
  /-- UNSUPPORTED_COMMAND (R385): A management command arriving over a path not listed for it is answered as unsupported. -/
  | unsupportedCommand (path : MPath) (code : Nat)
  /-- IDENTIFY (R385): Mailbox command returning identify data of the logical device. -/
  | identify (path : MPath) (ld : Nat)
  /-- GET_HEALTH_INFO (R385): Mailbox command returning health data of the logical device. -/
  | getHealthInfo (path : MPath) (ld : Nat)
  /-- GET_EVENT_RECORDS (R503): Returns module event records from an event log. -/
  | getEventRecords (path : MPath) (ld log : Nat)
  /-- CLEAR_EVENT_RECORDS (R503): Clears module event records, releasing ALERT# when none remains. -/
  | clearEventRecords (path : MPath) (ld log count : Nat)
  /-- SET_EVENT_INTERRUPT_POLICY (R503): Accepts only the policy of no interrupts. -/
  | setEventInterruptPolicy (path : MPath) (noInterrupts : Bool)
  /-- POLICER_CONFIG_WRITE (R427): A meter rate, burst or mode write is applied with a bucket refill, or refused. -/
  | policerConfigWrite (src off val : Nat)
  /-- WNG_BRICK_WRITE (R416): A write to WNG_BRICK allots bricks of the wing pool to a disabled wing, or is refused. -/
  | wngBrickWrite (src wing n val : Nat)
  /-- BP_EN_WRITE (R443): A write of BP_CTRL.EN enables a Bruvia port or starts its drain. -/
  | bpEnWrite (src port : Nat) (en : Bool)
  /-- BP_DRAIN_END (R443): A Bruvia port's drain ends, the link goes DOWN and the port becomes DISABLED or ENABLED. -/
  | bpDrainEnd (port : Nat)
  /-- BP_RETRAIN (R440): BP_CTRL.RETRAIN takes the link DOWN and trains again. -/
  | bpRetrain (src port : Nat)
  /-- BRUVIA_LINK_DOWN (R440): A lane loses lock or the link fails and the port's epoch increments. -/
  | bruviaLinkDown (port : Nat)
  /-- BRUVIA_TRAIN_DONE (R440): Lane training and FEC lock finish and the port sends its EPOCH frame. -/
  | bruviaTrainDone (port : Nat)
  /-- FLIT_CRC_FAIL (R434): A received flit fails its CRC and it and later flits are discarded until replay. -/
  | flitCrcFail (port : Nat) (flit : Bytes)
  /-- BRUVIA_ACK_TIMEOUT (R438): No ACK advances for 20 us with flits unacknowledged and the link goes down. -/
  | bruviaAckTimeout (port : Nat)
  /-- LINK_CTL_SEND_TIMER (R438): 100 ns pass with flits unacknowledged and a LINK_CTL frame is sent. -/
  | linkCtlSendTimer (port : Nat)
  /-- BRUVIA_LOST_TIMEOUT (R446): A port stays off UP with its accepted partner for LOST_MS and the partner is lost. -/
  | bruviaLostTimeout (port : Nat)
  /-- IDLE (R435): A received IDLE frame fills a flit and does nothing. -/
  | idleFrame (port : Nat) (frame : Frame)
  /-- LINK_CTL (R438): A received LINK_CTL frame acknowledges flits, returns credits, or triggers replay on NAK. -/
  | linkCtl (port : Nat) (frame : Frame)
  /-- EPOCH (R440): A received EPOCH frame makes both ends adopt the larger epoch and enter IDENT. -/
  | epochFrame (port : Nat) (frame : Frame)
  /-- IDENT_HELLO (R441): A received IDENT_HELLO with nonce and public key is answered with IDENT_PROOF. -/
  | identHello (port : Nat) (frame : Frame)
  /-- IDENT_PROOF (R441): A received IDENT_PROOF is passed to the signature engine for verification. -/
  | identProof (port : Nat) (frame : Frame)
  /-- IDENT_VERIFY_DONE (R442): Verification ends and the link becomes UP with the partner's identity, or IDENT_FAIL. -/
  | identVerifyDone (port : Nat) (ok : Bool)
  /-- BEAT_ANNOUNCE (R36): A received BEAT_ANNOUNCE on an enabled port offers a beat number for the next boundary. -/
  | beatAnnounce (port : Nat) (frame : Frame)
  /-- HEALTH (R456): A received HEALTH frame is copied whole into BP_HEALTH_RX. -/
  | healthFrame (port : Nat) (frame : Frame)
  /-- HEALTH_SEND (R456): When BEAT_POS reaches a quarter period in a due beat a HEALTH frame is sent. -/
  | healthSend (port : Nat)
  /-- ANNEX_GRANT_REQ (R453): A lender grants the lowest run of free neighbour pages within BP_LEND.MAX, zeroed, or refuses. -/
  | annexGrantReq (port : Nat) (frame : Frame)
  /-- ANNEX_GRANT (R269): A received grant completes the borrower's Annex TIER_ALLOC or refuses it. -/
  | annexGrant (port : Nat) (frame : Frame)
  /-- ANNEX_RELEASE (R453): A received release returns lent pages to the lender's pool. -/
  | annexRelease (port : Nat) (frame : Frame)
  /-- REFUSE (R448): A received REFUSE completes the requesting descriptor with the carried status. -/
  | refuseFrame (port : Nat) (frame : Frame)
  /-- FANOUT (R450): A received FANOUT is admitted as a graph search of the mapped wing whose pipelines return RESULT_PARTs. -/
  | fanoutFrame (port : Nat) (frame : Frame)
  /-- RESULT_PART (R451): A received result part is given to the origin's Join. -/
  | resultPart (port : Nat) (frame : Frame)
  /-- RING_BLOCK (R452): A received ring-attention page fragment is blended and forwarded, or held in the ring buffer. -/
  | ringBlock (port : Nat) (frame : Frame)
  /-- ANNEX_RD (R447): An Annex page read is served by the lender, or its response completes the borrower's access. -/
  | annexRd (port : Nat) (frame : Frame)
  /-- ANNEX_WR (R447): An Annex page write is applied by the lender, or its response completes the borrower's access. -/
  | annexWr (port : Nat) (frame : Frame)
  /-- ANNEX_ROW_RD (R325): An embedding row read is served at its owner, or its answer returns to the requester. -/
  | annexRowRd (port : Nat) (frame : Frame)
  /-- ANNEX_ATOM (R454): An embedding row add is applied at its owner as STK_ADD does. -/
  | annexAtom (port : Nat) (frame : Frame)
  /-- ROW_MIGRATE (R337): A migrating row is accepted by the in side, passing ownership, or refused. -/
  | rowMigrate (port : Nat) (frame : Frame)
  /-- INPUT_START_THRESHOLD (R470): The input reaches 47 V with PWR_EN asserted and the rails start and the bank charges. -/
  | inputStartThreshold
  /-- PWR_EN_ASSERT (R470): PWR_EN is asserted with input present and power-up begins. -/
  | pwrEnAssert
  /-- PWR_EN_DEASSERT (R471): PWR_EN is deasserted and the flush runs before the rails are removed. -/
  | pwrEnDeassert
  /-- POWER_UP_DELAY_EXPIRY (R471): 100 ms after every rail is off with PWR_EN still asserted, power-up begins again. -/
  | powerUpDelayExpiry
  /-- RAILS_GOOD (R462): The sequencer reports every rail good, the straps are sampled and resets released. -/
  | railsGood (straps : Nat)
  /-- POWER_FAILURE (R465): The input stage signals power failure and the power-fail flush begins on the hold-up bank. -/
  | powerFailure
  /-- FLUSH_COMPLETE (R354): The flush ends, and the rails are removed or the module reset proceeds. -/
  | flushComplete
  /-- BANK_CHARGED (R468): The hold-up bank holds 400 J and BANK_OK is set. -/
  | bankCharged
  /-- BANK_MEASURE (R469): The hourly or start-up bank measurement runs and sets BANK_LOW below 400 J. -/
  | bankMeasure (joules : Nat)
  /-- BANK_OK_TIMEOUT (R469): BANK_OK is not set 2 s after the start threshold and BANK_LOW is set. -/
  | bankOkTimeout
  /-- POWER_SAMPLE (R467): Each 100 us power mean is evaluated and the limiter engages, steps or releases. -/
  | powerSample (mean100us mean1s vin : Nat)
  /-- THERMAL_THRESHOLD (R475): A sensor crosses a refresh or throttle threshold and the matching action starts or ends. -/
  | thermalThreshold (sensor : Sensor) (temp : Int)
  /-- THERMAL_TRIP (R476): A sensor stays at or above its trip temperature for 1 ms, the flush runs and the rails are removed. -/
  | thermalTrip (sensor : Sensor)
  /-- IMAGE_VERIFY_DONE (R481): The boot ROM's verification of the boot-area image ends and the Housekeeper starts, or it waits for an image. -/
  | imageVerifyDone (image : Option Bytes)
  /-- FLOOR_TRAIN_DONE (R479): All Floor stacks are trained and reserves laid out, or start-up halts. -/
  | floorTrainDone (failed : Option Nat)
  /-- GET_FW_INFO (R483): Reports one firmware slot, both active and staged. -/
  | getFwInfo (path : MPath)
  /-- TRANSFER_FW (R483): Assembles an image in staging memory and, when complete and valid, writes it to the boot area. -/
  | transferFw (path : MPath) (action : FwAction) (slot off : Nat) (data : Bytes)
  /-- BOOT_AREA_WRITE_DONE (R484): The boot-area write ends and a deferred module reset takes effect. -/
  | bootAreaWriteDone
  /-- ACTIVATE_FW (R484): Restarts the Housekeeper at once from the staged image, or on the next reset. -/
  | activateFw (path : MPath) (online : Bool) (slot : Nat)
  /-- PROF_SET_FIRST_WORD (R519): A complete write of PROF_SET's first word stores the target beat for its requester. -/
  | profSetFirstWord (src val : Nat)
  /-- PROF_SET_SUBMIT (R486): A complete write of PROF_SET's second word submits a profile change with the stored beat. -/
  | profSetSubmit (src val : Nat)
  /-- RST_CTRL_MODULE (R518): RST_CTRL.MODULE with the key requests a module reset after a flush. -/
  | rstCtrlModule (src key : Nat)
  /-- MCTP_MODULE_RESET (R493): The MCTP reset command requests a module reset after a flush. -/
  | mctpModuleReset
  /-- GLB_SETUP_CLOSE (R516): GLB_SETUP.CLOSE locks every RWL field until module reset. -/
  | glbSetupClose (src : Nat)
  /-- GET_VERSION (R490): SPDM request returning supported versions. -/
  | getVersion (path : MPath)
  /-- GET_CAPABILITIES (R490): SPDM request returning responder capabilities. -/
  | getCapabilities (path : MPath)
  /-- NEGOTIATE_ALGORITHMS (R490): SPDM request settling ML-DSA-44 and SHA3-256. -/
  | negotiateAlgorithms (path : MPath)
  /-- GET_DIGESTS (R489): SPDM request returning the certificate chain digest of slot 0. -/
  | getDigests (path : MPath)
  /-- GET_CERTIFICATE (R489): SPDM request returning the certificate chain. -/
  | getCertificate (path : MPath) (slot off len : Nat)
  /-- CHALLENGE (R490): SPDM request answered with a response signed by the identity key. -/
  | challenge (path : MPath) (nonce : Bytes)
  /-- GET_MEASUREMENTS (R491): SPDM request returning signed measurement blocks. -/
  | getMeasurements (path : MPath) (index : Nat) (signed : Bool)
  /-- SPDM_SIGN_DONE (R492): The signature engine finishes a queued signing and its response is sent. -/
  | spdmSignDone
  /-- STACK_RECOVER (R505): A compute-stack recovery aborts its operations and resets its units and internal bus. -/
  | stackRecover (src stack : Nat) (byHousekeeper : Bool)
  /-- CHANNEL_RECOVER (R506): A Cellar channel recovery stops issuing and resets and retrains the interface. -/
  | channelRecover (src channel : Nat) (byHousekeeper : Bool)
  /-- CHANNEL_TRAIN_DONE (R506): Channel retraining ends and the channel returns to service or goes offline. -/
  | channelTrainDone (channel : Nat) (ok : Bool)
  /-- ERR_INJECT_ARM (R507): ERR_INJECT.ARM arms one injection on a line of a wing. -/
  | errInjectArm (src val : Nat)
  /-- PATROL_SCRUB (R495): Patrol scrub reads lines, writing corrected ones back and poisoning uncorrectable ones. -/
  | patrolScrub (line : ScrubLine) (ecc : LineEcc)
  /-- FATAL_STOP (R496): A MODULE-class error stops the module, aborts descriptors and flushes the Cellar's durable state. -/
  | fatalStop (cause : Nat)
  /-- WNG_ERR_ENABLE (R500): Setting EN in WNG_ERR_CFG starts the error ring with HEAD and TAIL at 0. -/
  | wngErrEnable (src wing val : Nat)
  /-- BRUVIA_SIGNAL_DETECT (R440): Signal appears on the lanes of an enabled Bruvia port in DOWN, and the link enters TRAIN. -/
  | bruviaSignalDetect (port : Nat)
deriving DecidableEq, Repr

end Sys2Proof
end

