-- ==== Sys2Proof/Decode.lean ====
section
/-! DEFINITION. The commands that a word spells. The opcode table gives none of its rows any bits: a command is no encoded word, so
no word spells one. -/
namespace Sys2Proof

/-- The command that a word spells by the bits of the opcode table: no row gives bits. (log 35, DESIGN CHOICE) -/
def decodeTableWord (_nbits _w : Nat) : Option Instr := none

end Sys2Proof
end

