-- ==== Sys2Proof/Machine/Fp.lean ====
section
/-!
DEFINITION. Number formats and their arithmetic (08): exact values, one rounding to nearest with ties to even, conversions, the
reduction of R200. Every operation is total and runs on naturals and integers.
-/
namespace Sys2Proof.Machine
open Sys2Proof

/-- A floating-point format (Table 08-1): exponent and mantissa bits, bias, encoding of infinity where there is one, largest
finite encoding, canonical NaN, and whether overflow saturates (Table 08-2). -/
structure Fmt where
  eb : Nat
  mb : Nat
  bias : Nat
  infBits : Option Nat
  maxBits : Nat
  nanBits : Nat
  saturates : Bool
deriving DecidableEq, Repr

def fp32 : Fmt := ⟨8, 23, 127, some 0x7F800000, 0x7F7FFFFF, 0x7FC00000, false⟩
def fp16 : Fmt := ⟨5, 10, 15, some 0x7C00, 0x7BFF, 0x7E00, false⟩
def bf16 : Fmt := ⟨8, 7, 127, some 0x7F80, 0x7F7F, 0x7FC0, false⟩
def e4m3 : Fmt := ⟨4, 3, 7, none, 0x7E, 0x7F, true⟩
def e5m2 : Fmt := ⟨5, 2, 15, some 0x7C, 0x7B, 0x7E, true⟩

/-- An exact value: not a number, an infinity, or (-1)^neg * m * 2^e. -/
inductive Val where
  | nan
  | inf (neg : Bool)
  | fin (neg : Bool) (m : Nat) (e : Int)
deriving DecidableEq, Repr

/-- Bits of a format's encoding, sign included. -/
def Fmt.width (f : Fmt) : Nat := 1 + f.eb + f.mb

/-- The value an encoding stands for (R194, R195: subnormals kept). -/
def Fmt.decode (f : Fmt) (x : Nat) : Val :=
  let neg := x / 2 ^ (f.eb + f.mb) % 2 == 1
  let mag := x % 2 ^ (f.eb + f.mb)
  let ex := mag / 2 ^ f.mb
  let man := mag % 2 ^ f.mb
  match f.infBits with
  | some i =>
    if mag = i then .inf neg else if mag > i then .nan
    else if ex = 0 then .fin neg man (1 - f.bias - f.mb) else .fin neg (man + 2 ^ f.mb) ((ex : Int) - f.bias - f.mb)
  | none =>
    if mag > f.maxBits then .nan
    else if ex = 0 then .fin neg man (1 - f.bias - f.mb) else .fin neg (man + 2 ^ f.mb) ((ex : Int) - f.bias - f.mb)

/-- n / d rounded to an integer, ties to even. -/
def roundHalfEven (n d : Nat) : Nat :=
  let q := n / d
  let r := n % d
  if 2 * r < d then q else if 2 * r > d then q + 1 else if q % 2 = 0 then q else q + 1

/-- Magnitude of (n / d) * 2^e rounded to an integer, ties to even. -/
def roundScaled (n d : Nat) (e : Int) : Nat :=
  if 0 ≤ e then roundHalfEven (n * 2 ^ e.toNat) d else roundHalfEven n (d * 2 ^ (-e).toNat)

/-- Exponent of the leading bit of n / d, for n and d above 0. -/
def leadExp (n d : Nat) : Int :=
  let k : Int := (Nat.log2 n : Int) - Nat.log2 d
  let below := if 0 ≤ k then n < d * 2 ^ k.toNat else n * 2 ^ (-k).toNat < d
  if below then k - 1 else k

/-- The magnitude bits of (n / d) * 2^e in a format, before overflow is looked at. -/
def Fmt.magBits (f : Fmt) (n d : Nat) (e : Int) : Nat :=
  if n = 0 then 0
  else
    let emin : Int := 1 - f.bias
    let base := max (leadExp n d + e) emin
    (base - emin).toNat * 2 ^ f.mb + roundScaled n d (e - (base - f.mb))

/-- Puts a sign bit before magnitude bits. -/
def Fmt.signed (f : Fmt) (neg : Bool) (mag : Nat) : Nat := if neg then mag + 2 ^ (f.eb + f.mb) else mag

/-- Result of an overflow or of an infinity, by format (Table 08-2). -/
def Fmt.overflow (f : Fmt) (neg : Bool) : Nat :=
  match f.infBits with
  | some i => if f.saturates then f.signed neg f.maxBits else f.signed neg i
  | none => f.signed neg f.maxBits

/-- (-1)^neg * (n / d) * 2^e rounded once to a format. -/
def Fmt.roundRat (f : Fmt) (neg : Bool) (n d : Nat) (e : Int) : Nat :=
  let mag := f.magBits n d e
  if mag > f.maxBits then f.overflow neg else f.signed neg mag

/-- A value rounded once to a format (R197, R198). -/
def Fmt.round (f : Fmt) : Val → Nat
  | .nan => f.nanBits
  | .inf neg =>
    match f.infBits with
    | some i => f.signed neg i
    | none => f.signed neg f.maxBits
  | .fin neg m e => f.roundRat neg m 1 e

/-- Whether a rounding to the format saturates (R213): an infinity, or a finite overflow. -/
def Fmt.saturated (f : Fmt) : Val → Bool
  | .nan => false
  | .inf _ => true
  | .fin _ m e => decide (f.magBits m 1 e > f.maxBits)

/-- An integer as an exact value. -/
def Val.ofInt (i : Int) : Val := .fin (decide (i < 0)) i.natAbs 0

/-- Exact product (R195). -/
def Val.mul : Val → Val → Val
  | .nan, _ => .nan
  | _, .nan => .nan
  | .inf a, .inf b => .inf (a != b)
  | .inf a, .fin b m _ => if m = 0 then .nan else .inf (a != b)
  | .fin a m _, .inf b => if m = 0 then .nan else .inf (a != b)
  | .fin a m e, .fin b n g => .fin (a != b) (m * n) (e + g)

/-- The integer (-1)^neg * m * 2^k. -/
def signedScaled (neg : Bool) (m k : Nat) : Int := if neg then -((m * 2 ^ k : Nat) : Int) else ((m * 2 ^ k : Nat) : Int)

/-- Exact sum (R195); an exact zero is -0 only when both operands are -0. -/
def Val.add : Val → Val → Val
  | .nan, _ => .nan
  | _, .nan => .nan
  | .inf a, .inf b => if a = b then .inf a else .nan
  | .inf a, .fin _ _ _ => .inf a
  | .fin _ _ _, .inf b => .inf b
  | .fin a m e, .fin b n g =>
    let lo := min e g
    let s := signedScaled a m (e - lo).toNat + signedScaled b n (g - lo).toNat
    if s = 0 then .fin (a && b) 0 0 else .fin (decide (s < 0)) s.natAbs lo

/-- The negated value. -/
def Val.neg : Val → Val
  | .nan => .nan
  | .inf a => .inf (!a)
  | .fin a m e => .fin (!a) m e

/-- Integer square root by bits: the largest r with r * r <= n, among `fuel` bits below and added to `acc`. -/
def isqrtBits (n : Nat) : Nat → Nat → Nat
  | 0, acc => acc
  | k + 1, acc => if (acc + 2 ^ k) * (acc + 2 ^ k) ≤ n then isqrtBits n k (acc + 2 ^ k) else isqrtBits n k acc

/-! ## Functions in fixed point, with 128 fraction bits (R161, Table 09-6) -/

/-- ln 2 in units of 2^-128. -/
def ln2Fix : Nat := 235865763225513294137944142764154484399

/-- Terms t of exp's series from place i on, in units of 2^-128, for an argument r in them. -/
def expTerms (r : Nat) : Nat → Nat → Nat → Nat
  | 0, _, _ => 0
  | k + 1, i, t => t + expTerms r k (i + 1) (t * r / 2 ^ 128 / i)

/-- exp of a finite value, to far less than a unit in the last place: 2^k * exp r with r below ln 2. -/
def expVal (neg : Bool) (m : Nat) (e : Int) : Val :=
  if m = 0 then .fin false 1 0
  else if 8 ≤ leadExp m 1 + e then (if neg then .fin false 1 (-512) else .inf false)
  else
    let x := signedScaled neg (if 0 ≤ e + 128 then m * 2 ^ (e + 128).toNat else m / 2 ^ (-(e + 128)).toNat) 0
    let k := x.fdiv ln2Fix
    .fin false (expTerms (x - k * ln2Fix).toNat 36 1 (2 ^ 128)) (k - 128)

/-- Terms of atanh's series, for the odd power p of t at place i. -/
def atanhTerms (t2 : Nat) : Nat → Nat → Nat → Nat
  | 0, _, _ => 0
  | k + 1, i, p => p / i + atanhTerms t2 k (i + 2) (p * t2 / 2 ^ 128)

/-- ln of m * 2^e, for m above 0, to far less than a unit in the last place: k ln 2 + 2 atanh ((z - 1) / (z + 1)) with z = m / 2^lead. -/
def lnVal (m : Nat) (e : Int) : Val :=
  let lead := Nat.log2 m
  let t := (m - 2 ^ lead) * 2 ^ 128 / (m + 2 ^ lead)
  let y : Int := (lead + e) * ln2Fix + 2 * (atanhTerms (t * t / 2 ^ 128) 44 1 t : Nat)
  .fin (decide (y < 0)) y.natAbs (-128)

/-- 1 / sqrt (m * 2^e), for m above 0, to far less than a unit in the last place. -/
def rsqrtVal (m : Nat) (e : Int) : Val :=
  let m2 := if e % 2 = 0 then m else 2 * m
  let e2 := if e % 2 = 0 then e else e - 1
  .fin false (isqrtBits (2 ^ 256 / m2) 129 0) (-(e2 / 2) - 128)

/-- Exponent of the unit in the last place of FP32 at n * 2^e. -/
def ulpExp (n : Nat) (e : Int) : Int := if n = 0 then -149 else max (leadExp n 1 + e) (-126) - 23

/-! ## FP32 -/

/-- The value of an FP32 encoding. -/
def fval (a : Word32) : Val := fp32.decode a.toNat

/-- A value rounded once to FP32. -/
def fround (v : Val) : Word32 := BitVec.ofNat 32 (fp32.round v)

def fadd (a b : Word32) : Word32 := fround ((fval a).add (fval b))
def fsub (a b : Word32) : Word32 := fround ((fval a).add (fval b).neg)
def fmul (a b : Word32) : Word32 := fround ((fval a).mul (fval b))

/-- Fused multiply-add, rounded once (R198). -/
def ffma (a b c : Word32) : Word32 := fround (((fval a).mul (fval b)).add (fval c))

/-- Sign bit inverted; a NaN is canonical (R196). -/
def fneg (a : Word32) : Word32 := fround (fval a).neg

/-- FP32 division, rounded once (R198). -/
def fdiv (a b : Word32) : Word32 :=
  match fval a, fval b with
  | .nan, _ => fround .nan
  | _, .nan => fround .nan
  | .inf _, .inf _ => fround .nan
  | .inf x, .fin y _ _ => fround (.inf (x != y))
  | .fin x _ _, .inf y => fround (.fin (x != y) 0 0)
  | .fin x m e, .fin y n g =>
    if n = 0 then (if m = 0 then fround .nan else fround (.inf (x != y)))
    else BitVec.ofNat 32 (fp32.roundRat (x != y) m n (e - g))

/-- FP32 square root, rounded once (R198). -/
def fsqrt (a : Word32) : Word32 :=
  match fval a with
  | .nan => fround .nan
  | .inf neg => if neg then fround .nan else a
  | .fin neg m e =>
    if m = 0 then a
    else if neg then fround .nan
    else
      let m2 := if e % 2 = 0 then m else 2 * m
      let e2 := if e % 2 = 0 then e else e - 1
      let n := m2 * 2 ^ 64
      let r := isqrtBits n 48 0
      let r2 := 2 * r + (if r * r = n then 0 else 1)
      BitVec.ofNat 32 (fp32.roundRat false r2 1 (e2 / 2 - 33))

def fIsNan (a : Word32) : Bool := fval a == .nan

/-- Whether an encoding is finite. -/
def fIsFin (a : Word32) : Bool :=
  match fval a with
  | .fin _ _ _ => true
  | _ => false

def fIsInf (a : Word32) : Bool :=
  match fval a with
  | .inf _ => true
  | _ => false

/-- Comparison of exact values that are no NaN. -/
def Val.lt : Val → Val → Bool
  | .nan, _ => false
  | _, .nan => false
  | .inf a, .inf b => a && !b
  | .inf a, .fin _ _ _ => a
  | .fin _ _ _, .inf b => !b
  | .fin a m e, .fin b n g =>
    let lo := min e g
    decide (signedScaled a m (e - lo).toNat < signedScaled b n (g - lo).toNat)

/-- The free value, when it lies within 2 units in the last place (and 2^-20 of one) of an exact value; else that value rounded
(log 5, DESIGN CHOICE). -/
def fWithin2 (y : Val) (free : Word32) : Word32 :=
  match y, (fval free).add y.neg with
  | .fin _ n e, .fin _ d g => if (Val.fin false (2 ^ 21 + 1) (ulpExp n e - 20)).lt (.fin false d g) then fround y else free
  | _, _ => fround y

/-- a < b as IEEE 754: false when either is a NaN. -/
def flt (a b : Word32) : Bool := (fval a).lt (fval b)

/-- a = b as IEEE 754: false when either is a NaN; zeros are equal. -/
def feq (a b : Word32) : Bool := !(fIsNan a) && !(fIsNan b) && !(flt a b) && !(flt b a)

def fle (a b : Word32) : Bool := flt a b || feq a b

/-- Magnitude. -/
def fabs (a : Word32) : Word32 := if fIsNan a then fround .nan else BitVec.ofNat 32 (a.toNat % 2 ^ 31)

/-- An integer to FP32, rounded once (exact for every width of Table 08-2). -/
def fOfInt (i : Int) : Word32 := fround (Val.ofInt i)

/-- An encoding of another format to FP32 (Table 08-2: exact). -/
def fOf (f : Fmt) (x : Nat) : Word32 := fround (f.decode x)

/-- FP32 to another format (Table 08-2). -/
def fTo (f : Fmt) (a : Word32) : Nat := f.round (fval a)

/-- FP32 to an integer of [lo, hi] (Table 08-2): rounded, then clamped; NaN gives 0. -/
def fToInt (lo hi : Int) (a : Word32) : Int :=
  match fval a with
  | .nan => 0
  | .inf neg => if neg then lo else hi
  | .fin neg m e =>
    let r : Int := roundScaled m 1 e
    max lo (min hi (if neg then -r else r))

/-- Whether the conversion of `fToInt` clamps (R213). -/
def fClamps (lo hi : Int) (a : Word32) : Bool :=
  match fval a with
  | .nan => false
  | .inf _ => true
  | .fin neg m e =>
    let r : Int := roundScaled m 1 e
    let v := if neg then -r else r
    decide (v < lo) || decide (hi < v)

/-- p / 2^shift rounded once to FP32 (R217). -/
def fOfScaled (p : Int) (shift : Nat) : Word32 :=
  BitVec.ofNat 32 (fp32.roundRat (decide (p < 0)) p.natAbs 1 (-(shift : Int)))

/-- p / 2^shift rounded to an integer, ties to even (R217). -/
def intOfScaled (p : Int) (shift : Nat) : Int :=
  let r : Int := roundScaled p.natAbs 1 (-(shift : Int))
  if p < 0 then -r else r

/-- The FP32 values of small constants. -/
def f0 : Word32 := 0
def f1 : Word32 := 0x3F800000#32
def fNegInf : Word32 := 0xFF800000#32

/-- Sums neighbours of a list. -/
def fPairs : List Word32 → List Word32
  | a :: b :: t => fadd a b :: fPairs t
  | [a] => [a]
  | [] => []

/-- The sum of 64 terms as a tree of six levels (R200). -/
def fTree (t : List Word32) : Word32 :=
  (fPairs (fPairs (fPairs (fPairs (fPairs (fPairs t)))))).headD f0

/-- Reduction of terms in groups of 64 (R200); `fuel` bounds the groups. -/
def fReduceFrom : Nat → Word32 → List Word32 → Word32
  | 0, total, _ => total
  | fuel + 1, total, t =>
    match t with
    | [] => total
    | _ => fReduceFrom fuel (fadd total (fTree (t.take 64))) (t.drop 64)

/-- R200. -/
def fReduce (t : List Word32) : Word32 := fReduceFrom (t.length / 64 + 1) f0 t

/-- Sums exact values exactly. -/
def valSum (l : List Val) : Val := l.foldl Val.add (.fin false 0 0)

/-- The sum of squares of a vector (R201). -/
def fNorm2 (x : List Word32) : Word32 := fReduce (x.map fun a => fmul a a)

/-- Whether the sum of squares of a vector is 0 or overflows: its scores are 0 (R54, R201). -/
def fNoNorm (x : List Word32) : Bool := feq (fNorm2 x) f0 || (!(fIsFin (fNorm2 x)) && !(fIsNan (fNorm2 x)))

/-- Normalisation (R201): unchanged when the sum of squares is 0. -/
def fNormalise (x : List Word32) : List Word32 :=
  let n2 := fNorm2 x
  if feq n2 f0 then x
  else
    let n := fsqrt n2
    x.map fun a => fdiv a n

/-- A query scaled for a COSINE collection: all zeros when it has no norm, so that its scores are 0 (R54, R201). -/
def fUnit (x : List Word32) : List Word32 := if fNoNorm x then x.map fun _ => f0 else fNormalise x

end Sys2Proof.Machine
end

