-- ==== Sys2Proof/Config.lean ====
section
/-!
DEFINITION. What the spec leaves open, as constants without a body: no proof can see their values, so a claim holds whatever they
are. Each is named in the assumption log.
-/
namespace Sys2Proof.Config
open Sys2Proof

/-- The n-th free value of the run, as a number (log 3, DESIGN CHOICE). -/
opaque freeNat : Nat → Nat

/-- What FP32 exp gives where its bound of 2 units in the last place allows it (R161, Table 09-6) (log 5, DESIGN CHOICE). -/
opaque expF32 : Word32 → Word32

/-- What the FP32 natural logarithm gives where its bound of 2 units in the last place allows it (R161) (log 5, DESIGN CHOICE). -/
opaque lnF32 : Word32 → Word32

/-- What FP32 1 / sqrt gives where its bound of 2 units in the last place allows it (Table 09-6) (log 5, DESIGN CHOICE). -/
opaque rsqrtF32 : Word32 → Word32

/-- SHA3-256, of another standard (R434 to R442, R481, R488) (log 6, DESIGN CHOICE). -/
opaque sha3 : Bytes → Nat

/-- Whether an ML-DSA-44 signature over a message verifies under a public key (R441, R481) (log 6, DESIGN CHOICE). -/
opaque mldsaVerify : Bytes → Bytes → Bytes → Bool

/-- The ML-DSA-44 signature with the module's identity key (R441, R490) (log 6, DESIGN CHOICE). -/
opaque mldsaSign : Bytes → Bytes

/-- The module's public identity key, derived from its unclonable seed (R488) (log 6, DESIGN CHOICE). -/
opaque publicKey : Bytes

/-- SHA3-256 of the key in mask ROM (R481), and the digest of the mask ROM (Table 20-4) (log 6, DESIGN CHOICE). -/
opaque romKeyHash : Nat

opaque romDigest : Nat

/-- Silicon stepping of `GLB_ID` (Table 22-4) (log 7, DESIGN CHOICE). -/
opaque stepping : Nat

/-- Certificate chain kept in the system area; empty when it cannot be read (R489) (log 6, DESIGN CHOICE). -/
opaque certChain : Bytes

/-- Which of its frames on a Hall die holds an internal page: of the die and the page's key (log 8, DESIGN CHOICE). -/
opaque frameOf : Nat → Nat → Nat

/-- Flash blocks of the user area at manufacture: how many, and how many are spare (R348, R351) (log 14, DESIGN CHOICE). -/
opaque userBlocks : Nat

opaque spareBlocks : Nat

/-- Flash geometry: 16 KiB units of a block, the flash die of a block, the channel of a flash die (log 14, DESIGN CHOICE). -/
opaque unitsPerBlock : Nat

opaque blockDie : Nat → Nat

opaque dieChannel : Nat → Nat

/-- Units that a block written in SLC mode holds, less one (log 14, DESIGN CHOICE). -/
opaque slcUnitsLess : Nat

/-- Units that a block written in SLC mode holds (log 14, DESIGN CHOICE). -/
def slcUnits : Nat := slcUnitsLess + 1

/-- Blocks of the flush reserve beyond those of 5 GiB (R340) (log 14, DESIGN CHOICE). -/
opaque reserveExtra : Nat

/-- Blocks of the flush reserve: at least 5 GiB in SLC mode (R340). -/
def reserveBlocks : Nat := (327680 + slcUnits - 1) / slcUnits + reserveExtra

/-- Which Cellar die drives the flash of a unit written afresh (log 14, DESIGN CHOICE). -/
opaque cellarDie : Nat → Nat

/-- Seconds of the Cellar's background schedule, before it is held to its range (Table 02-3) (log 120, DESIGN CHOICE). -/
opaque backgroundSeconds : Nat

/-- The bytes of a journal entry, less one: an entry is not empty, and fits the journal's buffer of 16 MiB (R344) (log 142, DEDUCED). -/
opaque journalEntryFit : Fin 16777216

/-- The bytes of a journal entry (log 142, DEDUCED). -/
def journalEntry : Nat := journalEntryFit.val + 1

end Sys2Proof.Config
end

