-- ==== Sys2Proof/Machine/State.lean ====
section
/-!
DEFINITION. The state of the module as plain data, the reasons a step could stop, and the state after power-up reset.

Sparse tables are lists of (key, value) pairs with rising keys in which no value equals what an unlisted key reads as; the
operations that keep this form are in Machine/Tab.lean.
-/
namespace Sys2Proof.Machine
open Sys2Proof

/-- A sparse table from natural-number keys. -/
abbrev Tab (α : Type) := List (Nat × α)

/-! ## Completions and descriptors in flight (16) -/

/-- Status codes (Table 16-4). -/
inductive Status where
  | ok | short | filterShort | versionConflict | versionGone | aborted | timeout | policedDrop
  | poisoned | mediaError | hostHeld | guardedRegion | busy | enablePending | invalid | noResource
deriving DecidableEq, Repr

/-- A completion as fixed (R404): status, flags (Table 16-5), COUNT and inline result. -/
structure Cpl where
  status : Status := .ok
  flags : Nat := 0
  count : Nat := 0
  result : Nat := 0
deriving DecidableEq, Repr

/-- Enable states (Table 16-6), with FAILED for host ports (Table 15-11). -/
inductive EnState where
  | disabled | enabled | draining | enablePending | failed
deriving DecidableEq, Repr

/-- How a descriptor stands to the CHAIN of the one before it (R400). -/
inductive ChainSt where
  | none | pending (seq : Nat) | passed | failed
deriving DecidableEq, Repr

/-- Where a fetched descriptor stands (R399): held by FENCE or CHAIN, waiting for its opcode's checks, admitted, or fixed. -/
inductive Phase where
  | held | ready | active | done
deriving DecidableEq, Repr

/-- What an error record says of a line or unit (R501, R502): unit kind and unit, tier address, and for an internal page of a
collection its handle, part, node and vector ID; `cyc` is the cycle of detection. -/
structure Note where
  kind : Nat := 0
  unit : Nat := 0
  addr : Nat := 0
  handle : Nat := 0xFFFFFFFF
  part : Nat := 0xFF
  node : Nat := 0
  vid : Nat := 0xFFFFFFFFFFFF
  cyc : Nat := 0
deriving DecidableEq, Repr

/-- A descriptor in flight, from its fetch until its entry is sent (R397 to R405); `touched`: tier bytes it has read in checks that were made
again after a wait (R277). -/
structure Flight where
  fid : Nat
  wing : Nat
  sq : Nat
  seq : Nat
  raw : Bytes
  cont : Bytes := []
  tc0Place : Bool := false
  cls : Nat := 7
  colour : Nat := 0
  dbCyc : Nat := 0
  admitCyc : Option Nat := none
  timeoutUs : Nat := 0
  phase : Phase := .ready
  fence : Bool := false
  chain : ChainSt := .none
  cpl : Option Cpl := none
  sqHead : Nat := 0
  due : Option Nat := none
  stalled : Bool := false
  degraded : Bool := false
  poisonSeen : Bool := false
  note : Option Note := none
  bound : Option Nat := none
  stallCyc : Nat := 0
  touched : List (Nat × Nat) := []
deriving DecidableEq, Repr

/-- A submission ring (R390, R400, R410, R412): pointers, next SEQ, CHAIN binding, accepted doorbells not yet passed by HEAD
as (TAIL, cycle), for each abort the ABORTED entries still to be sent before RECOVERED, and the entries that the descriptor at
HEAD needs as far as Intake knows them (R80). -/
structure SqSt where
  en : EnState := .disabled
  head : Nat := 0
  tail : Nat := 0
  seq : Nat := 0
  chain : ChainSt := .none
  dbs : List (Nat × Nat) := []
  recov : List (List Nat) := []
  needs : Nat := 1
deriving DecidableEq, Repr

/-- A completion ring (R390, R406): pointers, end of the coalescing interval, message owed. -/
structure CqSt where
  en : EnState := .disabled
  head : Nat := 0
  tail : Nat := 0
  coalEnd : Option Nat := none
  owed : Bool := false
deriving DecidableEq, Repr

/-- Token buckets of a meter in tenths of a byte (R423). -/
structure Meter where
  tc : Nat := 0
  tp : Nat := 0
deriving DecidableEq, Repr

/-- Error ring of a wing (R500): TAIL, records produced since EN was set, records dropped since the last one written. -/
structure ErrRing where
  tail : Nat := 0
  seq : Nat := 0
  lost : Nat := 0
deriving DecidableEq, Repr

/-! ## Beat (02) -/

/-- Beat receiver states (Table 02-1). -/
inductive RxState where
  | free | reacq | locked
deriving DecidableEq, Repr

/-- An offered beat number (R36), the cycle it came in, and the Bruvia port it came from, 6 for a write of `BEAT_NEXT`. -/
structure Offer where
  cyc : Nat
  n : Nat
  port : Nat
deriving DecidableEq, Repr

/-- A boundary referenced and due 96 cycles later (R28). -/
structure PendBoundary where
  due : Nat
  relock : Bool
deriving DecidableEq, Repr

/-- What happens at a target beat (R27, Table 02-2). Keys name objects as `wing * 65536 + handle`. -/
inductive SchedKind where
  | profile (p : Nat)
  | handover (fid : Nat)
  | version (key cset ver : Nat)
  | openColl (key : Nat)
  | destroyColl (key : Nat)
  | migrate (fid : Nat)
  | pantry (key : Nat)
  | progStart (key : Nat)
deriving DecidableEq, Repr

/-- A pending scheduled event (R41). -/
structure Sched where
  beat : Nat
  kind : SchedKind
deriving DecidableEq, Repr

/-- What a wing did in a beat (Table 18-8): descriptors completed, cycles with one in flight, `BEAT_POS` at the first admission and at the
last completion, stall cycles, descriptors in flight at the boundary. -/
structure WingBeat where
  done : Nat := 0
  busy : Nat := 0
  first : Option Nat := none
  last : Option Nat := none
  stall : Nat := 0
  inFlight : Nat := 0
deriving DecidableEq, Repr

/-- The beat receiver and the beat number (R28 to R44); `kept`: the last boundary was held (R38); `ended` is `BEAT_NUM` of the beat before. Times are exact, in units of 1/24 ns, so that a cycle is 16 units,
P is 24 units for each nanosecond and P/8 is 3. -/
structure Beat where
  rx : RxState := .free
  lost : Bool := true
  number : Option Nat := none
  held : Nat := 0
  kept : Bool := false
  unconf : Bool := false
  offers : List Offer := []
  refT : Nat := 0
  pend : List PendBoundary := []
  prevEdge : Nat := 0
  qual : Nat := 0
  periodNs : Nat := 1000000
  posBase : Nat := 0
  announced : Bool := false
  healthSent : List Nat := []
  ended : Nat := 0
  beats : Nat := 0
  sched : List Sched := []
deriving DecidableEq, Repr

/-! ## Collections (03, 06) -/

/-- Definition of a collection (Table 03-8). -/
structure CollDef where
  dim : Nat
  metric : Nat
  degree : Nat
  enc : Nat
  place : Nat
  attrWords : Nat
  shards : Nat
  capacity : Nat
  flatThresh : Nat
  flags : Nat
deriving DecidableEq, Repr

/-- Collection states (Table 03-6). -/
inductive CollSt where
  | building | opening | active | closing | draining
deriving DecidableEq, Repr

/-- Change set states (Table 06-2). -/
inductive CSetSt where
  | empty | staging | publishing
deriving DecidableEq, Repr

/-- A change set: state, base version (R132, R133) and, while it is PUBLISHING, its switch beat (R143). -/
structure CSet where
  st : CSetSt := .empty
  base : Nat := 0
  switchS : Option Nat := none
deriving DecidableEq, Repr

/-- A Porch entry (R138, R146): its node, its change set while staged, VIS once published. -/
structure PorchEnt where
  node : Nat
  vid : Nat
  cset : Nat
  vis : Option Nat
deriving DecidableEq, Repr

/-- A tombstone (R139, R141, R146): the node it ends, its change set while staged, DEL once published. -/
structure Tomb where
  node : Nat
  vid : Nat
  cset : Nat
  del : Option Nat
deriving DecidableEq, Repr

/-- A staging descriptor not yet resolved (R133, R134): whether it inserts, and its records (VID, record bytes). -/
structure StageJob where
  fid : Nat
  cset : Nat
  insert : Bool
  efmt : Nat
  recs : List (Nat × Bytes)
deriving DecidableEq, Repr

/-- Records of a part loaded by COLL_LOAD (R70, R72). -/
structure Loaded where
  part : Nat
  shard : Nat
  first : Nat
  count : Nat
deriving DecidableEq, Repr

/-- A Floor frame (Table 11-5): its stack, its number in the stack, and the wing whose page it holds; 16 for a page lent to a neighbour. -/
structure FrameAt where
  stack : Nat
  frame : Nat
  wing : Nat
deriving DecidableEq, Repr

/-- A collection. `mem` holds its parts as bytes, keyed part * 2^48 + shard * 2^44 (entry lists only) + offset; `bad` holds
its poisoned lines by key / 64; `regions` holds the compute-stack regions its parts were moved to, by part * 8 + shard; `winPages`
internal pages of the Cellar window from `winBase` on hold its Cellar-placed parts (R64); `zeros`: nodes whose vector, as the module encoded
it, has no norm (R54); `edged`: nodes whose adjacency record a merge has written. (log 31, DEDUCED) (log 121, DEDUCED) -/
structure Coll where
  defn : CollDef
  st : CollSt := .building
  version : Nat := 0
  latest : Nat := 0
  nodes : Nat := 0
  mem : Tab Byte := []
  bad : List Nat := []
  loaded : List Loaded := []
  csets : Tab CSet := []
  porch : List PorchEnt := []
  tombs : List Tomb := []
  stage : List StageJob := []
  openBeat : Option Nat := none
  openS : Option Nat := none
  destroyS : Option Nat := none
  dies : List Nat := []
  regions : Tab (List Nat) := []
  frames : List FrameAt := []
  winBase : Nat := 0
  winPages : Nat := 0
  zeros : List Nat := []
  edged : List Nat := []
deriving DecidableEq, Repr

/-- Durable mirror of a collection (R157 to R159): definition, and committed content when there is one. (log 14, DESIGN CHOICE) -/
structure Mirror where
  defn : CollDef
  mem : Option (Tab Byte) := none
  bad : List Nat := []
  nodes : Nat := 0
  winBase : Nat := 0
  zeros : List Nat := []
deriving DecidableEq, Repr

/-! ## Searches and attention (04, 05, 07) -/

/-- A node in the beam (R89). -/
structure BeamEnt where
  score : Word32
  node : Nat
  expanded : Bool
deriving DecidableEq, Repr

/-- A candidate in a list (R111, R121): score, node and vector ID, precision, Porch, source. -/
structure Cand where
  score : Word32
  node : Nat
  vid : Nat
  sq8 : Bool
  porch : Bool
  source : Nat
deriving DecidableEq, Repr

/-- What a shard of a search is doing. -/
inductive ShardPh where
  | granted | expanding | scanning | refining | listed | accepted
deriving DecidableEq, Repr

/-- A sorted run of a list longer than 4,096 entries (R115): whether it lies in Floor instead of the merge area, and its entries. -/
structure MantelRun where
  floor : Bool
  cands : List Cand
deriving DecidableEq, Repr

/-- One shard of one search on its pipeline (R84 to R119). `mantel`: the list, or the run that the segments form; `runs`: runs written, in
the order they were formed; `bar`: the threshold of R115; `porchDead`: entries of `porchView` that are dead at the pinned version. -/
structure ShardQ where
  shard : Nat
  die : Nat
  pipe : Nat
  reserved : Bool := false
  ph : ShardPh := .granted
  beam : List BeamEnt := []
  width : Nat := 0
  widest : Nat := 0
  visited : List Nat := []
  prefetched : List Nat := []
  mantel : List Cand := []
  ranges : List (Nat × Nat) := []
  handed : Option (Nat × Nat) := none
  scan : Bool := false
  expanded : Nat := 0
  scored : Nat := 0
  passed : Nat := 0
  porchScored : Nat := 0
  porchView : List Nat := []
  porchDead : List Nat := []
  refineWait : List Nat := []
  runs : List MantelRun := []
  bar : Option Word32 := none
  stackBytes : Nat := 0
  stop : Nat := 0
  refFloor : Nat := 0
  refCellar : Nat := 0
  miss : Nat := 0
deriving DecidableEq, Repr

/-- A result part awaited from a neighbour (R451). -/
structure PartWait where
  port : Nat
  tag : Nat
  nparts : Option Nat := none
  got : Nat := 0
  cands : List Cand := []
  status : Status := .ok
  flags : Nat := 0
deriving DecidableEq, Repr

/-- One search: its query as FP32 elements, and its shards. -/
structure Search where
  query : List Word32
  shards : List ShardQ := []
deriving DecidableEq, Repr

/-- A filter clause (Table 05-1). -/
structure Clause where
  word : Nat
  op : Nat
  typ : Nat
  neg : Bool
  join : Bool
  a : Word32
  b : Word32
deriving DecidableEq, Repr

/-- A ring-attention block arriving on PREV (R191): step, and pages received so far as (page, bytes). -/
structure RingPage where
  port : Nat
  wing : Nat
  ringId : Nat
  index : Nat
  step : Nat
  layer : Nat
  hkv : Nat
  kfmt : Nat
  dh : Nat
  pos0 : Nat
  page : Nat
  tokens : Nat
  bytes : Tab Byte
  whole : Bool
deriving DecidableEq, Repr

/-- Running blend state of one query (R161). -/
structure BlendSt where
  m : Word32
  l : Word32
  acc : List Word32
  n : Nat
deriving DecidableEq, Repr

/-- An admitted request that uses pipelines (R84): searches, scans, attention, and searches received by FANOUT, which end at `due`
(R450). It goes when
its completion is fixed (R87, R404). -/
structure Req where
  fid : Nat
  opcode : Nat
  wing : Nat
  key : Nat
  cls : Nat
  version : Nat := 0
  k : Nat := 0
  refine : Nat := 0
  beam : Nat := 0
  beamMax : Nat := 0
  seeds : Nat := 0
  maxExpand : Nat := 0
  prefetch : Nat := 0
  useStacks : Bool := false
  scanSq8 : Bool := false
  stats : Bool := false
  clauses : List Clause := []
  ranges : List (Nat × Nat) := []
  segs : Nat := 0
  searches : List Search := []
  parts : List PartWait := []
  queries : List (List Word32) := []
  locals : Bytes := []
  fromPort : Option (Nat × Frame) := none
  waiting : Bool := true
  handoffCyc : Nat := 0
  due : Option Nat := none
  length : Nat := 0
  ringStep : Nat := 0
  ringPage : Nat := 0
  blends : List BlendSt := []
  flags : Nat := 0
deriving DecidableEq, Repr

/-- A prefetched KV tier page that is held in the window cache (R183, R185): its name, the boundary count at its issue. -/
structure KvCached where
  name : Nat
  since : Nat
deriving DecidableEq, Repr

/-- A KV session (Table 07-4). Tier pages that have spilled, and those whose spill is being written to flash; `winPages` internal pages of
the Cellar window from `winBase` on are what they spill to (R182). `mem` holds page bytes keyed layer * 2^48 + page * 2^18 + offset; a tier page of a layer and
shard is named layer * 2^40 + shard * 2^36 + t. -/
structure Sess where
  layers : Nat
  hkv : Nat
  group : Nat
  dh : Nat
  kfmt : Nat
  shards : Nat
  maxTokens : Nat
  resident : Nat
  sink : Nat
  lookahead : Nat
  hold : Nat
  pos0 : Nat
  dies : List Nat := []
  lens : Tab Nat := []
  mem : Tab Byte := []
  bad : List Nat := []
  spilled : List Nat := []
  spilling : List Nat := []
  pref : List KvCached := []
  waits : List Nat := []
  frames : List FrameAt := []
  winBase : Nat := 0
  winPages : Nat := 0
deriving DecidableEq, Repr

/-! ## Bricks (09) -/

/-- A latch (Table 09-18): value, and engine and address of the last signaller. -/
structure Latch where
  value : Nat := 0
  eng : Nat := 7
  addr : Nat := 0
deriving DecidableEq, Repr

/-- An instruction in an engine queue (R223): its word, its address, and the scalar operands as they stood at dispatch. -/
structure QEnt where
  word : Word64
  addr : Nat
  a : Word64
  b : Word64
  d : Word64
deriving DecidableEq, Repr

/-- A Post packet (Table 09-7): two header words and payload bytes. -/
structure Packet where
  w0 : Word64
  w1 : Word64
  payload : Bytes
deriving DecidableEq, Repr

/-- An inbound FIFO (R227): whole packets, oldest first, the 12-bit pointers, and the bound latch with its PBIND address. -/
structure Fifo where
  pkts : List Packet := []
  rd : Nat := 0
  wr : Nat := 0
  bind : Option (Nat × Nat) := none
deriving DecidableEq, Repr

/-- What a switch saves of a brick (R244): registers, vectors (key v * 512 + byte), accumulators (key a * 256 + index), pc,
codebook, latches, numeric status, FIFOs, engine queues, watchdog remainder in ticks, halted, a PSEND under way, packets sent so far
by destination * 4 + FIFO (Table 09-7), cycle + 1 in which a bit of the numeric status was last set (R8); whether the instruction at pc has
started and waits (R224); how far the Mover is in its instruction: bytes of MGET and MPUT, rows of MGATHER (R244). (log 15, DESIGN CHOICE) -/
structure Ctx where
  s : Tab Word64 := []
  v : Tab Byte := []
  acc : Tab Word32 := []
  pc : Nat := 0
  codebook : Option Bytes := none
  latch : Tab Latch := []
  num : Nat := 0
  fifo : Tab Fifo := []
  queue : Tab (List QEnt) := []
  wdogLeft : Nat := 0
  halted : Bool := false
  sending : Bool := false
  seqs : Tab Nat := []
  numAt : Tab Nat := []
  begun : Bool := false
  moved : Nat := 0
deriving DecidableEq, Repr

/-- BRK_STATE.STATE (Table 09-15). -/
inductive BrkSt where
  | idle | running | halted | faulted | switching
deriving DecidableEq, Repr

/-- A brick: resident context, store, resident program (key), state, fault (Table 09-16), cycle its watchdog was last
started, poisoned lines of the store (R495); scale history blocks (address, bytes) that an instruction just wrote without order (R214).
(log 15, DESIGN CHOICE) -/
structure Brick where
  ctx : Ctx := {}
  store : Tab Byte := []
  prog : Option Nat := none
  st : BrkSt := .idle
  fault : Nat := 0
  fEngine : Nat := 0
  fAddr : Nat := 0
  wdogFrom : Nat := 0
  bad : List Nat := []
  torn : List (Nat × Nat) := []
deriving DecidableEq, Repr

/-- A window entry of a brick (R237). -/
structure Win where
  base : Nat
  pages : Nat
  perm : Nat
deriving DecidableEq, Repr

/-- A brick entry of a program (Table 09-11). -/
structure BrickEnt where
  brick : Nat
  base : Nat
  bytes : Nat
  entry : Nat
  pscale : Nat
  wins : List Win
deriving DecidableEq, Repr

/-- Program states (R235). -/
inductive ProgSt where
  | loaded | running | ended
deriving DecidableEq, Repr

/-- A program (R235 to R245). `saved`: contexts of its bricks while not resident, with their saved store range and its poisoned
lines. `firstFault`: brick, code and address of the first fault, in cycle `failCyc`.
`startFid`: a PROG_START that waits for its cycle, from `startBeat` on. `hostSeq`: host packets so far by brick * 4 + FIFO. -/
structure Prog where
  bricks : List BrickEnt
  ptc : Nat
  quantum : Nat
  wdogUs : Nat
  priv : Nat
  order : Nat
  st : ProgSt := .loaded
  resident : Bool := false
  switching : Bool := false
  startFid : Option Nat := none
  startBeat : Option Nat := none
  turnLeft : Nat := 0
  cycles : Nat := 0
  since : Nat := 0
  firstFault : Option (Nat × Nat × Nat) := none
  failCyc : Nat := 0
  waits : List Nat := []
  saved : Tab Ctx := []
  savedStore : Tab (Tab Byte) := []
  savedBad : Tab (List Nat) := []
  hostSeq : Tab Nat := []
  pages : Nat := 0
  frames : List FrameAt := []
deriving DecidableEq, Repr

/-- A packet on its way (R229, R242): sender brick or waiting PROG_POST, destination program key, the packet. -/
structure Transit where
  id : Nat
  src : Option Nat
  fid : Option Nat
  dst : Nat
  fifo : Nat
  dprog : Nat
  pkt : Packet
deriving DecidableEq, Repr

/-! ## Text (10) -/

/-- A vocabulary entry (Table 10-2). -/
structure Token where
  bytes : Bytes
  special : Bool
  final : Bool
deriving DecidableEq, Repr

/-- A loaded vocabulary slot (R248). -/
structure Vocab where
  wing : Nat
  tokens : List Token
  pages : Nat
  frames : List FrameAt := []
deriving DecidableEq, Repr

/-- A stream (R250 to R261). -/
structure Stream where
  cut : Bool
  vocab : Nat := 0
  stops : List Bytes := []
  segLen : Nat := 0
  outW : Nat := 0
  pad : Nat := 0
  idBase : Nat := 0
  carry : Bytes := []
  held : Bytes := []
  stopped : Bool := false
  history : List Nat := []
  draft : Option (List (List Nat)) := none
  draftPages : Nat := 0
  frames : List FrameAt := []
deriving DecidableEq, Repr

/-! ## Tiers (11) -/

/-- A tier range (R267 to R271): `base` is its first page as tier address / 256 KiB; `regions` its compute-stack regions;
`fid` the TIER_ALLOC that still waits, `freeFrom` the TIER_FREE that waits, `freeFor` the descriptors it waits for. -/
structure Range where
  wing : Nat
  tier : Nat
  base : Nat
  pages : Nat
  durable : Bool := false
  stack : Nat := 0
  port : Nat := 0
  first : Nat := 0
  lost : Bool := false
  ready : Bool := true
  regions : List Nat := []
  fid : Option Nat := none
  freeFrom : Option Nat := none
  freeFor : List Nat := []
deriving DecidableEq, Repr

/-- A tier page table entry (Table 11-5), without the bits other state gives. `busy` with `filling` is a fill, without it a
write-back; `wrote` holds what has been written of the page since its fill began, as offset and length (R280); `seen`: the cycle of its last access,
plus 1 (R282). -/
structure PageEnt where
  tier : Nat := 0
  dirty : Bool := false
  pinned : Bool := false
  busy : Bool := false
  heat : Nat := 0
  stack : Nat := 0
  frame : Nat := 0
  age : Nat := 0
  seen : Nat := 0
  filling : Bool := false
  wrote : List (Nat × Nat) := []
deriving DecidableEq, Repr

/-- A tier access that is outstanding (R279, R287): whose it is (a descriptor's, a brick's or a waiting CXL.mem
request's), its cause of Table 11-11, when it was
issued; `left` answers of a neighbour or of flash are still awaited, `failed`: one of them failed; `tag` tells the reads of internal pages
apart (0 for a tier access), `miss`: the bytes come from the lower tier. -/
structure Access where
  id : Nat
  wing : Nat
  fid : Option Nat
  page : Nat
  cause : Nat
  issued : Nat
  stalled : Bool := false
  brick : Option Nat := none
  left : Nat := 0
  failed : Bool := false
  mem : Option Nat := none
  tag : Nat := 0
  miss : Bool := false
deriving DecidableEq, Repr

/-- A host window (Tables 15-12, 15-13): `base` is its first tier page, `dpa` its first DPA in units of 256 KiB. -/
structure HostWin where
  valid : Bool
  shared : Bool
  tc : Nat
  wing : Nat
  base : Nat
  pages : Nat
  dpa : Nat
deriving DecidableEq, Repr

/-- An accepted CXL.mem request that waits (R279, R371, R374, R383), with its identity and the window that it reached when it came to G0;
`denied`: it came after its window had been handed over. -/
structure MemWait where
  id : Nat
  port : Nat
  dpa : Nat
  tag : Nat
  own : Bool
  write : Option LineWrite
  bi : Bool
  win : Option HostWin := none
  denied : Bool := false
deriving DecidableEq, Repr

/-- A pin that waits (R272); `victims`: dirty pages whose frames it takes once they are written back, as (page of the pin, key). -/
structure PinWait where
  fid : Nat
  wing : Nat
  pages : List Nat
  victims : List (Nat × Nat) := []
deriving DecidableEq, Repr

/-! ## Compute stacks (12) -/

/-- Region states (Table 12-1). -/
inductive RegionSt where
  | guarded | opening | opened | sealing
deriving DecidableEq, Repr

/-- A region of a compute stack (R294 to R303). `held` is HELD; `internal`: it holds internal pages only. -/
structure Region where
  st : RegionSt := .guarded
  held : Bool := false
  internal : Bool := false
  wing : Nat := 0
deriving DecidableEq, Repr

/-- An STK_OPEN or STK_SEAL that waits (R296, R297), or the create or destroy of an embedding table (R322, R324): regions still to be
reached, regions that change state, pages moved; `table`: the table whose regions they are. -/
structure RegionJob where
  fid : Nat
  sealing : Bool
  left : List Nat
  changed : Nat
  moved : Nat := 0
  table : Option Nat := none
deriving DecidableEq, Repr

/-- An operation of a compute stack (R313): a descriptor's, a pipeline handoff with its threshold (R97) or near-memory work of an embedding
table. `refused`: the units did not take the work, whose region was not OPEN at its dispatch (R304). `key`: the table of such near-memory work;
`ask`: the port and the frame of the neighbour that sent it (R325). -/
structure StkOp where
  id : Nat
  stack : Nat
  fid : Option Nat
  opcode : Nat
  wing : Nat
  cls : Nat
  running : Bool := false
  regions : List Nat := []
  aux : Bytes := []
  rows : Bytes := []
  thresh : Option Word32 := none
  refused : Bool := false
  key : Nat := 0
  ask : Option (Nat × Frame) := none
deriving DecidableEq, Repr

/-! ## Embedding (13) -/

/-- A pending or running migration of a table (R335 to R337). `stale`: its port's epoch has changed since it was accepted. -/
structure Mig where
  fid : Nat
  out : Bool
  peer : Nat
  rows : List Nat
  beat : Nat
  switched : Bool := false
  stale : Bool := false
  settled : List Nat := []
  refused : List Nat := []
deriving DecidableEq, Repr

/-- One beat of a table's load ring (Table 13-5). -/
structure Load where
  beat : Nat := 0
  gathers : Nat := 0
  adds : Nat := 0
  forwarded : Nat := 0
deriving DecidableEq, Repr

/-- A pending Pantry set (R331). -/
structure PantrySet where
  beat : Nat
  period : Nat
  rows : List Nat
deriving DecidableEq, Repr

/-- An embedding table (Table 13-2). `regions`: compute-stack regions of its pages, in order. Stored rows are keyed slot * RB + byte, local rows first, then migration slots.
`ready`: its regions are open; `turn`: gathers admitted; `written`: local slots that were written while their row was away (R323). -/
structure Emb where
  fmt : Nat
  update : Bool
  frac : Nat
  members : Nat
  index : Nat
  width : Nat
  nrows : Nat
  migSlots : Nat
  ports : List Nat
  mem : Tab Byte := []
  bad : List Nat := []
  holders : Tab Nat := []
  slots : Tab Nat := []
  pages : Nat := 0
  frames : List FrameAt := []
  regions : List Nat := []
  pantry : List Nat := []
  period : Nat := 1
  pantryFrom : Option Nat := none
  copies : Tab Bytes := []
  sets : List PantrySet := []
  migs : List Mig := []
  now : Load := {}
  ring : List Load := []
  hot : Tab Nat := []
  hotPrev : Tab Nat := []
  ready : Bool := true
  turn : Nat := 0
  written : List Nat := []
deriving DecidableEq, Repr

/-- A prefetched row (R330). `turn`: which gather of its table prefetched it. -/
structure PrefRow where
  die : Nat
  wing : Nat
  key : Nat
  row : Nat
  bytes : Bytes
  turn : Nat
deriving DecidableEq, Repr

/-- An embedding gather or update under way (R326, R328, R334): rows gathered by row, requests outstanding as (port, tag, row), rows
that wait for a migration with their update, stack operations outstanding, prefetches outstanding as (port, tag), which gather of its
table it is. -/
structure EmbJob where
  fid : Nat
  key : Nat
  gather : Bool
  idx : List Nat := []
  got : Tab Bytes := []
  waits : List (Nat × Nat × Nat) := []
  parked : List (Nat × Bytes) := []
  ops : Nat := 0
  next : List (Nat × Nat) := []
  turn : Nat := 0
  pantry : Nat := 0
  added : Nat := 0
  forwarded : Nat := 0
deriving DecidableEq, Repr

/-! ## Cellar (14) -/

/-- CEL_STAT.STATE (Table 14-8). -/
inductive CelSt where
  | mounting | mounted | readOnly | flushing | shutDown
deriving DecidableEq, Repr

/-- A flash block (R348 to R351): programme/erase cycles, reads since its erase, units programmed, units whose map entry points into
it, whether it holds data; `worn`: a read of it needed as many corrected bits as RELOC_BIN names (R349). -/
structure Block where
  pe : Nat := 0
  reads : Nat := 0
  used : Nat := 0
  valid : List Nat := []
  retired : Bool := false
  inUse : Bool := false
  worn : Bool := false
deriving DecidableEq, Repr

/-- What a flash operation is for (R279, R283, R345, R348, R349): reads for a fill, for an access, to copy a unit, to merge a part of
a unit written through with the rest; programs of new contents, of a copy of a physical unit and of a map segment; erases. -/
inductive FlashUse where
  | fill
  | access (id : Nat)
  | copySrc
  | mergeSrc (wrote : List (Nat × Nat))
  | write
  | copied (src : Nat)
  | segment (seg : Nat)
  | erase (gc : Bool)
deriving DecidableEq, Repr

/-- A flash operation (R341): class, unit, block and physical unit (no block while a program waits for a fresh one); `stale`: a later
write or a discard of the unit came first (R345). -/
structure FlashOp where
  id : Nat
  cls : Nat
  unit : Nat
  block : Option Nat
  pu : Nat
  use : FlashUse
  running : Bool := false
  suspended : Bool := false
  stale : Bool := false
deriving DecidableEq, Repr

/-- An entry of the journal (R344): a unit mapped to a physical unit, units discarded from `lo` up to `hi`, a commit record. -/
inductive JEntry where
  | mapped (unit pu : Nat)
  | discard (lo hi : Nat)
  | commit
deriving DecidableEq, Repr

/-- The Cellar: state, map as unit -> physical unit, dirty segments oldest first, journal entries buffered, cycle of the last journal
write, the system area's map checkpoint and journal (R340), units excluded from write-back, blocks and spare blocks used, open block + 1 of each Cellar die, operations, health record
by byte offset, temperatures by hour (newest first), background work: cycle of its last start and how often it ran, pages a shut-down still writes, syncs as (descriptor, pages),
channels in recovery and offline. (log 14, DESIGN CHOICE) -/
structure Cellar where
  st : CelSt := .mounting
  unclean : Bool := false
  map : Tab Nat := []
  dirtySegs : List Nat := []
  journal : List JEntry := []
  journalCyc : Nat := 0
  sysMap : Tab Nat := []
  sysJournal : List JEntry := []
  excluded : List Nat := []
  blocks : Tab Block := []
  spareUsed : Nat := 0
  openBlk : Tab Nat := []
  ops : List FlashOp := []
  health : Tab Nat := []
  temps : List Nat := []
  tempCyc : Nat := 0
  bgFrom : Option Nat := none
  bgRuns : Nat := 0
  closing : Bool := false
  closed : Bool := false
  cause : Nat := 0
  syncs : List (Nat × List Nat) := []
  chanDown : List Nat := []
  chanOff : List Nat := []
deriving DecidableEq, Repr

/-! ## Host link (15) -/

/-- A snoop outstanding (R371 to R373): the port asked, the line, whether BISnpInv, and when it was sent. -/
structure Snoop where
  id : Nat
  port : Nat
  line : Nat
  inv : Bool
  sent : Nat
deriving DecidableEq, Repr

/-- A host port (R374 to R383). `denied`: DPA spans of windows handed over, whose requests are denied; `spilled`: it has held overflow
entries in this window (Table 15-2); `failCyc`: the cycle in which it failed; `late`: snoops outstanding in that cycle, and whether their
lines were poisoned before it (R379). -/
structure Port where
  st : EnState := .disabled
  cause : Nat := 0
  en : Bool := false
  winBusy : List Nat := []
  denied : List Nat := []
  count : Nat := 0
  started : Nat := 0
  waited : Bool := false
  devload : Nat := 0
  queue : List MemWait := []
  spilled : Bool := false
  failCyc : Option Nat := none
  late : List (Snoop × Bool) := []
deriving DecidableEq, Repr

/-- A shared-line directory entry (R371): line key, holders, owner, order of grant. -/
structure DirEnt where
  line : Nat
  holders : List Nat
  owner : Option Nat
  stamp : Nat
deriving DecidableEq, Repr

/-- A management command that waits for a later phase (R385, R386, R479). -/
inductive MgmtCmd where
  | getLdInfo
  | getLdAllocations
  | getQosControl
  | getQosStatus
  | getQosAllocatedBw
  | getQosBwLimit (port : Nat)
  | setQosBwLimit (port num den : Nat)
  | identify (ld : Nat)
  | getHealthInfo (ld : Nat)
  | getEventRecords (ld log : Nat)
  | clearEventRecords (ld log count : Nat)
  | setEventInterruptPolicy (noInterrupts : Bool)
deriving DecidableEq, Repr

/-- A hand-over in progress (R382, R383). -/
structure HandOver where
  fid : Nat
  wing : Nat
  from_ : Nat
  to_ : Nat
  fromWin : Nat
  toWin : Nat
  toDpa : Nat
  moved : Bool := false
  lines : Nat := 0
  withData : Nat := 0
  poison : Bool := false
deriving DecidableEq, Repr

/-- A module event record (R503, Table 21-5). -/
structure EvRec where
  code : Nat
  unit : Nat
  dpa : Option Nat := none
deriving DecidableEq, Repr

/-! ## Bruvia (18) -/

/-- Link states (Table 18-5). -/
inductive LinkSt where
  | down | train | ident | up | identFail
deriving DecidableEq, Repr

/-- A request outstanding on a Bruvia port (R444). `relay`: it passes on a neighbour's request, whose port and frame these are (R325). -/
structure BpReq where
  tag : Nat
  typ : Nat
  fid : Option Nat
  wing : Nat
  chan : Nat
  args : Bytes
  payload : Bytes := []
  access : Option Nat := none
  colour : Nat := 0
  relay : Option (Nat × Frame) := none
deriving DecidableEq, Repr

/-- A grant made or held on a port (R445, R453): TAG, first neighbour page, pages. -/
structure Grant where
  tag : Nat
  first : Nat
  pages : Nat
deriving DecidableEq, Repr

/-- A Bruvia port (R433 to R458). `drainFrom`: the cycle its drain began; `epochSent`, `epochGot`: EPOCH frames of this training;
`proof`: the partner's signature; `fanBuf`: FANOUT messages so far, by tag; `ringTags`: tags of pages sent, with their descriptors;
`ringOwed`: credits kept back
while the ring buffer is full; `replayBuf`: the replay buffer, by the count of a frame's first flit; `lentFrames`: frames behind the pages lent, by first page. -/
structure BpSt where
  en : EnState := .disabled
  link : LinkSt := .down
  epoch : Nat := 0
  newPeer : Bool := false
  annexLost : Bool := false
  peerId : Option Nat := none
  lastPeer : Option Nat := none
  peerKey : Bytes := []
  nonceTx : Nat := 0
  nonceRx : Bytes := []
  epochSent : Bool := false
  epochGot : Bool := false
  proof : Option Bytes := none
  txFlits : Nat := 0
  ackedFlits : Nat := 0
  rxFlits : Nat := 0
  rxAcked : Nat := 0
  rxAckCyc : Nat := 0
  ackCyc : Nat := 0
  replayBuf : List (Nat × Frame) := []
  replays : Nat := 0
  dropping : Bool := false
  credits : Tab Nat := []
  owed : Tab Nat := []
  ringOwed : Tab Nat := []
  txSeq : Tab Nat := []
  txq : List Frame := []
  tags : Nat := 0
  reqs : List BpReq := []
  deferred : List BpReq := []
  grants : List Grant := []
  lent : List (Nat × Nat) := []
  lentMem : Tab Byte := []
  lentBad : List Nat := []
  lentFrames : Tab (List FrameAt) := []
  drainFrom : Option Nat := none
  fanBuf : Tab Bytes := []
  ringTags : List (Nat × Nat) := []
  leftUp : Option Nat := none
  health : Bytes := []
  ringBuf : List RingPage := []
deriving DecidableEq, Repr

/-! ## Module, start-up, errors (19 to 21) -/

/-- Supply of the module (R464, R470 to R472). `off` as no rail up; `bad`: the sequencer is running; `good`: all rails good. -/
inductive Rails where
  | off | starting | good
deriving DecidableEq, Repr

/-- Power, bank and thermal state (19). -/
structure Power where
  input : Bool := false
  pwrEn : Bool := false
  rails : Rails := .off
  offLatch : Bool := false
  straps : Nat := 0
  flush : Option Nat := none
  afterFlush : Nat := 0
  vin : Nat := 0
  pin : Nat := 0
  bankJ : Nat := 0
  bankOk : Bool := false
  bankLow : Bool := false
  startCyc : Nat := 0
  limit : Bool := false
  limitStep : Nat := 0
  past : Bool := false
  runAbove : Nat := 0
  pinSum : Nat := 0
  pinN : Nat := 0
  pinMean : Nat := 0
  temps : Tab Nat := []
  throttles : List Nat := []
  fastRefresh : List Nat := []
  hotInlet : Bool := false
  perst : Bool := true
  offCyc : Option Nat := none
  lastOff : Nat := 0
  flushCyc : Nat := 0
  unsetCyc : Nat := 0
  startBefore : Nat := 0
  measured : Bool := false
deriving DecidableEq, Repr

/-- Start-up, firmware and profile (20, Table 22-11 to 22-14). -/
structure Boot where
  phase : Nat := 0
  noImage : Bool := false
  fail : Bool := false
  failPhase : Nat := 0
  bootArea : Option Bytes := none
  staging : Option Bytes := none
  stagingOk : Bool := false
  xfer : Bool := false
  xferOff : Nat := 0
  writing : Bool := false
  rstPending : Bool := false
  hkImage : Option Bytes := none
  hkFrom : Nat := 0
  profile : Nat := 0
  profStat : Nat := 0
  profTarget : Option (Nat × Nat) := none
  setupClosed : Bool := false
deriving DecidableEq, Repr

/-- Link training and management of the CXL link (R363). -/
structure Link where
  trained : Bool := false
  everTrained : Bool := false
  width : Nat := 0
  rate : Nat := 0
  cxl : Bool := false
deriving DecidableEq, Repr

/-- SPDM state of one requester (R490, R492): whether versions and algorithms are settled, and its transcript. -/
structure SpdmSt where
  version : Bool := false
  caps : Bool := false
  algs : Bool := false
  transcript : List Nat := []
deriving DecidableEq, Repr

/-- A signing that waits for the signature engine (R492). -/
inductive Signing where
  | identProof (port : Nat)
  | spdm (path : MPath) (code : Nat) (nonce : Bytes) (fields : List Nat)
deriving DecidableEq, Repr

/-- Errors and recovery (21). -/
structure Err where
  fatal : Bool := false
  fatalCause : Nat := 0
  busy : Option (Nat × Nat) := none
  lastResult : Nat := 0
  armed : Bool := false
deriving DecidableEq, Repr

/-! ## Outputs -/

/-- What the module sends to the outside, in order. `unspecified` marks host memory whose contents the spec leaves
unspecified; `frame` is a frame's header and payload as bytes, `replay` sends again the flits of these frames from count `ack` on; `memResp` answers a CXL.mem request; `mgmt` answers a management command with its return and its fields.
(log 2, DESIGN CHOICE) -/
inductive Out where
  | hostWrite (port addr : Nat) (bytes : Bytes)
  | unspecified (port addr len : Nat)
  | entry (port addr : Nat) (bytes : Bytes)
  | msix (port ent : Nat)
  | readResp (src off width val : Nat)
  | memResp (port tag : Nat) (bytes : Bytes) (poison : Bool) (devload : Nat)
  | snoop (port line : Nat) (inv : Bool)
  | frame (port : Nat) (bytes : Bytes)
  | replay (port ack : Nat) (frames : List Bytes)
  | mgmt (path : MPath) (cmd : Nat) (ok : Bool) (fields : List Nat)
  | record (port addr : Nat) (bytes : Bytes)
deriving DecidableEq, Repr

/-! ## The state -/

/-- The reasons a step could stop with a fault. No rule of the spec stops the block without an effect on its state, so no
meaning raises one; safe. -/
inductive Fault where
  /-- Never raised: the spec gives every command an effect. -/
  | none
deriving DecidableEq, Repr

/-- The reasons a step could be refused. -/
inductive Refusal where
  /-- Raised by an arm of `exec` that has no meaning yet; safe, since nothing can be proved of such a step. -/
  | notModelled (mnemonic : String)
deriving DecidableEq, Repr

/-- The whole state of the module. -/
structure State where
  /-- `CYC_COUNT` (R29). -/
  cyc : Nat := 0
  /-- Beat receiver, beat number and scheduled events. -/
  beat : Beat := {}
  /-- Register words by BAR0 offset; an unlisted register reads its reset value. -/
  regs : Tab Nat := []
  /-- Live counters by BAR0 offset (R104). -/
  live : Tab Nat := []
  /-- Snapshots of the counters by BAR0 offset (R104). -/
  snap : Tab Nat := []
  /-- Held low halves by requester * 2^24 + offset (R6). -/
  lowHeld : Tab Nat := []
  /-- Low-half read captures by requester * 2^24 + offset, as high half + 1 (R513). -/
  captures : Tab Nat := []
  /-- Stored S of `PROF_SET` by requester (R519). -/
  profS : Tab Nat := []
  /-- Cycle + 1 in which the module last set a W1C bit (R8), by the register's BAR0 offset. -/
  setAt : Tab Nat := []
  /-- Entry captured by `TPT_PEEK_ADDR` (R290); 0 at reset (log 12, DESIGN CHOICE). -/
  peek : Nat := 0
  /-- Regions selected by `STK_REGION_SEL`, by compute stack (R317); 0 at reset (log 12, DESIGN CHOICE). -/
  regionSel : Tab Nat := []
  /-- MSI-X table words by port * 2^16 + offset in the table, and pending bits by port * 2048 + entry (R384, R521); masked at reset
  (log 13, PRESUMED). -/
  msixTab : Tab Nat := []
  msixPend : List Nat := []
  /-- What each wing did in this beat and in the one before (R456). -/
  wingNow : Tab WingBeat := []
  wingLast : Tab WingBeat := []
  /-- Wing enable states (R411). -/
  wings : Tab EnState := []
  /-- Submission and completion rings by wing * 64 + ring. -/
  sqs : Tab SqSt := []
  cqs : Tab CqSt := []
  /-- Descriptors in flight in fetch order, the next identity, and the order stamp of completions. -/
  flights : List Flight := []
  nextId : Nat := 0
  stamp : Nat := 0
  /-- Last wing served by class, and last ring served by class * 16 + wing, plus one (R397). -/
  rotWing : Tab Nat := []
  rotRing : Tab Nat := []
  /-- Meters by (wing * 2 + set) * 8 + class, and ticks taken (R423). -/
  meters : Tab Meter := []
  polTicks : Nat := 0
  /-- 1 us windows closed, by port (R374). -/
  bwTicks : Tab Nat := []
  /-- Error rings by wing (R500). -/
  errRings : Tab ErrRing := []
  /-- Collections by wing * 65536 + handle, and durable mirrors. -/
  colls : Tab Coll := []
  mirrors : Tab Mirror := []
  /-- Requests that use pipelines, in admission order. -/
  reqs : List Req := []
  /-- KV sessions by wing * 65536 + handle. -/
  sessions : Tab Sess := []
  /-- Bricks by ID, programs by wing * 65536 + handle, packets on their way. -/
  bricks : Tab Brick := []
  progs : Tab Prog := []
  transit : List Transit := []
  /-- Vocabulary slots and streams. -/
  vocabs : Tab Vocab := []
  streams : Tab Stream := []
  /-- Tier ranges, page entries by wing * 2^34 + page, bytes of frames and of lower tiers by wing * 2^52 + address. -/
  ranges : List Range := []
  pages : Tab PageEnt := []
  frm : Tab Byte := []
  low : Tab Byte := []
  frmBad : List Nat := []
  lowBad : List Nat := []
  /-- Internal Floor pages by wing, the frames of internal and lent pages, Cellar pages of internal objects by wing. -/
  intFloor : Tab Nat := []
  frames : List FrameAt := []
  intCellar : Tab Nat := []
  /-- Tier accesses outstanding; host requests, management commands and pins that wait. -/
  accesses : List Access := []
  memWaits : List MemWait := []
  mgmtWaits : List (MPath × MgmtCmd) := []
  pins : List PinWait := []
  /-- Compute-stack regions by stack index * 36864 + region, operations, opens and seals that wait; by stack index * 64 + unit, parts of
  operations (the running one first) and refresh debt. -/
  regions : Tab Region := []
  stkOps : List StkOp := []
  regionJobs : List RegionJob := []
  unitQ : Tab (List Nat) := []
  debt : Tab Nat := []
  /-- Of bank units, by the same keys: cycle at which the running slice has lasted 1,800 ns, cycle at which the last refresh fell due, first
  cycle after the refreshes that run (R314, R316). -/
  sliceEnd : Tab Nat := []
  refreshAt : Tab Nat := []
  refreshTill : Tab Nat := []
  /-- Embedding tables by wing * 65536 + handle, prefetched rows, neighbours' requests that wait for a migration, gathers and updates
  under way. -/
  embs : Tab Emb := []
  prefRows : List PrefRow := []
  embFrames : List (Nat × Nat × Frame) := []
  embJobs : List EmbJob := []
  cellar : Cellar := {}
  link : Link := {}
  ports : Tab Port := []
  dir : List DirEnt := []
  dirMost : Nat := 0
  snoops : List Snoop := []
  handovers : List HandOver := []
  /-- Event logs by LD * 4 + log, and their overflow counts (R503). -/
  logs : Tab (List EvRec) := []
  logLost : Tab Nat := []
  bps : Tab BpSt := []
  power : Power := {}
  boot : Boot := {}
  spdm : Tab SpdmSt := []
  signings : List Signing := []
  err : Err := {}
  /-- What has been sent to the outside, in order. -/
  out : List Out := []
  /-- Selects the next free value (the model's own; log 3, DESIGN CHOICE). -/
  fresh : Nat := 0
  /-- Commands that wait, first in, first out. -/
  pending : List Instr := []
deriving DecidableEq, Repr

/-- The module right after power-up reset: input absent, every register at its reset value, nothing held, no command waiting. -/
def State.reset : State := {}

end Sys2Proof.Machine
end

