-- ==== Sys2Proof/Machine/Bits.lean ====
section
/-!
DEFINITION. Bit fields, little-endian bytes (R3, R4), sign extension, and names of descriptor and frame fields.
-/
namespace Sys2Proof.Machine
open Sys2Proof

/-- Bits hi:lo of a number (R3: both ends belong to the field). -/
def bits (v hi lo : Nat) : Nat := v / 2 ^ lo % 2 ^ (hi + 1 - lo)

/-- Bit i of a number. -/
def bit (v i : Nat) : Bool := v / 2 ^ i % 2 == 1

/-- Replaces bits hi:lo. -/
def setBits (v hi lo x : Nat) : Nat :=
  v - bits v hi lo * 2 ^ lo + x % 2 ^ (hi + 1 - lo) * 2 ^ lo

/-- A Bool as a number. -/
def b2n (b : Bool) : Nat := if b then 1 else 0

/-- The number of little-endian bytes (R3). -/
def leNat : Bytes → Nat
  | [] => 0
  | b :: bs => b.toNat + 256 * leNat bs

/-- `n` little-endian bytes of a number (R3). -/
def natLe (v : Nat) : Nat → Bytes
  | 0 => []
  | n + 1 => BitVec.ofNat 8 v :: natLe (v / 256) n

/-- `n` bytes from offset `off`; bytes beyond the end read 0. -/
def slice (bs : Bytes) (off n : Nat) : Bytes :=
  let r := (bs.drop off).take n
  r ++ List.replicate (n - r.length) 0

/-- The little-endian field of `n` bytes at offset `off`. -/
def fld (bs : Bytes) (off n : Nat) : Nat := leNat (slice bs off n)

/-- Whether bytes off to off + n - 1 are all 0 (R11). -/
def zeroAt (bs : Bytes) (off n : Nat) : Bool := (slice bs off n).all (· == 0)

/-- A number with bit `n - 1` as its sign, as an integer. -/
def sext (v n : Nat) : Int := if v % 2 ^ n < 2 ^ (n - 1) then (v % 2 ^ n : Nat) else (v % 2 ^ n : Nat) - (2 ^ n : Nat)

/-- Ceiling division. -/
def cdiv (a b : Nat) : Nat := (a + b - 1) / b

/-- Rounds up to a multiple. -/
def roundUp (a b : Nat) : Nat := cdiv a b * b

/-- Saturates at the largest value of `n` bits. -/
def sat (v n : Nat) : Nat := min v (2 ^ n - 1)

/-- Splits bytes into records of `n` bytes; `fuel` bounds their number. -/
def chunks (n : Nat) : Nat → Bytes → List Bytes
  | 0, _ => []
  | _, [] => []
  | fuel + 1, bs => slice bs 0 n :: chunks n fuel (bs.drop n)

/-- The 32-bit words of bytes. -/
def words32 (bs : Bytes) : List Nat := (chunks 4 (cdiv bs.length 4) bs).map leNat

/-- Code of a status (Table 16-4). -/
def Status.code : Status → Nat
  | .ok => 0x00 | .short => 0x01 | .filterShort => 0x02 | .versionConflict => 0x10 | .versionGone => 0x11
  | .aborted => 0x20 | .timeout => 0x21 | .policedDrop => 0x22 | .poisoned => 0x30 | .mediaError => 0x31
  | .hostHeld => 0x40 | .guardedRegion => 0x41 | .busy => 0x50 | .enablePending => 0x51 | .invalid => 0x60
  | .noResource => 0x61

/-- Status of a code; a code outside Table 16-4 reads as INVALID. -/
def Status.ofCode (c : Nat) : Status :=
  if c = 0x00 then .ok else if c = 0x01 then .short else if c = 0x02 then .filterShort
  else if c = 0x10 then .versionConflict else if c = 0x11 then .versionGone else if c = 0x20 then .aborted
  else if c = 0x21 then .timeout else if c = 0x22 then .policedDrop else if c = 0x30 then .poisoned
  else if c = 0x31 then .mediaError else if c = 0x40 then .hostHeld else if c = 0x41 then .guardedRegion
  else if c = 0x50 then .busy else if c = 0x51 then .enablePending else if c = 0x61 then .noResource else .invalid

/-- Code of an enable state (Tables 16-6, 15-11). -/
def EnState.code : EnState → Nat
  | .disabled => 0 | .enabled => 1 | .draining => 2 | .enablePending => 3 | .failed => 4

/-! Fields of the descriptor header (Table 16-1) -/

def hOpcode (raw : Bytes) : Nat := fld raw 0 2
def hTc (raw : Bytes) : Nat := bits (fld raw 2 1) 2 0
def hColour (raw : Bytes) : Nat := bits (fld raw 2 1) 4 3
def hFence (raw : Bytes) : Bool := bit (fld raw 2 1) 5
def hNotify (raw : Bytes) : Bool := bit (fld raw 2 1) 6
def hChain (raw : Bytes) : Bool := bit (fld raw 2 1) 7
def hVer (raw : Bytes) : Nat := fld raw 3 1
def hTag (raw : Bytes) : Nat := fld raw 4 4
def hTimeout (raw : Bytes) : Nat := fld raw 8 4
def hHandle (raw : Bytes) : Nat := fld raw 12 4

/-- Unsigned field of a flight's descriptor. -/
def Flight.u (f : Flight) (off n : Nat) : Nat := fld f.raw off n

/-- The key of an object: its wing and handle. -/
def objKey (wing handle : Nat) : Nat := wing * 65536 + handle

/-- The key of the object that a descriptor's HANDLE names. -/
def Flight.obj (f : Flight) : Nat := objKey f.wing (hHandle f.raw)

end Sys2Proof.Machine
end

