-- ==== Sys2Proof/Machine/Flags.lean ====
section
/-!
DEFINITION. Flags and statuses: what a completion's flags, count and result become by status (R401, R403), the status of a search
(R125), the saturation and counter rules that several units share.
-/
namespace Sys2Proof.Machine
open Sys2Proof

/-- COUNT is 0 for these statuses (Table 16-3, R498). -/
def Status.zeroCount : Status → Bool
  | .invalid => true | .policedDrop => true | .aborted => true | .timeout => true | .versionGone => true | .poisoned => true
  | _ => false

/-- TIE_OVERFLOW (Table 16-5). -/
def flagTie : Nat := 1

/-- DEGRADED (Table 16-5). -/
def flagDegraded : Nat := 2

/-- STALLED (Table 16-5). -/
def flagStalled : Nat := 4

/-- POISON_SEEN (Table 16-5). -/
def flagPoisonSeen : Nat := 8

/-- RECOVERED (Table 16-5). -/
def flagRecovered : Nat := 16

/-- Completion as written for a descriptor: its flags gathered, its count by status (R401, R403). -/
def Flight.finalCpl (f : Flight) (c : Cpl) : Cpl :=
  { c with
    flags := c.flags ||| (if f.degraded then flagDegraded else 0) ||| (if f.stalled then flagStalled else 0)
      ||| (if f.poisonSeen then flagPoisonSeen else 0)
    count := if c.status.zeroCount then 0 else c.count % 65536 }

/-- Status of a search that completes without error (R125). -/
def searchStatus (n k clauses : Nat) : Status :=
  if n = k then .ok else if clauses ≠ 0 then .filterShort else .short

/-- COUNT of a search (R126). -/
def searchCount (n : Nat) : Nat := if n ≤ 65535 then n else 0xFFFF

/-- Whether a status lets the next descriptor of a chain run (R400). -/
def Status.chainPasses : Status → Bool
  | .ok => true | .short => true | .filterShort => true
  | _ => false

/-- Host result area a descriptor names, as address and length, by opcode; (0, 0) where it names none. -/
def Flight.resultArea (f : Flight) : Nat × Nat :=
  let op := hOpcode f.raw
  if op = 0x283 then (f.u 32 8, 128)
  else if op = 0x450 then (f.u 40 8, 1344) else if op = 0x810 then (f.u 40 8, 4352)
  else if op = 0x631 then (f.u 40 8, 64) else if op = 0x710 then (f.u 40 8, f.u 60 4)
  else if op = 0x100 ∨ op = 0x101 ∨ op = 0x300 ∨ op = 0x312 ∨ op = 0x318 ∨ op = 0x410 ∨ op = 0x600 ∨ op = 0x621 then
    (f.u 40 8, f.u 48 4)
  else (0, 0)

/-- An inline result of two 32-bit halves. -/
def pack32 (lo hi : Nat) : Nat := lo % 2 ^ 32 + hi % 2 ^ 32 * 2 ^ 32

end Sys2Proof.Machine
end

