-- ==== Sys2Proof/Machine/Tab.lean ====
section
/-!
DEFINITION. Operations of sparse tables. Keys rise strictly; `tset d` keeps the table free of entries equal to the default `d`.
-/
namespace Sys2Proof.Machine
open Sys2Proof

/-- The entry of a key, if there is one. -/
def tfind {α : Type} : Tab α → Nat → Option α
  | [], _ => none
  | (j, v) :: t, k => if j = k then some v else if j < k then tfind t k else none

/-- The value of a key, `d` when there is no entry. -/
def tget {α : Type} (d : α) (t : Tab α) (k : Nat) : α := (tfind t k).getD d

/-- Writes an entry, keeping the keys rising. -/
def tput {α : Type} : Tab α → Nat → α → Tab α
  | [], k, v => [(k, v)]
  | (j, u) :: t, k, v =>
    if j = k then (k, v) :: t else if j < k then (j, u) :: tput t k v else (k, v) :: (j, u) :: t

/-- Removes the entry of a key. (No entry behind it has a key up to it in a table whose keys rise; none would be read.) -/
def tdel {α : Type} : Tab α → Nat → Tab α
  | [], _ => []
  | (j, u) :: t, k => if j = k then t.dropWhile (fun e => decide (e.1 ≤ k)) else if j < k then (j, u) :: tdel t k else (j, u) :: t

/-- Writes a value; writing the default removes the entry. -/
def tset {α : Type} [DecidableEq α] (d : α) (t : Tab α) (k : Nat) (v : α) : Tab α :=
  if v = d then tdel t k else tput t k v

/-- Keys rise strictly from above `lo`. -/
def Tab.risesFrom {α : Type} : Nat → Tab α → Bool
  | _, [] => true
  | lo, (k, _) :: t => decide (lo ≤ k) && Tab.risesFrom (k + 1) t

/-- The canonical form of a table with default `d`. -/
def Tab.wf {α : Type} [DecidableEq α] (d : α) (t : Tab α) : Bool :=
  Tab.risesFrom 0 t && t.all fun e => decide (e.2 ≠ d)

/-- Changes the value of a key. -/
def tmod {α : Type} [DecidableEq α] (d : α) (t : Tab α) (k : Nat) (f : α → α) : Tab α :=
  tset d t k (f (tget d t k))

/-- Changes an entry that exists; nothing where there is none. -/
def tupd {α : Type} (t : Tab α) (k : Nat) (f : α → α) : Tab α :=
  match tfind t k with
  | some v => tput t k (f v)
  | none => t

/-- Keeps the entries whose key satisfies `p`. -/
def tkeep {α : Type} (t : Tab α) (p : Nat → Bool) : Tab α := t.filter fun e => p e.1

/-- Entries of consecutive bytes from key `k`; a byte equal to 0 has none. -/
def byteEnts : Nat → Bytes → Tab Byte
  | _, [] => []
  | k, b :: bs => if b = 0 then byteEnts (k + 1) bs else (k, b) :: byteEnts (k + 1) bs

/-- Writes consecutive bytes from key `k` (a byte equal to 0 leaves no entry). -/
def putBytes (t : Tab Byte) (k : Nat) (bs : Bytes) : Tab Byte :=
  (tkeep t fun j => decide (j < k)) ++ byteEnts k bs ++ tkeep t fun j => decide (k + bs.length ≤ j)

/-- Reads `n` consecutive bytes from key `k` of a table without smaller keys. -/
def readRun : Tab Byte → Nat → Nat → Bytes
  | _, _, 0 => []
  | [], k, n + 1 => 0 :: readRun [] (k + 1) n
  | (j, v) :: t, k, n + 1 => if j = k then v :: readRun t (k + 1) n else 0 :: readRun ((j, v) :: t) (k + 1) n

/-- Reads `n` consecutive bytes from key `k`. -/
def getBytes (t : Tab Byte) (k n : Nat) : Bytes := readRun (t.dropWhile fun e => decide (e.1 < k)) k n

/-- Removes every entry with key in [k, k + n): those bytes read 0. -/
def clearBytes (t : Tab Byte) (k n : Nat) : Tab Byte := tkeep t fun j => decide (j < k) || decide (k + n ≤ j)

/-- The entries with key in [k, k + n), moved to start at `dest`. -/
def shiftRange (t : Tab Byte) (k n dest : Nat) : Tab Byte :=
  (tkeep t fun j => decide (k ≤ j) && decide (j < k + n)).map fun e => (e.1 - k + dest, e.2)

/-- Copies the bytes of [k, k + n) of `src` over [dest, dest + n) of `dst`. -/
def copyRange (src dst : Tab Byte) (k n dest : Nat) : Tab Byte :=
  (tkeep dst fun j => decide (j < dest)) ++ shiftRange src k n dest ++ tkeep dst fun j => decide (dest + n ≤ j)

end Sys2Proof.Machine
end

