-- ==== Sys2Proof/Machine/Regs.lean ====
section
/-!
DEFINITION. The register map (22, with the register tables of every chapter): where each block lies, the width of each register, the
bits it keeps, its reset value, which offsets are counters; the stored registers and the counters with their snapshots.
-/
namespace Sys2Proof.Machine
open Sys2Proof

/-- The register blocks of BAR0 (Table 22-2). -/
inductive Blk where
  | none | glob | modu | err | tier | cel | text | hl
  | hp (i : Nat) | sp (i : Nat) | mortar (i : Nat) | kv (i : Nat) | ch (i : Nat) | bp (i : Nat) | stk (i : Nat)
  | brk (i : Nat) | wng (i : Nat)
deriving DecidableEq, Repr

/-- The block a BAR0 offset lies in, and the offset within the block (Table 22-2). -/
def locate (off : Nat) : Blk × Nat :=
  let k := off / 4096
  let o := off % 4096
  if k = 0 then (.glob, o) else if k = 1 then (.modu, o) else if k = 2 then (.err, o) else if k = 3 then (.tier, o)
  else if k = 4 then (.cel, o) else if k = 5 then (.text, o) else if k = 6 then (.hl, o) else if k < 8 then (.none, 0)
  else if k < 16 then (.hp (k - 8), o) else if k < 24 then (.sp (k - 16), o) else if k < 28 then (.mortar (k - 24), o)
  else if k < 32 then (.kv (k - 28), o) else if k < 64 then (.ch (k - 32), o)
  else if k < 0xA0 then (.bp ((k - 0x40) / 16), off % 65536) else if k < 0x100 then (.none, 0)
  else if k < 0x1C0 then (.stk ((k - 0x100) / 16), off % 65536) else if k < 0x200 then (.none, 0)
  else if k < 0x300 then (.brk (k - 0x200), o) else if k < 0x400 then (.none, 0)
  else if k < 0x800 then (.wng ((k - 0x400) / 64), off % 262144) else (.none, 0)

/-! Offsets of registers -/

def hpReg (p o : Nat) : Nat := 0x8000 + p * 0x1000 + o
def spReg (p o : Nat) : Nat := 0x10000 + p * 0x1000 + o
def mortarReg (h o : Nat) : Nat := 0x18000 + h * 0x1000 + o
def kvReg (h o : Nat) : Nat := 0x1C000 + h * 0x1000 + o
def chReg (c o : Nat) : Nat := 0x20000 + c * 0x1000 + o
def bpReg (p o : Nat) : Nat := 0x40000 + p * 0x10000 + o
def stkReg (i o : Nat) : Nat := 0x100000 + i * 0x10000 + o
def brkReg (b o : Nat) : Nat := 0x200000 + b * 0x1000 + o
def wngReg (w o : Nat) : Nat := 0x400000 + w * 0x40000 + o
def sqReg (w r o : Nat) : Nat := wngReg w (0x1000 + 0x20 * r + o)
def cqReg (w r o : Nat) : Nat := wngReg w (0x1800 + 0x20 * r + o)

/-- The compute stacks F0, F3, F6 and F9 (R293). -/
def isCompute (i : Nat) : Bool := decide (i < 12) && decide (i % 3 = 0)

/-- A register of the map: its width in bits, the bits a write can change, its reset value. -/
structure RegInfo where
  width : Nat
  mask : Nat
  reset : Nat := 0
deriving DecidableEq, Repr

/-- A register that keeps no written bits: its value is a view of other state. -/
def roReg (width : Nat) : RegInfo := ⟨width, 0, 0⟩

/-- Counters of each block, by offset in the block (Table 04-12: 64 bits, live and snapshot). -/
def isCounter : Blk → Nat → Bool
  | .glob, o => o == 0xC0 || o == 0xC8 || o == 0xD0
  | .modu, o => o == 0x40 || o == 0x48 || o == 0x50
  | .err, o => o % 8 == 0 && decide (0x40 ≤ o) && decide (o ≤ 0x78)
  | .tier, o => o % 8 == 0 && decide (0x80 ≤ o) && decide (o ≤ 0xA8)
  | .cel, o => o % 8 == 0 && decide (0x40 ≤ o) && decide (o ≤ 0x78)
  | .text, o => o % 8 == 0 && decide (0x40 ≤ o) && decide (o ≤ 0x78)
  | .hl, o => o % 8 == 0 && decide (0x40 ≤ o) && decide (o ≤ 0x50)
  | .hp _, o => o % 8 == 0 && decide (0x40 ≤ o) && decide (o ≤ 0x80)
  | .sp _, o => o % 8 == 0 && decide (0x40 ≤ o) && decide (o ≤ 0x140)
  | .mortar _, o => o % 8 == 0 && decide (0x40 ≤ o) && decide (o ≤ 0x80)
  | .kv _, o => o % 8 == 0 && decide (0x40 ≤ o) && decide (o ≤ 0x78)
  | .ch _, o => o % 8 == 0 && decide (0x40 ≤ o) && decide (o ≤ 0x68)
  | .bp _, o => o % 8 == 0 && decide (0x40 ≤ o) && decide (o ≤ 0xA0)
  | .stk i, o =>
    (o == 0x40 || o == 0x48 || o == 0x50)
      || (isCompute i && o % 8 == 0 && decide (0x1040 ≤ o) && decide (o ≤ 0x10B8))
  | .brk _, o => o % 8 == 0 && decide (0x40 ≤ o) && decide (o ≤ 0x80)
  | .wng _, o =>
    o % 8 == 0 &&
      ((decide (0x40 ≤ o) && decide (o ≤ 0x78)) || (decide (0x2100 ≤ o) && decide (o ≤ 0x2188))
        || (decide (0x2340 ≤ o) && decide (o ≤ 0x2380))
        || (decide (0x2400 ≤ o) && decide (o < 0x2800) && decide (0x18 ≤ o % 0x40) && decide (o % 0x40 ≤ 0x28))
        || (decide (0x2840 ≤ o) && decide (o ≤ 0x2858)) || o == 0x3820)
  | .none, _ => false

/-- Reset value of `SQ_CFG` (Table 16-10): SIZE_LOG2 4, TC 7, ORDER 1, DEF_TIMEOUT_US 1,000,000. -/
def sqCfgReset : Nat := 4 + 7 * 2 ^ 5 + 2 ^ 14 + 1000000 * 2 ^ 32

/-- The register that starts at an offset of a block, where the block's table lists one. -/
def regInfo : Blk → Nat → Option RegInfo
  | .glob, o =>
    if o = 0x10 ∨ o = 0x20 ∨ o = 0x28 ∨ o = 0x40 ∨ o = 0x88 ∨ o = 0xA0 ∨ o = 0xB0 then some (roReg 32)
    else if o = 0 ∨ o = 8 ∨ o = 0x30 ∨ o = 0x38 ∨ o = 0x90 ∨ o = 0x98 ∨ o = 0xA8 then some (roReg 64)
    else if o = 0x18 then some ⟨64, 0x0F7FFFFFFFFF0001, 0⟩
    else if o = 0x80 then some ⟨64, 0x3F3FFFFFFF, 1000000⟩
    else if o % 8 = 0 ∧ 0x100 ≤ o ∧ o ≤ 0x118 then some (roReg 64)
    else if isCounter .glob o then some (roReg 64) else none
  | .modu, o =>
    if o = 0 then some (roReg 32) else if o = 8 ∨ o = 0x10 then some (roReg 64)
    else if isCounter .modu o then some (roReg 64) else none
  | .err, o =>
    if o = 0 ∨ o = 8 ∨ o = 0x10 then some (roReg 32)
    else if o = 0x18 then some ⟨32, 0xFFFF, 10000⟩
    else if o = 0x20 then some ⟨32, 0xF03, 0⟩
    else if o = 0x28 then some ⟨64, 0xFFFFFFFFFFFC0, 0⟩
    else if isCounter .err o then some (roReg 64) else none
  | .tier, o =>
    if o = 0 then some ⟨32, 0xFFFFFF0F, 4 * 2 ^ 8 + 64 * 2 ^ 16⟩
    else if o = 8 then some (roReg 32)
    else if o % 8 = 0 ∧ 0x10 ≤ o ∧ o ≤ 0x50 then some (roReg 64)
    else if isCounter .tier o then some (roReg 64) else none
  | .cel, o =>
    if o = 0 then some (roReg 32) else if o = 8 then some ⟨32, 0xF03FF, 100 + 12 * 2 ^ 16⟩
    else if o = 0x10 then some (roReg 64)
    else if isCounter .cel o then some (roReg 64) else none
  | .text, o =>
    if o = 0 ∨ o = 8 then some (roReg 32) else if isCounter .text o then some (roReg 64) else none
  | .hl, o =>
    if o = 0 ∨ o = 8 then some (roReg 32) else if o = 0x10 then some (roReg 64)
    else if isCounter .hl o then some (roReg 64) else none
  | .hp i, o =>
    if o = 0 ∨ o = 8 then some (roReg 32) else if o = 0x10 then some ⟨32, 0xFFFF, 0⟩
    else if o = 0x18 then some ⟨32, 0x7FF, 0⟩ else if o = 0x20 then some ⟨32, 0x3FF, 100⟩
    else if 0x100 ≤ o ∧ o < 0x200 ∧ o % 16 = 0 then some ⟨64, 0xFFFFFFFFC0F1F, 0⟩
    else if 0x100 ≤ o ∧ o < 0x200 ∧ o % 16 = 8 then some ⟨64, 0x7FFFFFFFFFFFFFF, 0⟩
    else if isCounter (.hp i) o then some (roReg 64) else none
  | .sp i, o => if o = 0 ∨ o = 8 then some (roReg 32) else if isCounter (.sp i) o then some (roReg 64) else none
  | .mortar i, o =>
    if o = 0 then some ⟨32, 0x7FF0001, 128 * 2 ^ 16⟩ else if o = 8 then some (roReg 64)
    else if isCounter (.mortar i) o then some (roReg 64) else none
  | .kv i, o =>
    if o = 0 then some (roReg 32) else if o = 8 then some (roReg 64)
    else if isCounter (.kv i) o then some (roReg 64) else none
  | .ch i, o => if o = 0 ∨ o = 8 then some (roReg 32) else if isCounter (.ch i) o then some (roReg 64) else none
  | .bp i, o =>
    if o = 0 then some (roReg 32) else if o = 8 then some (roReg 64)
    else if o = 0x10 then some ⟨64, 0xFFFFFF03, 2 ^ 8 + 1000 * 2 ^ 16⟩
    else if o = 0x18 then some ⟨64, 0x3FFFFF, 0⟩ else if o = 0x20 then some ⟨64, 2 ^ 64 - 1, 0⟩
    else if o = 0x28 then some ⟨32, 0xFFFF, 0⟩
    else if o % 8 = 0 ∧ 0x100 ≤ o ∧ o ≤ 0x118 then some ⟨64, 2 ^ 64 - 1, 0⟩
    else if o % 8 = 0 ∧ 0x120 ≤ o ∧ o ≤ 0x138 then some (roReg 64)
    else if o % 8 = 0 ∧ 0x800 ≤ o ∧ o < 0xA40 then some (roReg 64)
    else if isCounter (.bp i) o then some (roReg 64) else none
  | .stk i, o =>
    if o = 0 ∨ o = 8 then some (roReg 32)
    else if isCounter (.stk i) o then some (roReg 64)
    else if isCompute i then
      if o = 0x1000 then some ⟨32, 0x7FF, 512⟩
      else if o = 0x1008 ∨ o = 0x1018 ∨ o = 0x1020 ∨ o = 0x1028 then some (roReg 32)
      else if o = 0x1010 then some (roReg 64) else none
    else none
  | .brk i, o =>
    if o = 0 ∨ o = 0x18 then some (roReg 32) else if o = 8 ∨ o = 0x10 then some (roReg 64)
    else if o % 8 = 0 ∧ 0x200 ≤ o ∧ o < 0x400 then some (roReg 64)
    else if isCounter (.brk i) o then some (roReg 64) else none
  | .wng i, o =>
    if o = 0 ∨ o = 8 ∨ o = 0x10 then some (roReg 32)
    else if 0x1000 ≤ o ∧ o < 0x2000 then
      if o % 0x20 = 0 then some ⟨64, 2 ^ 64 - 2 ^ 12, 0⟩
      else if o % 0x20 = 8 then
        if o < 0x1800 then some ⟨64, 0x7FFFFFF7FFF7FFF, sqCfgReset⟩ else some ⟨64, 0x7FF031F, 4⟩
      else if o % 0x20 = 0x10 then some (roReg 32)
      else if o % 0x20 = 0x18 then some (roReg 64) else none
    else if o = 0x2000 ∨ o = 0x2300 ∨ o = 0x2310 ∨ o = 0x2800 then some (roReg 32)
    else if o = 0x2008 then some ⟨64, 0xFFFFFFF003FFFFF, 0⟩
    else if o = 0x2010 then some ⟨64, 0xFF0FFFFF000FFFFF, 0⟩
    else if o = 0x2018 ∨ o = 0x2200 then some (roReg 64)
    else if o = 0x2308 then some ⟨32, 0xFFFFFF, 8 * 2 ^ 16⟩
    else if 0x2400 ≤ o ∧ o < 0x2800 ∧ o % 0x40 = 0 then some ⟨64, 0xFFFFFF00FFFFFF, 0⟩
    else if 0x2400 ≤ o ∧ o < 0x2800 ∧ o % 0x40 = 8 then some ⟨64, 0xFFFFF000FFFFF, 0⟩
    else if 0x2400 ≤ o ∧ o < 0x2800 ∧ o % 0x40 = 0x10 then some ⟨32, 0xFF07, 64 * 2 ^ 8⟩
    else if o = 0x2808 then some ⟨32, 0x3FF, 960⟩
    else if o % 8 = 0 ∧ 0x2820 ≤ o ∧ o ≤ 0x2838 then some ⟨64, 2 ^ 64 - 1, 0⟩
    else if o % 8 = 0 ∧ 0x3000 ≤ o ∧ o ≤ 0x30F8 then some ⟨64, 0xFF0FFFFFFF, 0⟩
    else if o = 0x3800 then some ⟨64, 2 ^ 64 - 2 ^ 12, 0⟩
    else if o = 0x3808 then some ⟨32, 0x73F, 6⟩
    else if o = 0x3810 then some ⟨32, 0x1FFF, 0⟩
    else if o = 0x3818 then some (roReg 32)
    else if isCounter (.wng i) o then some (roReg 64) else none
  | .none, _ => none

/-- The register that starts at a BAR0 offset. -/
def regAt (off : Nat) : Option RegInfo := regInfo (locate off).1 (locate off).2

/-- Bits a register keeps; 0 where no register starts. -/
def regMask (off : Nat) : Nat := ((regAt off).map RegInfo.mask).getD 0

/-- Reset value of a stored register. -/
def regReset (off : Nat) : Nat := ((regAt off).map RegInfo.reset).getD 0

/-- Stored value of a register. -/
def State.reg (s : State) (off : Nat) : Nat := tget (regReset off) s.regs off

/-- Stores the bits that a register keeps (R10: reserved bits stay 0). -/
def State.setReg (s : State) (off v : Nat) : State :=
  { s with regs := tset (regReset off) s.regs off (v &&& regMask off) }

/-- The canonical form of the stored registers: offsets rise, no entry equals its reset value, reserved bits are 0 (R10). -/
def regsWf (t : Tab Nat) : Bool :=
  Tab.risesFrom 0 t && t.all fun e => decide (e.2 ≠ regReset e.1) && decide (e.2 &&& regMask e.1 = e.2)

/-! Counters (R104) -/

/-- A live counter. -/
def State.counter (s : State) (off : Nat) : Nat := tget 0 s.live off

/-- Adds to a live counter, which saturates at 64 bits (Table 04-12). -/
def State.bumpBy (s : State) (off n : Nat) : State :=
  { s with live := tset 0 s.live off (min (tget 0 s.live off + n) (2 ^ 64 - 1)) }

/-- Adds 1 to a live counter. -/
def State.bump (s : State) (off : Nat) : State := s.bumpBy off 1

/-- Raises a counter that holds a largest value (R432). -/
def State.bumpMax (s : State) (off n : Nat) : State :=
  { s with live := tset 0 s.live off (max (tget 0 s.live off) n) }

/-- Whether a control register's SNAP and CLEAR act on a counter: the control register's block and offset, the counter's block
and offset (R104, R286, R339, R414, R432, R508). -/
def ctrlCovers (cb : Blk) (co : Nat) (b : Blk) (o : Nat) : Bool :=
  decide (cb = b) && isCounter b o &&
    match b with
    | .wng _ =>
      if co = 0x10 then decide (o ≤ 0x78) || o == 0x3820
      else if co = 0x2000 then decide (0x2100 ≤ o) && decide (o ≤ 0x2188)
      else if co = 0x2300 then decide (0x2340 ≤ o) && decide (o ≤ 0x2380)
      else if co = 0x2800 then decide (0x2400 ≤ o) && decide (o ≤ 0x2858)
      else false
    | .stk _ => if co = 0 then decide (o < 0x1000) else if co = 0x1008 then decide (0x1000 ≤ o) else false
    | .glob => co == 0xB0
    | .tier => co == 8
    | _ => co == 0

/-- SNAP and CLEAR bits of the control register at an offset of a block, where it is one. -/
def snapBits (b : Blk) (o : Nat) : Option (Nat × Nat) :=
  match b with
  | .none => none
  | .glob => if o = 0xB0 then some (0, 1) else none
  | .tier => if o = 8 then some (0, 1) else none
  | .mortar _ => if o = 0 then some (1, 2) else none
  | .hp _ => if o = 0 then some (2, 3) else none
  | .bp _ => if o = 0 then some (2, 3) else none
  | .wng _ => if o = 0x10 ∨ o = 0x2000 ∨ o = 0x2300 ∨ o = 0x2800 then some (0, 1) else none
  | .stk i => if o = 0 ∨ (o = 0x1008 ∧ isCompute i = true) then some (0, 1) else none
  | _ => if o = 0 then some (0, 1) else none

/-- Whether the control register at BAR0 offset `off` covers the counter at `k`. -/
def coversAt (off k : Nat) : Bool := ctrlCovers (locate off).1 (locate off).2 (locate k).1 (locate k).2

/-- Every live counter the control register covers becomes its snapshot (R104). -/
def State.snapAll (s : State) (off : Nat) : State :=
  let others := tkeep s.snap fun k => !(coversAt off k)
  let taken := tkeep s.live fun k => coversAt off k
  { s with snap := taken.foldl (fun t e => tput t e.1 e.2) others }

/-- Every live counter the control register covers becomes 0 (R104). -/
def State.clearAll (s : State) (off : Nat) : State := { s with live := tkeep s.live fun k => !(coversAt off k) }

/-! Fields of stored registers that the units use -/

def State.sqCfg (s : State) (w r : Nat) : Nat := s.reg (sqReg w r 8)
def State.cqCfg (s : State) (w r : Nat) : Nat := s.reg (cqReg w r 8)
def State.cqBase (s : State) (w r : Nat) : Nat := s.reg (cqReg w r 0)

def sqSizeLog (c : Nat) : Nat := bits c 4 0
def sqTc (c : Nat) : Nat := bits c 7 5
def sqCq (c : Nat) : Nat := bits c 13 8
def sqOrder (c : Nat) : Bool := bit c 14
def sqMaxInflight (c : Nat) : Nat := bits c 30 16
def sqDefTimeout (c : Nat) : Nat := bits c 55 32
def sqPort (c : Nat) : Nat := bits c 58 56
def cqIrq (c : Nat) : Nat := bits c 9 8
def cqCoalesce (c : Nat) : Nat := bits c 23 16
def cqPort (c : Nat) : Nat := bits c 26 24

/-- Wings that a host port may use (R366). -/
def State.granted (s : State) (port wing : Nat) : Bool := bit (s.reg (hpReg port 0x10)) wing

end Sys2Proof.Machine
end

