-- ==== Sys2Proof/Machine/Ops.lean ====
section
/-!
DEFINITION. Shared operations: outputs, messages, module events and error records, descriptors in flight and the fixing of their
completions, enable states, scheduled events, free values.
-/
namespace Sys2Proof.Machine
open Sys2Proof

/-! ## Outputs -/

/-- Appends an output. (log 2, DESIGN CHOICE) -/
def State.emit (s : State) (o : Out) : State := { s with out := s.out ++ [o] }

def State.port (s : State) (p : Nat) : Port := tget {} s.ports p
def State.bp (s : State) (p : Nat) : BpSt := tget {} s.bps p
def State.setPort (s : State) (p : Nat) (x : Port) : State := { s with ports := tset {} s.ports p x }
def State.setBp (s : State) (p : Nat) (x : BpSt) : State := { s with bps := tset {} s.bps p x }

/-- Writes bytes to host memory through a port; a FAILED port discards them (R389). -/
def State.hostWrite (s : State) (p addr : Nat) (bytes : Bytes) : State :=
  if bytes = [] ∨ (s.port p).st = .failed then s else s.emit (.hostWrite p addr bytes)

/-- Leaves a result area unspecified (R101, R407, R409, R498). -/
def State.hostUnspecified (s : State) (p addr len : Nat) : State :=
  if len = 0 ∨ (s.port p).st = .failed then s else s.emit (.unspecified p addr len)

/-- The wing an MSI-X entry belongs to (R384). -/
def msixWing (e : Nat) : Nat := if e < 1024 then e / 64 else e - 1024

/-- Whether an MSI-X entry's mask bit is set (R406, R521): bit 0 of its fourth word, 1 until the table is written (log 13, PRESUMED). -/
def State.msixMasked (s : State) (p e : Nat) : Bool := bit (tget 1 s.msixTab (p * 65536 + 16 * e + 12)) 0

/-- Sends an MSI-X message, or keeps it pending while its entry is masked; none for a wing not granted to the port (R384). -/
def State.sendMsix (s : State) (p e : Nat) : State :=
  if (s.port p).st = .failed ∨ s.granted p (msixWing e) = false then s
  else if s.msixMasked p e then
    { s with msixPend := if s.msixPend.contains (p * 2048 + e) then s.msixPend else s.msixPend ++ [p * 2048 + e] }
  else s.emit (.msix p e)

/-! ## Module events and error records (21) -/

/-- The event log a module event goes to (Table 21-5): 0 Informational, 1 Warning, 2 Failure, 3 Fatal. -/
def eventLog (code : Nat) : Nat :=
  if code = 0x0B then 0
  else if code = 0x03 ∨ code = 0x05 ∨ code = 0x06 ∨ code = 0x08 ∨ code = 0x0C then 2
  else if code = 0x0D then 3 else 1

/-- Puts a record into an event log of 256 records, or counts it as overflow (R503). -/
def State.logRecord (s : State) (ld log : Nat) (r : EvRec) : State :=
  let k := ld * 4 + log
  let l := tget [] s.logs k
  if l.length < 256 then { s with logs := tset [] s.logs k (l ++ [r]) }
  else { s with logLost := tset 0 s.logLost k (tget 0 s.logLost k + 1) }

/-- Logs a module event in the logs of LD 0 (R503). (log 106, DEDUCED) -/
def State.event (s : State) (code unit : Nat) : State := s.logRecord 0 (eventLog code) { code, unit }

/-- Whether ALERT# is asserted (R503, Table 15-5). -/
def State.alert (s : State) : Bool := (tget [] s.logs 1 ≠ []) || (tget [] s.logs 2 ≠ []) || (tget [] s.logs 3 ≠ [])

/-- `BEAT_NUM` as it reads (R39). -/
def State.beatNum (s : State) : Nat := s.beat.number.getD (2 ^ 64 - 1)

def State.errCfg (s : State) (w : Nat) : Nat := s.reg (wngReg w 0x3808)

/-- Bytes of an error record (Table 21-3). -/
def errRecordBytes (code cls phase seq beat cyc addr tag sq kind unit lost : Nat) (detail : Bytes) : Bytes :=
  natLe code 2 ++ natLe cls 1 ++ natLe (phase * 128) 1 ++ natLe seq 4 ++ natLe beat 8 ++ natLe cyc 8 ++ natLe addr 8
    ++ natLe tag 4 ++ natLe sq 1 ++ natLe kind 1 ++ natLe unit 2 ++ natLe (sat lost 16) 2 ++ natLe 0 2 ++ slice detail 0 20

/-- DETAIL of codes 1 and 2 (R502). -/
def Note.detail (n : Note) : Bytes := natLe n.handle 4 ++ natLe n.part 1 ++ natLe 0 3 ++ natLe n.node 4 ++ natLe n.vid 6

/-- Writes an error record to the wing's error ring, or drops and counts it (R500, R501). -/
def State.errRecord (s : State) (w code cls cyc addr tag sq kind unit : Nat) (detail : Bytes) : State :=
  let cfg := s.errCfg w
  if bit cfg 4 = false then s
  else
    let e := tget {} s.errRings w
    let lg := bits cfg 3 0
    let size := 2 ^ lg
    let head := s.reg (wngReg w 0x3810)
    let p := bits cfg 10 8
    if (e.tail + 2 * size - head % (2 * size)) % (2 * size) ≥ size then
      { s with errRings := tset {} s.errRings w { e with seq := (e.seq + 1) % 2 ^ 32, lost := e.lost + 1 } }.bump (wngReg w 0x3820)
    else
      let ph := if e.tail / size % 2 = 0 then 1 else 0
      let rec_ := errRecordBytes code cls ph e.seq s.beatNum cyc addr tag sq kind unit e.lost detail
      let at_ := s.reg (wngReg w 0x3800) + 64 * (e.tail % size)
      let s1 := { s with errRings := tset {} s.errRings w { tail := (e.tail + 1) % (2 * size), seq := (e.seq + 1) % 2 ^ 32, lost := 0 } }
      let s2 := if (s1.port p).st = .failed then s1 else s1.emit (.record p at_ rec_)
      if bit cfg 5 then s2.sendMsix p (1024 + w) else s2

/-- An error record about no descriptor. -/
def State.wingRecord (s : State) (w code cls addr kind unit : Nat) (detail : Bytes) : State :=
  s.errRecord w code cls s.cyc addr 0xFFFFFFFF 0xFF kind unit detail

/-! ## Free values -/

/-- The next free value (log 3, DESIGN CHOICE). -/
def State.free (s : State) : Nat := Config.freeNat s.fresh

/-- Moves to another free value. (log 3, DESIGN CHOICE) -/
def State.useFree (s : State) : State := { s with fresh := s.fresh + 1 }

/-- `BEAT_POS` (R29). -/
def State.beatPos (s : State) : Nat := min (s.cyc - s.beat.posBase) (2 ^ 32 - 1)

/-- An admission and a completion in a wing's beat (Table 18-8). -/
def WingBeat.admitted (pos : Nat) (x : WingBeat) : WingBeat := { x with first := x.first <|> some pos }
def WingBeat.completed (pos : Nat) (x : WingBeat) : WingBeat := { x with done := x.done + 1, last := some pos }

def State.modWingBeat (s : State) (w : Nat) (g : WingBeat → WingBeat) : State := { s with wingNow := tmod {} s.wingNow w g }

/-! ## Rings and descriptors in flight (16) -/

def ringKey (w r : Nat) : Nat := w * 64 + r
def State.wingSt (s : State) (w : Nat) : EnState := tget .disabled s.wings w
def State.sq (s : State) (w r : Nat) : SqSt := tget {} s.sqs (ringKey w r)
def State.cq (s : State) (w r : Nat) : CqSt := tget {} s.cqs (ringKey w r)
def State.setSq (s : State) (w r : Nat) (x : SqSt) : State := { s with sqs := tset {} s.sqs (ringKey w r) x }
def State.setCq (s : State) (w r : Nat) (x : CqSt) : State := { s with cqs := tset {} s.cqs (ringKey w r) x }

def State.flight? (s : State) (fid : Nat) : Option Flight := s.flights.find? fun f => f.fid == fid

/-- Changes one descriptor in flight. -/
def State.modFlight (s : State) (fid : Nat) (g : Flight → Flight) : State :=
  { s with flights := s.flights.map fun f => if f.fid = fid then g f else f }

/-- The descriptors of a submission ring in flight, in SEQ order. -/
def State.ringFlights (s : State) (w q : Nat) : List Flight := s.flights.filter fun f => f.wing == w && f.sq == q

/-- The descriptors of a wing in flight. -/
def State.wingFlights (s : State) (w : Nat) : List Flight := s.flights.filter fun f => f.wing == w

/-- Host port of a descriptor: that of its submission ring (R388). -/
def State.flightPort (s : State) (f : Flight) : Nat := sqPort (s.sqCfg f.wing f.sq)

/-- Completion ring of a descriptor. -/
def State.flightCq (s : State) (f : Flight) : Nat := sqCq (s.sqCfg f.wing f.sq)

/-- Makes a fixed completion arrive at its completion ring (R405). -/
def State.makeDue (s : State) (fid : Nat) : State :=
  { (s.modFlight fid fun f => { f with due := f.due <|> some s.stamp }) with stamp := s.stamp + 1 }

/-- The fixed descriptors of a ring whose entries may be sent now and have not arrived yet (R405, R410): on an ORDER 1 ring only
the earliest; while ABORTED entries of an abort are outstanding, only those. -/
def State.nowDue (s : State) (w q : Nat) : List Nat :=
  let fl := s.ringFlights w q
  let waiting := (s.sq w q).recov.flatten
  if sqOrder (s.sqCfg w q) then
    match fl with
    | f :: _ => if f.phase = .done ∧ f.due = none then [f.fid] else []
    | [] => []
  else
    (fl.filter fun f => f.phase == .done && f.due == none && (waiting.isEmpty || waiting.contains f.fid)).map Flight.fid

/-- Lets entries of a ring arrive at the completion ring, in SEQ order. -/
def State.refreshDue (s : State) (w q : Nat) : State := (s.nowDue w q).foldl State.makeDue s

/-- Counters that a fixed completion moves (Tables 11-6, 16-7). -/
def State.countCpl (s : State) (f : Flight) (c : Cpl) : State :=
  let o := fun x => wngReg f.wing x
  let s := if c.status = .invalid then s.bump (o 0x50) else s
  let s := if c.status = .timeout then s.bump (o 0x58) else s
  let s := if c.status = .aborted then s.bump (o 0x60) else s
  if bit c.flags 1 then s.bump (o 0x2180) else s

/-- Counts a bound-eligible completion that is written now (Table 17-6). -/
def State.countBound (s : State) (f : Flight) : State :=
  match f.bound with
  | none => s
  | some b =>
    let late := s.cyc - f.dbCyc
    let s := if late > b then s.bump (wngReg f.wing 0x2850) else s
    s.bumpMax (wngReg f.wing 0x2858) late

/-! ## Bank units of the compute stacks (R313, R314, R316) -/

/-- Cycles of a slice at most, of one refresh, and between refreshes that fall due. -/
def sliceCyc : Nat := 2700
def refreshCyc : Nat := 390
def State.refreshPeriod (s : State) (stack : Nat) : Nat := if s.power.fastRefresh.contains (16 + stack) then 2925 else 5850

/-- Runs n refreshes of a bank unit: they take its time first, and leave its debt. -/
def State.runRefresh (s : State) (key n : Nat) : State :=
  if n = 0 then s
  else
    let t := { s with
      debt := tset 0 s.debt key (tget 0 s.debt key - n)
      refreshTill := tset 0 s.refreshTill key (max s.cyc (tget 0 s.refreshTill key) + refreshCyc * n) }
    t.bumpBy (stkReg (3 * (key / 64)) 0x10A8) n

/-- The part that runs next: of the highest class, the one that has waited longest. -/
def State.nextPart (s : State) (l : List Nat) : Option Nat :=
  let c := fun x => match s.stkOps.find? fun o => o.id == x with
    | some o => o.cls
    | none => 8
  l.foldl (fun best id => match best with
    | some b => if c id < c b then some id else some b
    | none => some id) none

/-- Starts the next part of a bank unit, of parts that wait, for a slice. -/
def State.startSlice (s : State) (key : Nat) (l : List Nat) : State :=
  match s.nextPart l with
  | some id => { s with
      unitQ := tset [] s.unitQ key (id :: l.filter fun x => x != id)
      sliceEnd := tset 0 s.sliceEnd key (max s.cyc (tget 0 s.refreshTill key) + sliceCyc) }
  | none => { s with unitQ := tset [] s.unitQ key [], sliceEnd := tdel s.sliceEnd key }

/-- The end of a slice (R314, R316): one owed refresh runs, all of them when no part waits; then the part whose turn it is. -/
def State.endSlice (s : State) (key : Nat) (l : List Nat) : State :=
  let owed := tget 0 s.debt key
  (s.runRefresh key (if l.isEmpty then owed else min owed 1)).startSlice key l

/-- Takes operations out of the stacks: a bank unit whose running part goes ends its slice. -/
def State.dropOps (s : State) (gone : StkOp → Bool) : State :=
  let ids := (s.stkOps.filter gone).map StkOp.id
  let t := { s with stkOps := s.stkOps.filter fun o => !gone o }
  (t.unitQ.filter fun e => e.2.any ids.contains).foldl (fun s e =>
    let l := e.2.filter fun x => !(ids.contains x)
    if (e.2.take 1).any ids.contains then s.endSlice e.1 l else { s with unitQ := tset [] s.unitQ e.1 l }) t

/-! ## The end of a descriptor -/

/-- Takes a descriptor's unfinished work out of every unit: it stops acting and its slots are released (R87, R404, R407, R409). -/
def State.dropWork (s : State) (fid : Nat) : State :=
  { s.dropOps fun o => o.fid == some fid with
    reqs := s.reqs.filter fun r => r.fid != fid
    colls := s.colls.map fun e => (e.1, { e.2 with stage := e.2.stage.filter fun j => j.fid != fid })
    sessions := s.sessions.map fun e => (e.1, { e.2 with waits := e.2.waits.filter fun x => x != fid })
    progs := s.progs.map fun e => (e.1, { e.2 with
      waits := e.2.waits.filter fun x => x != fid
      startFid := e.2.startFid.filter fun x => x != fid })
    transit := s.transit.filter fun t => t.fid != some fid
    accesses := s.accesses.filter fun a => a.fid != some fid
    pins := s.pins.filter fun p => p.fid != fid
    embJobs := s.embJobs.filter fun j => j.fid != fid
    prefRows := s.prefRows.filter fun p => !(s.embJobs.any fun j => j.fid == fid && j.gather && j.key == p.key && decide (p.turn < j.turn))
    embs := s.embs.map fun e => (e.1, { e.2 with migs := e.2.migs.filter fun m => m.fid != fid || m.switched })
    cellar := { s.cellar with syncs := s.cellar.syncs.filter fun x => x.1 != fid } }

/-- The pipelines whose slots a request holds. -/
def Req.pipes (r : Req) : List Nat :=
  match r.searches with
  | x :: _ => if r.waiting then [] else x.shards.map ShardQ.pipe
  | [] => []

/-- The pipeline that hosts Join: the lowest-numbered one of the request. -/
def Req.host (r : Req) : Nat := r.pipes.foldl min 7

/-- Emit writes the completion of a request that holds slots, whatever its status, in the pipeline that hosts its Join (Table 04-9).
(log 40, DEDUCED) -/
def State.countEmit (s : State) (fid : Nat) : State :=
  match s.reqs.find? fun r => r.fid == fid && !r.waiting with
  | some r => s.bump (spReg r.host 0xB8)
  | none => s

/-- Fixes a descriptor's completion (R404); nothing changes one that is fixed. The result area of an admitted descriptor that does
not complete with results is unspecified (R101, R407, R409, R498). (log 98, DEDUCED) -/
def State.fix (s : State) (fid : Nat) (c : Cpl) : State :=
  match s.flight? fid with
  | none => s
  | some f =>
    if f.phase = .done then s
    else
      let c := f.finalCpl c
      let s := (s.countEmit fid).dropWork fid
      let s := if f.phase = .active ∧ c.status.zeroCount then
        s.hostUnspecified (s.flightPort f) f.resultArea.1 f.resultArea.2 else s
      let s := s.modFlight fid fun f =>
        { f with phase := .done, cpl := some c, sqHead := (s.sq f.wing f.sq).head }
      ((s.modWingBeat f.wing (WingBeat.completed s.beatPos)).countCpl f c).refreshDue f.wing f.sq

/-- Fixes a completion by status alone. (log 41, DEDUCED) -/
def State.fixSt (s : State) (fid : Nat) (st : Status) : State := s.fix fid { status := st }

/-- Fixes a completion with OK, a count and an inline result. -/
def State.fixOk (s : State) (fid count result : Nat) : State := s.fix fid { count, result }

/-- Free bytes: nothing constrains them (log 3, DESIGN CHOICE). (log 57, DEDUCED) -/
def State.freeBytes (s : State) (n : Nat) : Bytes := (List.range n).map fun i => BitVec.ofNat 8 (Config.freeNat (s.fresh + i))

/-- Start-up phases by code (Table 22-11). -/
def phaseImage : Nat := 2
def phaseFloor : Nat := 3
def phaseBank : Nat := 4
def phaseMount : Nat := 5
def phaseReady : Nat := 6

/-- Admission (R399): all checks have passed; the timeout starts. -/
def State.admitNow (s : State) (fid : Nat) : State :=
  let s := match s.flight? fid with
    | some f => s.modWingBeat f.wing (WingBeat.admitted s.beatPos)
    | none => s
  s.modFlight fid fun f => { f with phase := .active, admitCyc := some s.cyc }

/-- Sets POISON_SEEN and keeps the first poisoned line met (R498, R502). -/
def State.poisonSeen (s : State) (fid : Nat) (n : Note) : State :=
  s.modFlight fid fun f => { f with poisonSeen := true, note := f.note <|> some { n with cyc := s.cyc } }

/-- Notes the first poisoned line or failed unit of a descriptor (R502). -/
def State.noteAt (s : State) (fid : Nat) (n : Note) : State :=
  s.modFlight fid fun f => { f with note := f.note <|> some { n with cyc := s.cyc } }

/-- A descriptor that is ready for its opcode's checks and carries that opcode (R399). (log 34, DESIGN CHOICE) -/
def State.ready? (s : State) (fid op : Nat) : Option Flight :=
  match s.flight? fid with
  | some f => if f.phase = .ready ∧ hOpcode f.raw = op then some f else none
  | none => none

/-- A descriptor that is admitted and carries an opcode. (log 34, DESIGN CHOICE) -/
def State.active? (s : State) (fid op : Nat) : Option Flight :=
  match s.flight? fid with
  | some f => if f.phase = .active ∧ hOpcode f.raw = op then some f else none
  | none => none

/-- The Annex range that a TIER_ALLOC which is stopped still awaits goes with it (R409); a grant that comes later is returned.
(log 67, DEDUCED) -/
def State.dropClaim (s : State) (fid : Nat) : State :=
  { s with ranges := s.ranges.filter fun r => !(r.tier == 3 && r.fid == some fid) }

/-- Aborts descriptors in one cycle (R408): each whose completion is not fixed completes with ABORTED, in SEQ order. -/
def State.abortFlights (s : State) (fids : List Nat) : State := fids.foldl (fun s fid => (s.dropClaim fid).fixSt fid .aborted) s

/-- Counts a timed-out query in each of its pipelines (Table 04-9). -/
def State.countTimeout (s : State) (fid : Nat) : State :=
  match s.reqs.find? fun r => r.fid == fid with
  | some r => r.pipes.foldl (fun s p => s.bump (spReg p 0xC0)) s
  | none => s

/-- A descriptor times out: it is stopped as an aborted one is (R407). -/
def State.timeOut (s : State) (fid : Nat) : State := ((s.countTimeout fid).dropClaim fid).fixSt fid .timeout

/-- Whether a descriptor's timeout expires in this cycle, or has expired (R46). -/
def Flight.timesOut (f : Flight) (now : Nat) : Bool :=
  f.phase == .active && match f.admitCyc with
    | some a => decide (roundUp (a + 1500 * f.timeoutUs) 1500 ≤ now)
    | none => false

/-- Aborts a submission ring (R408, R410). The abort acts after every other event of its cycle: a descriptor whose timeout expires in it
completes with TIMEOUT. -/
def State.abortRing (s : State) (w q : Nat) : State :=
  let l := (s.ringFlights w q).filter fun f => f.phase != .done
  let late := l.filter fun f => f.timesOut s.cyc
  let fids := (l.filter fun f => !(f.timesOut s.cyc)).map Flight.fid
  let r := s.sq w q
  if r.en = .disabled then s
  else (late.foldl (fun s f => s.timeOut f.fid) (s.setSq w q { r with recov := r.recov ++ [fids] })).abortFlights fids

/-! ## Locks -/

/-- The module sets the W1C bit of a register in this cycle. -/
def State.markSet (s : State) (off : Nat) : State := { s with setAt := tset 0 s.setAt off (s.cyc + 1) }

/-- Whether the module set the W1C bit of a register in this cycle: a write of 1 in the same cycle leaves it set (R8). -/
def State.justSet (s : State) (off : Nat) : Bool := tget 0 s.setAt off == s.cyc + 1

/-- Records a lock violation (R517): VIO, COUNT, OFFSET and SRC of `GLB_LOCKVIO`; the written register keeps its value.
(log 111, DEDUCED) -/
def State.lockVio (s : State) (src off : Nat) : State :=
  let old := s.reg 0x18
  (s.setReg 0x18 (1 + min (bits old 31 16 + 1) 65535 * 2 ^ 16 + off % 2 ^ 23 * 2 ^ 32 + src % 16 * 2 ^ 56)).markSet 0x18

/-! ## Scheduling at a beat (02) -/

/-- Why a target beat is refused, if it is (R41). -/
def State.beatRefusal (s : State) (target : Nat) : Option Status :=
  match s.beat.number with
  | none => some .busy
  | some c => if target < c + 2 then some .invalid else if s.beat.sched.length ≥ 1024 then some .noResource else none

/-- Adds a scheduled event. -/
def State.schedule (s : State) (beat : Nat) (kind : SchedKind) : State :=
  { s with beat := { s.beat with sched := s.beat.sched ++ [{ beat, kind }] } }

/-! ## Enable states (Tables 16-6) -/

/-- EN = 0 (R411). -/
def EnState.off : EnState → EnState
  | .enabled => .draining
  | .enablePending => .draining
  | x => x

/-- EN = 1 (R412). -/
def EnState.on : EnState → EnState
  | .disabled => .enabled
  | .draining => .enablePending
  | x => x

/-- The state after a drain ends (R411, R412). -/
def EnState.drained : EnState → EnState
  | .draining => .disabled
  | .enablePending => .enabled
  | x => x

/-! ## What a command may touch -/

/-- The result of work that is no register access: stored registers, set-up and the receiver keep their values whatever the work
did, and so does the queue. Only scheduled events of the beat change. -/
def State.within (s t : State) : State :=
  { t with
    cyc := s.cyc, regs := s.regs, lowHeld := s.lowHeld, captures := s.captures, profS := s.profS, peek := s.peek
    regionSel := s.regionSel, msixTab := s.msixTab, wings := s.wings, power := s.power, boot := s.boot, link := s.link
    beat := { s.beat with sched := t.beat.sched }, pending := s.pending }

/-- The next state of work that is no register access. (log 34, DESIGN CHOICE) -/
def work (s t : State) : Host.Outcome State Fault Refusal := .next (s.within t)

end Sys2Proof.Machine
end

