-- ==== Sys2Proof/Machine/Flash.lean ====
section
/-!
DEFINITION. The flash under the Cellar window (14): units and their map, fresh blocks, the queues of operations, journal and dirty
segments, the health record. Where a unit's flash lies is the Cellar's own affair and left to constants (log 14, DESIGN CHOICE).
-/
namespace Sys2Proof.Machine
open Sys2Proof

def memKey (w a : Nat) : Nat := w * 2 ^ 52 + a

/-- Key of the 16 KiB unit that holds an address of a wing. -/
def unitKey (w a : Nat) : Nat := memKey w a / 16384

/-- Units that bytes [a, a + n) touch. -/
def unitsOf (w a n : Nat) : List Nat := (List.range ((a % 16384 + n + 16383) / 16384)).map fun i => unitKey w a + i

/-- Address of the first byte of a unit. -/
def unitAddr (u : Nat) : Nat := u % 2 ^ 38 * 16384

/-- Physical unit of a unit, if it is mapped (R343). (log 115, DESIGN CHOICE) -/
def State.unitAt (s : State) (u : Nat) : Option Nat := tfind s.cellar.map u

/-- Channel of a block (R20). -/
def blockChan (b : Nat) : Nat := Config.dieChannel (Config.blockDie b) % 32

/-- Block of a physical unit. -/
def puBlock (pu : Nat) : Nat := pu / Config.unitsPerBlock

def Cellar.block (c : Cellar) (b : Nat) : Block := tget {} c.blocks b

def Cellar.setBlock (c : Cellar) (b : Nat) (x : Block) : Cellar := { c with blocks := tset {} c.blocks b x }

/-- Spare blocks left (R350, R351). -/
def Cellar.spare (c : Cellar) : Nat := Config.spareBlocks - c.spareUsed

/-- Blocks in service: those of manufacture and the spares that replaced retired ones. -/
def Cellar.service (c : Cellar) : List Nat :=
  (List.range (Config.userBlocks + c.spareUsed)).filter fun b => !(c.block b).retired

/-- Of two blocks, the one taken as a fresh block: fewer programme/erase cycles, then the lower number (R348). -/
def Cellar.fresher (c : Cellar) (a b : Nat) : Nat := if (c.block b).pe < (c.block a).pe then b else a

/-- The block a Cellar die takes when it needs a fresh one: never on a channel that is offline (R348, R506). -/
def Cellar.freshBlock (c : Cellar) (die : Nat) : Option Nat :=
  (c.service.filter fun b => !(c.block b).inUse && blockChan b / 16 == die && !(c.chanOff.contains (blockChan b))).foldl
    (fun best b => match best with
      | some x => some (c.fresher x b)
      | none => some b) none

/-- First block of the flush reserve and of the system area: the areas of Table 14-1 follow one another (log 14, DESIGN CHOICE). -/
def reserveBase : Nat := Config.userBlocks + Config.spareBlocks

def systemBase : Nat := reserveBase + Config.reserveBlocks

/-- Whether a block belongs to the flush reserve. -/
def inReserve (b : Nat) : Bool := decide (reserveBase ≤ b) && decide (b < systemBase)

/-- Blocks of the flush reserve that are not erased, or retired. -/
def Cellar.reserveSpent (c : Cellar) : Nat :=
  (c.blocks.filter fun (e : Nat × Block) => inReserve e.1 && (e.2.inUse || e.2.retired)).length

/-- Whether the flush reserve holds at least 5 GiB of erased blocks (R340, R352). -/
def Cellar.reserveFull (c : Cellar) : Bool := c.reserveSpent == 0 || decide (c.reserveSpent ≤ Config.reserveExtra)

/-- A place for one unit in the flush reserve, in SLC mode (R353). -/
def Cellar.placeReserve (c : Cellar) : Option (Cellar × Nat) :=
  match (List.range Config.reserveBlocks).find? fun i =>
      let x := c.block (reserveBase + i)
      !x.retired && decide (x.used < Config.slcUnits) && !(c.chanOff.contains (blockChan (reserveBase + i))) with
  | some i =>
    let b := reserveBase + i
    let x := c.block b
    some (c.setBlock b { x with used := x.used + 1, inUse := true }, b * Config.unitsPerBlock + x.used)
  | none => none

/-- The block of the system area that the next map checkpoint is written to: the first that is not retired (R340, R350)
(log 14, DESIGN CHOICE). -/
def Cellar.systemBlock (c : Cellar) : Nat :=
  systemBase + (c.blocks.filter fun (e : Nat × Block) => decide (systemBase ≤ e.1) && e.2.retired).length

/-- The open block of a Cellar die with a unit still to be programmed. -/
def Cellar.openBlock (c : Cellar) (die : Nat) : Option Nat :=
  match tget 0 c.openBlk die with
  | 0 => none
  | b + 1 => if (c.block b).used < Config.unitsPerBlock ∧ (c.block b).retired = false ∧ c.chanOff.contains (blockChan b) = false then some b else none

/-- A place for one unit in fresh flash: block and physical unit. -/
def Cellar.place (c : Cellar) (die : Nat) : Option (Cellar × Nat × Nat) :=
  match c.openBlock die <|> c.freshBlock die with
  | some b =>
    let x := c.block b
    some ({ c.setBlock b { x with used := x.used + 1, inUse := true } with openBlk := tset 0 c.openBlk die (b + 1) }, b,
      b * Config.unitsPerBlock + x.used)
  | none => none

/-- The Cellar die that writes a unit. -/
def unitDie (u : Nat) : Nat := Config.cellarDie u % 2

/-- Puts an operation in its flash die's queue, in arrival order (R341). -/
def State.flashPut (s : State) (cls unit : Nat) (block : Option Nat) (pu : Nat) (use : FlashUse) : State :=
  let op : FlashOp := { id := s.nextId, cls, unit, block, pu, use }
  { s with cellar := { s.cellar with ops := s.cellar.ops ++ [op] }, nextId := s.nextId + 1 }

/-- Queues the read of a unit; an unmapped unit touches no flash (R346). -/
def State.flashRead (s : State) (cls unit : Nat) (use : FlashUse) : State :=
  match s.unitAt unit with
  | some pu => s.flashPut cls unit (some (puBlock pu)) pu use
  | none => s

/-- Whether an operation writes a map segment to the system area. -/
def FlashUse.isSegment : FlashUse → Bool
  | .segment _ => true
  | _ => false

/-- The parts of a unit that an operation which merges them with its rest has. -/
def FlashUse.parts : FlashUse → Option (List (Nat × Nat))
  | .mergeSrc l => some l
  | _ => none

/-- Whether an operation carries new contents of a unit that no later write or discard took the place of (R345). -/
def FlashOp.renews (o : FlashOp) (u : Nat) : Bool := o.unit == u && !o.stale && (o.use == .write || o.use.parts.isSome)

def FlashOp.outdated (o : FlashOp) : FlashOp := { o with stale := true }

/-- Programs and merges of new contents of a unit that are still under way no longer count: a later write of it, or its discard, came
(R345, R347). -/
def Cellar.supersede (c : Cellar) (u : Nat) : Cellar := { c with ops := c.ops.map fun o => if o.renews u then o.outdated else o }

/-- Queues the program of a unit to fresh flash; without a fresh block it waits for one (R345, R348). -/
def State.flashWrite (s : State) (cls unit : Nat) (use : FlashUse) : State :=
  let s := if use = .write then { s with cellar := s.cellar.supersede unit } else s
  match s.cellar.place (unitDie unit) with
  | some (c, b, pu) => { s with cellar := c }.flashPut cls unit (some b) pu use
  | none => s.flashPut cls unit none 0 use

/-- A write of a part of a unit (R345): merged with the rest, which is read first, and with the parts of earlier merges that are still
under way; a unit that is unmapped, or whose new contents are on their way, is programmed at once. -/
def State.flashMerge (s : State) (cls u a n : Nat) : State :=
  if s.unitAt u = none ∨ s.cellar.ops.any (fun o => o.renews u && o.use == .write) = true then s.flashWrite cls u .write
  else
    let parts := ((s.cellar.ops.filter fun o => o.renews u).filterMap fun o => o.use.parts).flatten
    { s with cellar := s.cellar.supersede u }.flashRead cls u (.mergeSrc (parts ++ [(a, n)]))

/-- Gives programs that wait for a fresh block their place, oldest first; a map checkpoint goes to the system area. -/
def Cellar.placeWaiting (c : Cellar) : Cellar :=
  c.ops.foldl (fun (c : Cellar) op =>
    if op.block.isSome then c
    else if op.use.isSegment then { c with ops := c.ops.map fun x => if x.id = op.id then { x with block := some c.systemBlock } else x }
    else
      match c.place (unitDie op.unit) with
      | some (d, b, pu) => { d with ops := d.ops.map fun x => if x.id = op.id then { x with block := some b, pu } else x }
      | none => c) c

/-- Whether an operation reads. -/
def FlashUse.isRead : FlashUse → Bool
  | .fill => true | .access _ => true | .copySrc => true | .mergeSrc _ => true
  | _ => false

/-- Whether an operation erases. -/
def FlashUse.isErase : FlashUse → Bool
  | .erase _ => true
  | _ => false

/-- Whether an operation belongs to a fill or a write-back of some units. -/
def FlashOp.holds (o : FlashOp) (us : List Nat) : Bool :=
  us.contains o.unit && (match o.use with
    | .fill => true | .write => !o.stale
    | _ => false)

/-- Whether flash still works for a fill or a write-back of some units. -/
def State.flashBusy (s : State) (us : List Nat) : Bool := s.cellar.ops.any fun o => o.holds us

/-- Whether new contents of some units are still on their way to flash. -/
def State.flashOwes (s : State) (us : List Nat) : Bool := s.cellar.ops.any fun o => us.any o.renews

/-- Whether the Cellar takes writes, and else the status that they complete with (R351, R352). (log 74, DEDUCED) -/
def State.cellarStop (s : State) : Option Status :=
  match s.cellar.st with
  | .readOnly => some .mediaError
  | .shutDown => some .busy
  | _ => none

/-! Journal, segments and the map (R343 to R345) -/

/-- Whether the journal buffer of 16 MiB takes n more entries (R344). -/
def Cellar.room (c : Cellar) (n : Nat) : Bool := decide ((c.journal.length + n) * Config.journalEntry ≤ 16777216)

/-- The journal buffer is written to the system area (R344). -/
def Cellar.writeJournal (c : Cellar) (cyc : Nat) : Cellar :=
  { c with sysJournal := c.sysJournal ++ c.journal, journal := [], journalCyc := cyc }

/-- What is left of a journal entry when the checkpoint of a segment is written: nothing of that segment (R344). -/
def JEntry.without (k : Nat) : JEntry → List JEntry
  | .mapped u pu => if u / 65536 = k then [] else [.mapped u pu]
  | .discard lo hi =>
    ([(lo, min hi (k * 65536)), (max lo ((k + 1) * 65536), hi)].filter fun x => decide (x.1 < x.2)).map fun x => JEntry.discard x.1 x.2
  | .commit => [.commit]

/-- A segment is written to the system area; the journal entries that it covers are released (R343, R344). -/
def Cellar.checkpoint (c : Cellar) (k : Nat) : Cellar :=
  let here := c.map.filter fun (e : Nat × Nat) => e.1 / 65536 == k
  { c with
    sysMap := here.foldl (fun t (e : Nat × Nat) => tput t e.1 e.2) (tkeep c.sysMap fun u => u / 65536 != k)
    sysJournal := (c.sysJournal.map (JEntry.without k)).flatten
    journal := (c.journal.map (JEntry.without k)).flatten
    dirtySegs := c.dirtySegs.filter fun x => x != k }

/-- Journal and every dirty segment are written (R352, R353). -/
def Cellar.settle (c : Cellar) (cyc : Nat) : Cellar :=
  { c with journal := [], journalCyc := cyc, sysMap := c.map, sysJournal := [], dirtySegs := [] }

/-- The map as journal entries change it, oldest first (R352). -/
def replay (t : Tab Nat) (l : List JEntry) : Tab Nat :=
  l.foldl (fun t j => match j with
    | .mapped u pu => tput t u pu
    | .discard lo hi => tkeep t fun u => decide (u < lo) || decide (hi ≤ u)
    | .commit => t) t

def JEntry.isMapped : JEntry → Bool
  | .mapped _ _ => true
  | _ => false

/-- What a mount finds where no closing record was written (R352): the checkpoint, the journal that had been written, and what the headers of
blocks programmed since say. -/
def Cellar.recovered (c : Cellar) : Cellar :=
  let m := replay c.sysMap (c.sysJournal ++ c.journal.filter JEntry.isMapped)
  let units := fun b => (m.filter fun (x : Nat × Nat) => puBlock x.2 == b).map Prod.fst
  let c := c.blocks.foldl (fun (c : Cellar) (e : Nat × Block) => c.setBlock e.1 { e.2 with valid := units e.1 }) c
  { c with map := m }.settle c.journalCyc

/-- A segment whose entries change becomes dirty, oldest change first (R343). (log 87, DEDUCED) -/
def Cellar.dirty (c : Cellar) (u : Nat) : Cellar :=
  { c with dirtySegs := if c.dirtySegs.contains (u / 65536) then c.dirtySegs else c.dirtySegs ++ [u / 65536] }

/-- Whether a unit's map entry may change now: room in the journal, and no more than 1,024 dirty segments (R343, R344). -/
def Cellar.canMap (c : Cellar) (u : Nat) : Bool :=
  c.room 1 && (c.dirtySegs.contains (u / 65536) || decide (c.dirtySegs.length < 1024))

/-- The old copy of a unit becomes invalid (R345). -/
def Cellar.drop (c : Cellar) (u : Nat) : Cellar :=
  match tfind c.map u with
  | some pu => { c.setBlock (puBlock pu) { c.block (puBlock pu) with valid := (c.block (puBlock pu)).valid.filter fun x => x != u } with map := tdel c.map u }
  | none => c

/-- A map entry changes: journalled first, its segment dirty (R343 to R345). -/
def Cellar.mapTo (c : Cellar) (u pu : Nat) : Cellar :=
  let c := (c.drop u).dirty u
  { c.setBlock (puBlock pu) { c.block (puBlock pu) with valid := (c.block (puBlock pu)).valid ++ [u] } with
    map := tput c.map u pu, journal := c.journal ++ [.mapped u pu] }

/-- A unit becomes unmapped; programs of it that are under way no longer count (R345, R347). -/
def Cellar.unmap (c : Cellar) (u : Nat) : Cellar := ((c.drop u).dirty u).supersede u

/-- At most 1,024 segments are dirty: where a discard changes more, the Cellar dies write the oldest first (R343).
(log 85, DEDUCED) -/
def Cellar.capSegs (c : Cellar) : Cellar := (c.dirtySegs.take (c.dirtySegs.length - 1024)).foldl Cellar.checkpoint c

/-- Unmaps every unit from `lo` up to `hi`, with what is under way for them; one journal entry records the discard (R344, R347).
(log 85, DEDUCED) -/
def Cellar.discard (c : Cellar) (lo hi : Nat) : Cellar :=
  let c := ((c.map.map Prod.fst).filter fun u => decide (lo ≤ u) && decide (u < hi)).foldl Cellar.unmap c
  let c := ((c.ops.map FlashOp.unit).filter fun u => decide (lo ≤ u) && decide (u < hi)).foldl Cellar.supersede c
  { c with journal := c.journal ++ [JEntry.discard lo hi] }.capSegs

/-! Health record (Table 14-4), by byte offset of its fields -/

/-- Adds to a field of the health record of `w` bytes, which saturates (R359). -/
def Cellar.healthAdd (c : Cellar) (off w n : Nat) : Cellar := { c with health := tset 0 c.health off (sat (tget 0 c.health off + n) (8 * w)) }

/-- Changes the Cellar. -/
def State.cel (s : State) (f : Cellar → Cellar) : State := { s with cellar := f s.cellar }

/-- Room in the journal for an entry that cannot wait: a buffer without room is written first (R344). (log 87, DEDUCED) -/
def State.journalRoom (s : State) : State := if s.cellar.room 1 then s else s.cel fun c => c.writeJournal s.cyc

/-- The area of new flash that a power-fail flush fills beside the units: n more units of the reserve (R353). -/
def Cellar.takeReserve (c : Cellar) (n : Nat) : Cellar :=
  (List.range n).foldl (fun (c : Cellar) _ => match c.placeReserve with
    | some (d, _) => d
    | none => c) c

end Sys2Proof.Machine
end

