-- ==== Sys2Proof/Machine/Links.lean ====
section
/-!
DEFINITION. Sending on Bruvia ports (18): frames and their flits, channel order, credits and the replay buffer, requests with their
tags, responses and refusals.
-/
namespace Sys2Proof.Machine
open Sys2Proof

/-- Flits of a frame (R435). -/
def frameFlits (f : Frame) : Nat := cdiv (64 + f.payload.length) 62

/-- Order in which a port looks at its channels (R436). -/
def chanOrder : List Nat := [8, 0, 9, 1, 2, 3, 4, 5, 6, 7]

/-- Receive buffer of a channel in flits (R437). -/
def chanBuffer (c : Nat) : Nat := if c = 9 then 256 else 1024

/-- Whether a channel may send in the link's state (R436, R441). -/
def BpSt.chanOpen (b : BpSt) (c : Nat) : Bool :=
  if c = 8 then b.link == .up || b.link == .ident || b.link == .train else b.link == .up

/-- Flits sent and not yet acknowledged. -/
def BpSt.unacked (b : BpSt) : Nat := (b.txFlits + 2 ^ 32 - b.ackedFlits % 2 ^ 32) % 2 ^ 32

/-- Whether a port is being drained (R443). -/
def BpSt.draining (b : BpSt) : Bool := b.en == .draining || b.en == .enablePending

/-- Whether a frame is a request frame (R447). (log 96, DEDUCED) -/
def isRequest (f : Frame) : Bool := !f.resp && (f.chan != 9 || f.typ == 0x20) && f.chan != 8

/-- Whether a waiting frame may start: channel open, credits for all its flits, room in the replay buffer (R437, R438). -/
def BpSt.canStart (b : BpSt) (f : Frame) : Bool :=
  b.chanOpen f.chan && decide (b.unacked + frameFlits f ≤ 4096)
    && (f.chan == 8 || decide (tget 0 b.credits f.chan + frameFlits f ≤ chanBuffer f.chan))

/-- Whether a frame at the head of a channel waits for credits (R437). -/
def BpSt.creditWait (b : BpSt) : Bool :=
  b.link == .up && chanOrder.any fun c =>
    c != 8 && (match b.txq.find? fun f => f.chan == c && !(b.draining && isRequest f) with
      | some f => decide (chanBuffer c < tget 0 b.credits c + frameFlits f)
      | none => false)

/-- The frame a port starts next: of the first channel in order whose oldest waiting frame may start; while it drains no
request frame starts (R443). -/
def BpSt.nextFrame (b : BpSt) : Option Frame :=
  chanOrder.findSome? fun c =>
    match b.txq.find? fun f => f.chan == c && !(b.draining && isRequest f) with
    | some f => if b.canStart f then some f else none
    | none => none

/-- A frame's header (Table 18-2) and payload, little-endian (R3), with reserved bits 0. -/
def frameBytes (f : Frame) : Bytes :=
  natLe f.typ 2 ++ natLe (f.chan + 16 * f.colour) 1 ++ natLe f.hdrVer 1 ++ natLe f.payload.length 2 ++ natLe f.wing 1
    ++ natLe (b2n f.last + 2 * b2n f.resp) 1 ++ natLe f.epoch 4 ++ natLe f.seq 4 ++ natLe f.tag 4 ++ natLe f.deadline 4 ++ f.args ++ f.payload

/-- The frame that bytes spell (Table 18-2). -/
def frameOfBytes (bs : Bytes) : Frame :=
  { typ := fld bs 0 2, chan := bits (fld bs 2 1) 3 0, colour := bits (fld bs 2 1) 5 4, hdrVer := fld bs 3 1, wing := bits (fld bs 6 1) 3 0
    last := bit (fld bs 7 1) 0, resp := bit (fld bs 7 1) 1, epoch := fld bs 8 4, seq := fld bs 12 4, tag := fld bs 16 4
    deadline := fld bs 20 4, args := slice bs 24 40, payload := slice bs 64 (bits (fld bs 4 2) 12 0)
    resv := bits (fld bs 2 1) 7 6 != 0 || bits (fld bs 4 2) 15 13 != 0 || bits (fld bs 6 1) 7 4 != 0 || bits (fld bs 7 1) 7 2 != 0 }

/-- Removes the first element equal to x. -/
def eraseOne {α : Type} [DecidableEq α] (x : α) : List α → List α
  | [] => []
  | y :: t => if y = x then t else y :: eraseOne x t

/-- Sends one frame: epoch and sequence number are the port's now (Table 18-2). -/
def State.startFrame (s : State) (p : Nat) (f : Frame) : State :=
  let b := s.bp p
  let n := frameFlits f
  let g := { f with epoch := b.epoch, seq := tget 0 b.txSeq f.chan }
  let s := s.setBp p
    { b with
      txq := eraseOne f b.txq, replayBuf := b.replayBuf ++ [(b.txFlits, g)], txFlits := (b.txFlits + n) % 2 ^ 32
      txSeq := tset 0 b.txSeq f.chan ((tget 0 b.txSeq f.chan + 1) % 2 ^ 32)
      credits := if f.chan = 8 then b.credits else tset 0 b.credits f.chan (tget 0 b.credits f.chan + n)
      ackCyc := if b.unacked = 0 then s.cyc else b.ackCyc }
  let s := s.emit (.frame p (frameBytes g))
  if f.typ = 0 then s else (s.bump (bpReg p 0x40)).bumpBy (bpReg p 0x50) (64 + f.payload.length)

/-- Sends every frame that may start, in order; `fuel` bounds their number. -/
def State.drainTx (s : State) (p : Nat) : Nat → State
  | 0 => s
  | fuel + 1 =>
    if s.err.fatal then s
    else
      match (s.bp p).nextFrame with
      | some f => (s.startFrame p f).drainTx p fuel
      | none => s

def State.pump (s : State) (p : Nat) : State := s.drainTx p (s.bp p).txq.length

/-- Queues a frame on a port and sends what may start. -/
def State.sendFrame (s : State) (p : Nat) (f : Frame) : State :=
  let b := s.bp p
  (s.setBp p { b with txq := b.txq ++ [f] }).pump p

/-- A header with everything but type and payload at rest. -/
def blankFrame : Frame :=
  { typ := 0, chan := 8, colour := 0, hdrVer := 1, wing := 0, last := true, resp := false, epoch := 0, seq := 0, tag := 0
    deadline := 0, args := List.replicate 40 0, payload := [], resv := false }

/-- Arguments padded to their 40 bytes. -/
def argsOf (bs : Bytes) : Bytes := slice bs 0 40

/-- Microseconds left of a descriptor's timeout, rounded down (Table 18-2). -/
def State.usLeft (s : State) (fid : Nat) : Nat :=
  match s.flight? fid with
  | some f => match f.admitCyc with
    | some a => (roundUp (a + 1500 * f.timeoutUs) 1500 - s.cyc) / 1500
    | none => f.timeoutUs
  | none => 0

/-- A fresh request tag of a port. -/
def State.takeTag (s : State) (p : Nat) : State × Nat :=
  let b := s.bp p
  (s.setBp p { b with tags := (b.tags + 1) % 2 ^ 32 }, b.tags % 2 ^ 32)

/-- Records a request and sends its frame. -/
def State.sendRequest (s : State) (p : Nat) (r : BpReq) (colour deadline : Nat) (last : Bool) : State :=
  let b := s.bp p
  let known := b.reqs.any fun x => x.tag == r.tag
  let s := s.setBp p { b with reqs := if known then b.reqs else b.reqs ++ [r] }
  s.sendFrame p { blankFrame with
    typ := r.typ, chan := r.chan, colour, wing := r.wing, last, tag := r.tag, deadline, args := argsOf r.args, payload := r.payload }

/-- A response on the channel of its request (R436). (log 96, DEDUCED) -/
def State.respond (s : State) (p : Nat) (q : Frame) (typ : Nat) (args payload : Bytes) (last : Bool) : State :=
  s.sendFrame p { blankFrame with
    typ, chan := q.chan, colour := q.colour, wing := q.wing, last, resp := true, tag := q.tag, args := argsOf args, payload }

/-- Refuses a work frame with a status (R448). (log 96, DEDUCED) -/
def State.refuse (s : State) (p : Nat) (q : Frame) (st : Status) : State :=
  (s.respond p q 0x30 (natLe st.code 1 ++ natLe 0 1 ++ natLe q.typ 2) [] true).bump (bpReg p 0x90)

/-- Removes a request that has been answered. -/
def State.dropReq (s : State) (p tag : Nat) : State :=
  let b := s.bp p
  s.setBp p { b with reqs := b.reqs.filter fun r => r.tag != tag }

/-- The outstanding request a response answers. -/
def State.reqOf (s : State) (p : Nat) (f : Frame) : Option BpReq := (s.bp p).reqs.find? fun r => r.tag == f.tag

/-- The local wing of a sender's wing (R448). (log 70, DEDUCED) -/
def State.mapWing (s : State) (p w : Nat) : Option Nat :=
  if bit (s.reg (bpReg p 0x28)) w then some (bits (s.reg (bpReg p 0x20)) (4 * w + 3) (4 * w)) else none

/-! ## Search fan-out (R449) -/

/-- Ports a search of a wing's collection and class fans out to, with the neighbour's handle, by entry. (log 70, DEDUCED) -/
def State.fanPorts (s : State) (w handle cls : Nat) : List (Nat × Nat) :=
  (List.range 32).filterMap fun n =>
    let e := s.reg (wngReg w (0x3000 + 8 * n))
    if bit e 12 ∧ bits e 11 0 = handle ∧ bit e (32 + cls) then some (bits e 15 13, bits e 27 16) else none

/-- Payload of a message cut into frames of at most 4,096 bytes, with their offsets; `fuel` bounds them. -/
def cutPayload (off : Nat) (bs : Bytes) : Nat → List (Nat × Bytes)
  | 0 => []
  | fuel + 1 => if bs.length ≤ 4096 then [(off, bs)] else (off, bs.take 4096) :: cutPayload (off + 4096) (bs.drop 4096) fuel

/-- Sends a FANOUT message to one port: the origin's body, the query, the clauses (Table 18-4). Answers with its tag. -/
def State.sendFanout (s : State) (f : Flight) (cls p remote : Nat) (body : Bytes) : State × Nat :=
  let r := s.takeTag p
  let parts := cutPayload 0 body (body.length / 4096 + 1)
  let lastOff := ((parts.getLast?).map Prod.fst).getD 0
  let t := parts.foldl (fun (t : State) x =>
    t.sendRequest p
      { tag := r.2, typ := 0x100, fid := some f.fid, wing := f.wing, chan := cls, args := natLe remote 4 ++ natLe x.1 4, payload := x.2 }
      f.colour (s.usLeft f.fid) (x.1 == lastOff)) r.1
  (t, r.2)

end Sys2Proof.Machine
end

