-- ==== Sys2Proof/Machine/Profile.lean ====
section
/-!
DEFINITION. The stored profiles (Table 20-3) and the fixed figures of the package they divide: Floor frames, module bricks, wing
pool, open limits.
-/
namespace Sys2Proof.Machine
open Sys2Proof

/-- Window-cache frames of a profile. -/
def profWindow (p : Nat) : Nat := if p = 1 then 524288 else if p = 2 then 131072 else 262144

/-- Dirty budget in pages of 256 KiB. -/
def profDirty (p : Nat) : Nat := if p = 0 then 4096 else if p = 1 then 8192 else if p = 2 then 16384 else 12288

def profMergeBricks (p : Nat) : Nat := if p = 1 then 0 else if p = 2 then 8 else 16
def profEmbBricks (p : Nat) : Nat := if p = 0 then 8 else if p = 1 then 0 else if p = 2 then 64 else 32

/-- Open limit per compute stack, in regions (R295). -/
def profOpenMax (p : Nat) : Nat := if p = 0 then 9216 else if p = 1 then 4608 else if p = 2 then 27648 else 18432

/-- Floor frames that can be allocated (R285). -/
def allFrames : Nat := 3473408

/-- Frames of the Floor pool (R285). -/
def profPool (p : Nat) : Nat := allFrames - profWindow p

/-- Hall die of a brick (R21). -/
def brickDie (b : Nat) : Nat := 2 * (b / 128 % 2) + b / 8 % 2

/-- Bricks of a Hall die with an ID above b's. -/
def bricksAbove (b : Nat) : Nat := ((List.range 256).filter fun x => decide (b < x) && brickDie x == brickDie b).length

/-- Bricks that search merging takes: on each die, from the highest ID downward. -/
def isMergeBrick (p b : Nat) : Bool := decide (bricksAbove b < profMergeBricks p / 4)

/-- Bricks that embedding tables take, after the merge bricks. -/
def isEmbBrick (p b : Nat) : Bool :=
  !(isMergeBrick p b) && decide (bricksAbove b < (profMergeBricks p + profEmbBricks p) / 4)

/-- Bricks of the wing pool (R416). -/
def inWingPool (p b : Nat) : Bool := !(isMergeBrick p b) && !(isEmbBrick p b)

/-- Whether a profile has module bricks (R315, Table 20-3). -/
def hasModuleBricks (p : Nat) : Bool := decide (0 < profMergeBricks p + profEmbBricks p)

/-- Allocatable frames of a stack (R523). -/
def stackFrames (i : Nat) : Nat := if i % 3 = 0 then 294912 else 286720

/-- Window-cache frames a stack gives in a profile (R523). -/
def stackWindow (p i : Nat) : Nat := if i % 3 = 0 then 0 else profWindow p / 8

/-- The profile in force. -/
def State.prof (s : State) : Nat := s.boot.profile

/-- The dirty budget in pages: 0 while the hold-up bank is low (R284, R469). -/
def State.dirtyBudget (s : State) : Nat := if s.power.bankLow then 0 else profDirty s.prof

/-- Bricks allotted to a wing (R416). -/
def State.allotted (s : State) (w b : Nat) : Bool := bit (s.reg (wngReg w (0x2820 + 8 * (b / 64)))) (b % 64)

/-- The wing a brick is allotted to. -/
def State.brickWing (s : State) (b : Nat) : Option Nat := (List.range 16).find? fun w => s.allotted w b

end Sys2Proof.Machine
end

