-- ==== Sys2Proof/Machine/Pages.lean ====
section
/-!
DEFINITION. Tier memory (11): ranges, page entries with heat and age, frames and quotas, window-cache placement and eviction,
bytes and poison of range pages wherever they are held.
-/
namespace Sys2Proof.Machine
open Sys2Proof

/-- Bytes of a tier page. -/
def pageSize : Nat := 262144

/-- Key of a 64-byte line of a wing's tier space. -/
def lineKey (w a : Nat) : Nat := memKey w a / 64

/-- Key of a page: `p` is a tier address / 256 KiB. -/
def pageKey (w p : Nat) : Nat := w * 2 ^ 34 + p

/-- Tier select of a page (Table 11-1). -/
def pageTier (p : Nat) : Nat := p / 2 ^ 30

/-- Page offset within its tier. -/
def pageOff (p : Nat) : Nat := p % 2 ^ 30

/-- The range of a wing that holds a page and is in use. -/
def State.rangeAt (s : State) (w p : Nat) : Option Range :=
  s.ranges.find? fun r => r.wing == w && decide (r.base ≤ p) && decide (p < r.base + r.pages) && r.ready

def State.page (s : State) (w p : Nat) : PageEnt := tget {} s.pages (pageKey w p)

def State.setPage (s : State) (w p : Nat) (e : PageEnt) : State := { s with pages := tput s.pages (pageKey w p) e }

/-- Whether a page is held in a frame: Floor, or cached (Table 11-4). -/
def PageEnt.resident (e : PageEnt) : Bool := e.tier == 1 || e.tier == 2 || e.tier == 5

/-- Whether a page is held in a window-cache frame. -/
def PageEnt.cached (e : PageEnt) : Bool := e.tier == 2 || e.tier == 5

/-- Pages that bytes [a, a + n) touch. -/
def pagesOf (a n : Nat) : List Nat := (List.range ((a % pageSize + n + pageSize - 1) / pageSize)).map fun i => a / pageSize + i

/-- Whether every page of bytes [a, a + n) lies in a tier range of the wing. -/
def State.inRanges (s : State) (w a n : Nat) : Bool :=
  decide (0 < n) && (pagesOf a n).all fun p => (s.rangeAt w p).isSome

/-- Whether a page of bytes [a, a + n) lies in a range that was lost (R446). -/
def State.inLost (s : State) (w a n : Nat) : Bool :=
  (pagesOf a n).any fun p => match s.rangeAt w p with
    | some r => r.lost
    | none => false

/-- A byte of a range page, from the frame or the lower tier that holds it. (log 115, DESIGN CHOICE) -/
def State.tierByte (s : State) (w a : Nat) : Byte :=
  if (s.page w (a / pageSize)).resident then tget 0 s.frm (memKey w a) else tget 0 s.low (memKey w a)

/-- Bytes of range pages. -/
def State.tierBytes (s : State) (w a : Nat) : Nat → Bytes
  | 0 => []
  | n + 1 => s.tierByte w a :: s.tierBytes w (a + 1) n

/-- Whether the line at an address is poisoned (R275). -/
def State.linePoisoned (s : State) (w a : Nat) : Bool :=
  if (s.page w (a / pageSize)).resident then s.frmBad.contains (lineKey w a) else s.lowBad.contains (lineKey w a)

/-- The first poisoned line of bytes [a, a + n). -/
def State.firstPoison (s : State) (w a n : Nat) : Option Nat :=
  ((List.range ((a % 64 + n + 63) / 64)).map fun i => a / 64 * 64 + 64 * i).find? fun x => s.linePoisoned w x

def insertNew (l : List Nat) (x : Nat) : List Nat := if l.contains x then l else l ++ [x]

/-- Poisons the line at an address in the tier that holds it. -/
def State.poisonLine (s : State) (w a : Nat) : State :=
  if (s.page w (a / pageSize)).resident then { s with frmBad := insertNew s.frmBad (lineKey w a) }
  else { s with lowBad := insertNew s.lowBad (lineKey w a) }

/-- Lines that bytes [a, a + n) cover whole. -/
def wholeLines (a n : Nat) : List Nat :=
  ((List.range (n / 64 + 1)).map fun i => (a + 63) / 64 * 64 + 64 * i).filter fun x => decide (x + 64 ≤ a + n)

/-- Poison of some lines after a write: set by one that carries it, cleared by one that covers them whole without it (R275, R499). -/
def badAfter (bad : Bool) (lines : List Nat) (mine : Nat → Bool) (l : List Nat) : List Nat :=
  if bad then (lines.filter mine).foldl insertNew l else l.filter fun k => !(lines.contains k && mine k)

/-- Writes bytes into the frame of resident pages, or into the lower tier; poison clears where a whole line is written without
poison, and is set there by a write that carries it (R275, R499). -/
def State.tierPut (s : State) (w a : Nat) (bs : Bytes) (bad : Bool := false) : State :=
  let put := fun (s : State) (x : Nat × Byte) =>
    if (s.page w (x.1 / pageSize)).resident then { s with frm := tset 0 s.frm (memKey w x.1) x.2 }
    else { s with low := tset 0 s.low (memKey w x.1) x.2 }
  let s := ((List.range bs.length).zip bs).foldl (fun s x => put s (a + x.1, x.2)) s
  let whole := (wholeLines a bs.length).map (lineKey w)
  let inFrame := fun k => (s.page w (k % 2 ^ 46 * 64 / pageSize)).resident
  { s with frmBad := badAfter bad whole inFrame s.frmBad, lowBad := badAfter bad whole (fun k => !(inFrame k)) s.lowBad }

/-! ## KV pages in the Cellar window (R176, R177, R182) -/

/-- Name of a tier page of a session. -/
def kvName (layer shard t : Nat) : Nat := layer * 2 ^ 40 + shard * 2 ^ 36 + t

/-- Layer and shard of a name. -/
def kvLayer (name : Nat) : Nat := name / 2 ^ 40

def kvShard (name : Nat) : Nat := name / 2 ^ 36 % 16

/-- Tier pages of one layer and shard in a session's Cellar allocation. -/
def Sess.winSpan (e : Sess) : Nat := e.winPages / (e.layers * e.shards)

/-- Page of the Cellar window to which a tier page spills: layer by layer, shard by shard, in ascending order
(log 131, DESIGN CHOICE). -/
def Sess.winPage (e : Sess) (name : Nat) : Nat :=
  e.winBase + (kvLayer name * e.shards + kvShard name) * e.winSpan + name % 2 ^ 36

/-- Bytes of a stored element. -/
def Sess.elem (e : Sess) : Nat := if e.kfmt = 0 then 2 else 1

/-- Bytes of a KV page. -/
def Sess.pageBytes (e : Sess) : Nat := 128 * e.hkv * e.dh * e.elem + (if e.kfmt = 1 then 512 * e.hkv else 0)

/-- KV pages in a tier page. -/
def Sess.perTier (e : Sess) : Nat := pageSize / e.pageBytes

/-- Key of the first byte of a KV page in a session's bytes. -/
def kvPageKey (layer page : Nat) : Nat := layer * 2 ^ 48 + page * 2 ^ 18

/-- Shard of a page of the Cellar window to which a tier page of a session spills. -/
def Sess.winShard (e : Sess) (p : Nat) : Nat := (p - e.winBase) / e.winSpan % e.shards

/-- The line of a session's bytes, as in `bad`, that lies at an address of its window pages; none beyond the KV pages. -/
def Sess.winLine (e : Sess) (a : Nat) : Option Nat :=
  let ix := a / pageSize - e.winBase
  let i := a % pageSize / e.pageBytes
  if i < e.perTier then
    let kp := (ix % e.winSpan * e.perTier + i) * e.shards + ix / e.winSpan % e.shards
    some ((kvPageKey (ix / e.winSpan / e.shards) kp + a % pageSize % e.pageBytes) / 64)
  else none

/-- Whether a page is an internal Cellar page of a session. -/
def Sess.ownsPage (e : Sess) (p : Nat) : Bool := decide (e.winBase ≤ p) && decide (p < e.winBase + e.winPages)

/-- Whether a page, by its key, is held by a KV prefetch (R185). -/
def State.kvHolds (s : State) (key : Nat) : Bool :=
  s.sessions.any fun e => e.1 / 65536 == key / 2 ^ 34 && e.2.pref.any fun x => e.2.winPage x.name == key % 2 ^ 34

/-! ## Regions (R292, R294) -/

/-- Key of region r of compute stack i, i from 0 to 3 for F0, F3, F6 and F9. -/
def regionKey (i r : Nat) : Nat := i * 36864 + r

/-- Stack index (0 to 3) of a region key. -/
def regionStack (k : Nat) : Nat := k / 36864

def State.region (s : State) (k : Nat) : Region := tget {} s.regions k

def State.setRegion (s : State) (k : Nat) (x : Region) : State := { s with regions := tset {} s.regions k x }

/-- The region of a compute stack that holds a frame: frame f lies in region f div 8 (R292). -/
def FrameAt.region (x : FrameAt) : Option Nat :=
  if x.stack % 3 = 0 then some (regionKey (x.stack / 3) (x.frame / 8)) else none

/-- Frame j of a region, for a wing. -/
def regionFrame (w k j : Nat) : FrameAt := { stack := 3 * regionStack k, frame := k % 36864 * 8 + j, wing := w }

/-! ## Frames and quotas (R285, R299, R523) -/

/-- The frame a resident page lies in. -/
def PageEnt.at_ (e : PageEnt) (w : Nat) : FrameAt := { stack := e.stack, frame := e.frame, wing := w }

/-- Frames of Floor pages: those of ranges, by their entries, and those of internal and lent pages (R266, R273, R453). -/
def State.poolFrames (s : State) : List FrameAt :=
  ((s.pages.filter fun e => e.2.tier == 1).map fun e => e.2.at_ (e.1 / 2 ^ 34)) ++ s.frames

/-- Frames of Floor pages in a stack. -/
def State.poolOn (s : State) (i : Nat) : Nat := (s.poolFrames.filter fun x => x.stack == i).length

/-- Window-cache frames of a stack in use. -/
def State.cachedOn (s : State) (i : Nat) : Nat := (s.pages.filter fun e => e.2.cached && e.2.stack == i).length

/-- Cached pages of a wing. -/
def State.cacheUse (s : State) (w : Nat) : Nat := (s.pages.filter fun e => e.2.cached && e.1 / 2 ^ 34 == w).length

/-- Pages of a wing's ranges in a tier. -/
def State.rangePages (s : State) (w tier : Nat) : Nat :=
  ((s.ranges.filter fun r => r.wing == w && r.tier == tier).map Range.pages).foldl (· + ·) 0

/-- Floor pages of a wing: range pages and internal pages. -/
def State.floorUse (s : State) (w : Nat) : Nat := s.rangePages w 1 + tget 0 s.intFloor w

/-- Cellar window pages of a wing. -/
def State.cellarUse (s : State) (w : Nat) : Nat := s.rangePages w 2 + tget 0 s.intCellar w

/-- Cellar window pages of all wings (R340). -/
def State.cellarTotal (s : State) : Nat := ((List.range 16).map s.cellarUse).foldl (· + ·) 0

def State.annexUse (s : State) (w : Nat) : Nat := s.rangePages w 3

def State.floorQuota (s : State) (w : Nat) : Nat := bits (s.reg (wngReg w 0x2008)) 21 0
def State.cellarQuota (s : State) (w : Nat) : Nat := bits (s.reg (wngReg w 0x2008)) 59 32
def State.cacheMin (s : State) (w : Nat) : Nat := bits (s.reg (wngReg w 0x2010)) 19 0
def State.cacheMax (s : State) (w : Nat) : Nat := bits (s.reg (wngReg w 0x2010)) 51 32
def State.annexQuota (s : State) (w : Nat) : Nat := bits (s.reg (wngReg w 0x2010)) 63 56 * 65536

/-- Pages lent to neighbours, which take Floor frames (R453). -/
def State.lentPages (s : State) : Nat := (s.bps.map fun e => (e.2.lent.map Prod.snd).foldl (· + ·) 0).foldl (· + ·) 0

/-- Whether an OPEN region keeps its free frames from a wing: it is another wing's (R299). -/
def State.keepsFrom (s : State) (w k : Nat) : Bool := (s.region k).st == .opened && (s.region k).wing != w

/-- Free frames of a stack that OPEN regions of other wings keep (R299). -/
def State.withheld (s : State) (w i : Nat) : Nat :=
  ((s.regions.filter fun e => 3 * regionStack e.1 == i && s.keepsFrom w e.1).map fun e =>
    8 - (s.poolFrames.filter fun x => x.region == some e.1).length).foldl (· + ·) 0

/-- Free pool frames of a stack for a wing: allocatable, less its window-cache frames in share or in use, less those used or kept. -/
def State.stackFree (s : State) (w i : Nat) : Nat :=
  stackFrames i - max (stackWindow s.prof i) (s.cachedOn i) - s.poolOn i - s.withheld w i

/-- Of some stacks, the one with the most free frames, the lowest-numbered on a tie, if any has one (R269). -/
def State.pickStack (s : State) (w : Nat) (l : List Nat) : Option Nat :=
  l.foldl (fun best i => match best with
    | some b => if s.stackFree w i > s.stackFree w b then some i else some b
    | none => if s.stackFree w i > 0 then some i else none) none

/-- The first number from x on, around n, that is not taken; `fuel` bounds the search. -/
def nextFree (taken : Nat → Bool) (n : Nat) : Nat → Nat → Option Nat
  | _, 0 => none
  | x, fuel + 1 => if taken x then nextFree taken n ((x + 1) % n) fuel else some x

/-- Whether frame f of a stack is in use, or kept from a wing. -/
def State.frameTaken (s : State) (w i f : Nat) : Bool :=
  s.poolFrames.any (fun x => x.stack == i && x.frame == f) || s.pages.any (fun e => e.2.cached && e.2.stack == i && e.2.frame == f)
    || (i % 3 == 0 && s.keepsFrom w (regionKey (i / 3) (f / 8)))

/-- A free frame of a stack: nothing says which (log 29, DESIGN CHOICE). -/
def State.freeFrame (s : State) (w i : Nat) : Nat :=
  (nextFree (s.frameTaken w i) (stackFrames i) (s.free % stackFrames i) (stackFrames i)).getD 0

/-- Takes one pool frame in one of some stacks, for a wing. -/
def State.takeFrameOf (s : State) (w : Nat) (l : List Nat) : Option (State × FrameAt) :=
  match s.pickStack w l with
  | some i => let x : FrameAt := { stack := i, frame := s.freeFrame w i, wing := w }; some (s.useFree, x)
  | none => none

/-- Takes n pool frames in some stacks, in order after those of `t`. -/
def State.takeFrames (s : State) (w : Nat) (l : List Nat) (t : List FrameAt) : Nat → Option (State × List FrameAt)
  | 0 => some (s, t)
  | n + 1 =>
    match s.takeFrameOf w l with
    | some (s, x) => { s with frames := s.frames ++ [x] }.takeFrames w l (t ++ [x]) n
    | none => none

/-- Returns frames to the pool. -/
def State.giveFrames (s : State) (t : List FrameAt) : State := { s with frames := s.frames.filter fun x => !(t.contains x) }

/-- The stacks of a Hall die. -/
def dieStacks (d : Nat) : List Nat := [3 * d, 3 * d + 1, 3 * d + 2]

def allStacks : List Nat := List.range 12

/-- Allocates internal Floor pages for a wing, by demands of (stacks, pages): charges the quota and takes the frames, or fails and
allocates nothing (R285). -/
def State.allocInternal (s : State) (w : Nat) (demands : List (List Nat × Nat)) : Option (State × List FrameAt) :=
  let n := (demands.map Prod.snd).foldl (· + ·) 0
  if s.floorUse w + n > s.floorQuota w then none
  else
    match demands.foldl (fun (acc : Option (State × List FrameAt)) d => acc.bind fun x => x.1.takeFrames w d.1 x.2 d.2) (some (s, [])) with
    | some (s, t) => some ({ s with intFloor := tset 0 s.intFloor w (tget 0 s.intFloor w + n) }, t)
    | none => none

/-- Allocates internal Floor pages for a wing in frames that are known to be free. -/
def State.allocAt (s : State) (w : Nat) (l : List FrameAt) : Option State :=
  if s.floorUse w + l.length > s.floorQuota w then none
  else some { s with frames := s.frames ++ l, intFloor := tset 0 s.intFloor w (tget 0 s.intFloor w + l.length) }

/-- Releases internal Floor pages of a wing. -/
def State.freeInternal (s : State) (w : Nat) (t : List FrameAt) : State :=
  { s.giveFrames t with intFloor := tset 0 s.intFloor w (tget 0 s.intFloor w - t.length) }

/-- Charges internal Cellar pages of a wing (R285, R340). -/
def State.chargeCellar (s : State) (w n : Nat) : Option State :=
  if n = 0 then some s
  else if s.cellarUse w + n > s.cellarQuota w ∨ s.cellarTotal + n > 106811523 then none
  else some { s with intCellar := tset 0 s.intCellar w (tget 0 s.intCellar w + n) }

def State.uncharge (s : State) (w n : Nat) : State := { s with intCellar := tset 0 s.intCellar w (tget 0 s.intCellar w - n) }

/-! ## Entries, heat and age (R273 to R278) -/

/-- Hall die on which a page's entry lies when it is not a Floor page. -/
def pageDie (p : Nat) : Nat := pageOff p % 4

def PageEnt.isShadow (e : PageEnt) : Bool := e.tier == 3 || e.tier == 4

/-- Shadow entries and uncached ANNEX entries on a die. -/
def State.shadowsOn (s : State) (d : Nat) : Nat :=
  (s.pages.filter fun e => e.2.isShadow && pageDie (e.1 % 2 ^ 34) == d).length

/-- Free entries of a die: 1,048,576 less those of frames in use and shadows (R273, R278). -/
def State.freeEntries (s : State) (d : Nat) : Nat :=
  1048576 - (((dieStacks d).map fun i => s.poolOn i + s.cachedOn i).foldl (· + ·) 0) - s.shadowsOn d

/-- Entries of a die that shadow and ANNEX entries may take: each allocatable frame carries one of the others (R278, log 132, DEDUCED). -/
def spareEntries : Nat := 180224

/-- The older of two entries: lower AGE, then lower HEAT, then lower wing, then lower entry index (R281). -/
def olderEnt (a b : Nat × PageEnt) : Bool :=
  decide (a.2.age < b.2.age) || (a.2.age == b.2.age && (decide (a.2.heat < b.2.heat) || (a.2.heat == b.2.heat && decide (a.1 < b.1))))

/-- The oldest of some entries. -/
def oldestEnt : List (Nat × PageEnt) → Option (Nat × PageEnt)
  | [] => none
  | a :: t => match oldestEnt t with
    | some b => if olderEnt b a then some b else some a
    | none => some a

/-- R277: heat after one access, with HALF_SHIFT h and boundary count b. -/
def heatAfter (h b : Nat) (e : PageEnt) : Nat :=
  let halvings := min 8 (b / 2 ^ h - e.age / 2 ^ h)
  min (e.heat / 2 ^ halvings + 1) 255

/-- An access to a page updates its entry, creating or reclaiming a shadow entry where it has none (R277, R278).
(log 71, DEDUCED) -/
def State.touch (s : State) (w p : Nat) : State :=
  let h := bits (s.reg 0x3000) 3 0
  let b := s.beat.beats
  match tfind s.pages (pageKey w p) with
  | some e => s.setPage w p { e with heat := heatAfter h b e, age := b, seen := s.cyc + 1 }
  | none =>
    let fresh : PageEnt := { tier := if pageTier p = 2 then 3 else 4, heat := 1, age := b, seen := s.cyc + 1 }
    if s.shadowsOn (pageDie p) < spareEntries then s.setPage w p fresh
    else
      match oldestEnt (s.pages.filter fun e => e.2.isShadow && pageDie (e.1 % 2 ^ 34) == pageDie p) with
      | some v => ({ s with pages := tdel s.pages v.1 }.bump 0x30A8).setPage w p fresh
      | none => s

/-- HEAT that R279 compares with FILL_HEAT: 1 when the page has no entry (R278). -/
def State.heatOf (s : State) (w p : Nat) : Nat :=
  match tfind s.pages (pageKey w p) with
  | some e => e.heat
  | none => 1

/-! ## Window cache (R279 to R284) -/

/-- Free window-cache frames of a stack. -/
def State.winFree (s : State) (i : Nat) : Nat := stackWindow s.prof i - s.cachedOn i

/-- Free window-cache frame of a die: in the stack with more of them, the lower-numbered on a tie (R281). -/
def State.freeWin (s : State) (d : Nat) : Option Nat :=
  let a := 3 * d + 1
  let b := 3 * d + 2
  if s.winFree a = 0 ∧ s.winFree b = 0 then none else if s.winFree b > s.winFree a then some b else some a

/-- Pages of a die that may be evicted (R281): none that was accessed in this very cycle (R282), or that a pin waits to take over (R272). -/
def State.eligible (s : State) (d : Nat) : List (Nat × PageEnt) :=
  s.pages.filter fun e =>
    e.2.cached && !e.2.pinned && !e.2.busy && pageDie (e.1 % 2 ^ 34) == d && e.2.seen != s.cyc + 1 && !(s.kvHolds e.1)
      && !(s.accesses.any fun a => pageKey a.wing a.page == e.1) && !(s.pins.any fun x => x.victims.any fun v => v.2 == e.1)

/-- What R281 yields for a fill: a free frame's stack, a victim, or nothing. -/
inductive FrameChoice where
  | free (stack : Nat)
  | victim (key : Nat) (e : PageEnt)
  | none
deriving DecidableEq, Repr

def FrameChoice.ofVictim : Option (Nat × PageEnt) → FrameChoice
  | some v => .victim v.1 v.2
  | Option.none => .none

/-- R281: the frame for a page of a wing on a Hall die. (log 50, DEDUCED) -/
def State.chooseFrame (s : State) (w d : Nat) : FrameChoice :=
  let el := s.eligible d
  let own := oldestEnt (el.filter fun e => e.1 / 2 ^ 34 == w)
  if s.cacheUse w ≥ s.cacheMax w then .ofVictim own
  else
    match s.freeWin d with
    | some i => .free i
    | none =>
      match oldestEnt (el.filter fun e => decide (s.cacheUse (e.1 / 2 ^ 34) > s.cacheMin (e.1 / 2 ^ 34))) with
      | some v => .victim v.1 v.2
      | none => .ofVictim own

/-! ## Annex pages at the neighbour (R278, R447, R453) -/

/-- Port and neighbour page of a page of an Annex range. -/
def State.annexTarget (s : State) (w p : Nat) : Option (Nat × Nat) :=
  match s.rangeAt w p with
  | some r => if r.tier = 3 then some (r.port, r.first + (p - r.base)) else none
  | none => none

/-- Arguments of ANNEX_RD and ANNEX_WR (Table 18-4). -/
def annexArgs (page off len poison : Nat) : Bytes := natLe page 4 ++ natLe off 4 ++ natLe len 4 ++ natLe 0 4 ++ natLe poison 8

/-- Lines of the neighbour's pages that a request names: first line and how many. -/
def BpReq.lines (r : BpReq) : Nat × Nat := ((fld r.args 0 4 * pageSize + fld r.args 4 4) / 64, fld r.args 8 4 / 64)

/-- Whether two requests name a common line. -/
def BpReq.meets (r q : BpReq) : Bool :=
  (r.typ == 0x300 || r.typ == 0x301) && (q.typ == 0x300 || q.typ == 0x301)
    && decide (r.lines.1 < q.lines.1 + q.lines.2) && decide (q.lines.1 < r.lines.1 + r.lines.2)

/-- Sends a page request, or keeps it back while one of its lines is outstanding on the port (R453). -/
def State.sendAnnex (s : State) (p : Nat) (r : BpReq) : State :=
  let b := s.bp p
  if b.reqs.any r.meets || b.deferred.any r.meets then s.setBp p { b with deferred := b.deferred ++ [r] }
  else s.sendRequest p r r.colour (match r.fid with
    | some fid => s.usLeft fid
    | none => 0) true

/-- Pieces of [a, a + n) in whole lines of at most 4,096 bytes; `fuel` bounds them. -/
def annexCuts (a stop : Nat) : Nat → List (Nat × Nat)
  | 0 => []
  | fuel + 1 =>
    if stop ≤ a then []
    else
      let n := min (4096 - a % 4096) (stop - a)
      (a, n) :: annexCuts (a + n) stop fuel

def annexPieces (a n : Nat) : List (Nat × Nat) := annexCuts (a / 64 * 64) (roundUp (a + n) 64) (n / 4096 + 3)

/-- Poison map of lines of a lower tier. -/
def State.lowPoison (s : State) (w a n : Nat) : Nat :=
  ((List.range (n / 64)).map fun i => if s.lowBad.contains (lineKey w (a + 64 * i)) then 2 ^ i else 0).foldl (· + ·) 0

/-- One page request for a piece. -/
def State.annexPiece (s : State) (w cls : Nat) (fid access : Option Nat) (write : Bool) (x : Nat × Nat) : State :=
  match s.annexTarget w (x.1 / pageSize) with
  | none => s
  | some (p, pg) =>
    let t := s.takeTag p
    let colour := match fid.bind s.flight? with
      | some f => f.colour
      | none => 0
    t.1.sendAnnex p
      { tag := t.2, typ := if write then 0x301 else 0x300, fid, wing := w, chan := cls, access, colour
        args := argsOf (annexArgs pg (x.1 % pageSize) x.2 (if write then s.lowPoison w x.1 x.2 else 0))
        payload := if write then getBytes s.low (memKey w x.1) x.2 else [] }

/-- Reads lines of Annex pages from the neighbour, or writes them there from the lower tier's bytes as last known.
(log 66, DEDUCED) -/
def State.annexMove (s : State) (w a n cls : Nat) (fid access : Option Nat) (write : Bool) : State :=
  if pageTier (a / pageSize) = 3 then (annexPieces a n).foldl (fun s x => s.annexPiece w cls fid access write x) s else s

/-- Whether a page is awaited from, or being written to, a neighbour for no single access: a fill or a write-back. -/
def State.annexBusy (s : State) (w p : Nat) : Bool :=
  match s.annexTarget w p with
  | none => false
  | some (port, pg) =>
    ((s.bp port).reqs ++ (s.bp port).deferred).any fun r =>
      (r.typ == 0x300 || r.typ == 0x301) && r.access.isNone && fld r.args 0 4 == pg

/-- Removes the bytes and poison of a page from a table of bytes. -/
def dropPageBytes (t : Tab Byte) (w p : Nat) : Tab Byte := clearBytes t (memKey w (p * pageSize)) pageSize

def pageLines (w p : Nat) (k : Nat) : Bool :=
  decide (lineKey w (p * pageSize) ≤ k) && decide (k < lineKey w (p * pageSize) + pageSize / 64)

/-- A write to an excluded unit ends its exclusion, and so does the page's next write-back (R347). -/
def State.endExclusion (s : State) (w a n : Nat) : State :=
  s.cel fun c => { c with excluded := c.excluded.filter fun u => !((unitsOf w a n).contains u) }

/-- Queues the flash reads of the mapped units of some bytes of a Cellar page. -/
def State.readUnits (s : State) (w cls a n : Nat) (use : FlashUse) : State :=
  if pageTier (a / pageSize) = 2 then (unitsOf w a n).foldl (fun s u => s.flashRead cls u use) s else s

/-- Queues the programs of the units of a Cellar page that its write-back writes: all but the excluded ones (R345, R347). -/
def State.writeUnits (s : State) (w cls p : Nat) : State :=
  if pageTier p = 2 then
    ((unitsOf w (p * pageSize) pageSize).filter fun u => !(s.cellar.excluded.contains u)).foldl (fun s u => s.flashWrite cls u .write) s
  else s

/-- Whether a write of [a, a + n) programs a unit without a read of its rest: it covers the unit, or the rest has been read (R345). -/
def wholeUnit (a n : Nat) (got : List Nat) (u : Nat) : Bool :=
  (decide (a ≤ unitAddr u) && decide (unitAddr u + 16384 ≤ a + n)) || got.contains u

/-- Queues what a write of bytes to the Cellar programs: whole units at once, the others after a read of the rest (R345). -/
def State.throughUnits (s : State) (w cls a n : Nat) (got : List Nat) : State :=
  if pageTier (a / pageSize) = 2 then
    (unitsOf w a n).foldl (fun s u => if wholeUnit a n got u then s.flashWrite cls u .write else s.flashMerge cls u a n) s
  else s

/-- Units of a Cellar write whose rest has to be read from flash first (R345). -/
def State.mergeUnits (s : State) (w a n : Nat) (got : List Nat) : List Nat :=
  if pageTier (a / pageSize) = 2 then
    (unitsOf w a n).filter fun u =>
      !(wholeUnit a n got u) && (s.unitAt u).isSome && !(s.cellar.ops.any fun o => o.renews u && o.use == .write)
  else []

/-- A clean page gives up its frame; its entry keeps heat and age (R281). -/
def State.evict (s : State) (key : Nat) : State :=
  let w := key / 2 ^ 34
  let p := key % 2 ^ 34
  let e := s.page w p
  let s := { s with frm := dropPageBytes s.frm w p, frmBad := s.frmBad.filter fun k => !(pageLines w p k) }
  let s := s.endExclusion w (p * pageSize) pageSize
  (s.setPage w p { tier := if e.tier = 5 then 4 else 3, heat := e.heat, age := e.age }).bump 0x3098

/-- Copies a page's frame to its lower tier, poison with it (R275, R283). -/
def State.copyDown (s : State) (w p : Nat) : State :=
  let a := memKey w (p * pageSize)
  { s with
    low := copyRange s.frm s.low a pageSize a
    lowBad := (s.lowBad.filter fun k => !(pageLines w p k)) ++ s.frmBad.filter fun k => pageLines w p k }

/-- Copies a page's lower tier into its frame, poison with it (R275). -/
def State.copyUp (s : State) (w p : Nat) : State :=
  let a := memKey w (p * pageSize)
  { s with
    frm := copyRange s.low s.frm a pageSize a
    frmBad := (s.frmBad.filter fun k => !(pageLines w p k)) ++ s.lowBad.filter fun k => pageLines w p k }

/-- A write-back begins in a class: DIRTY clears in the cycle the copy begins (R283). A Cellar that takes no writes leaves the page dirty
(R351, R352). -/
def State.startWriteBack (s : State) (key cls : Nat) : State :=
  let w := key / 2 ^ 34
  let p := key % 2 ^ 34
  if pageTier p = 2 ∧ s.cellarStop ≠ none then s
  else
    ((((s.copyDown w p).annexMove w (p * pageSize) pageSize cls none none true).writeUnits w cls p).endExclusion w (p * pageSize) pageSize).setPage
      w p { s.page w p with dirty := false, busy := true, filling := false }

/-- Takes a window-cache frame on a Hall die for a page of a wing: the stack when one can be had without waiting. A clean victim is evicted; a
dirty one starts its write-back and no frame is had (R281). -/
def State.takeWin (s : State) (w d : Nat) : State × Option Nat :=
  match s.chooseFrame w d with
  | .free i => (s, some i)
  | .victim key e => if e.dirty then (s.startWriteBack key 7, none) else (s.evict key, some e.stack)
  | .none => (s, none)

/-- A fill of a page begins in a frame, in the class of the request that caused it (R279). -/
def State.startFill (s : State) (w p stack cls : Nat) : State :=
  let e := s.page w p
  let frame := s.freeFrame w stack
  (((s.useFree.copyUp w p).annexMove w (p * pageSize) pageSize cls none none false).readUnits w cls (p * pageSize) pageSize .fill).setPage w p
    { tier := if pageTier p = 2 then 2 else 5, heat := e.heat, age := e.age, stack, frame, busy := true, filling := true, seen := e.seen }

/-- The address of a line key. -/
def keyAddr (k : Nat) : Nat := k % 2 ^ 46 * 64

/-- First page of the Cellar window that holds internal pages: beyond every Cellar range (R266, log 32, DESIGN CHOICE). -/
def internalBase : Nat := 2 * 2 ^ 30 + 2 ^ 29

/-- Whether a page is internal to the Cellar window. -/
def isInternal (p : Nat) : Bool := decide (internalBase ≤ p) && pageTier p == 2

/-- Whether a page is an internal Cellar page of a collection. -/
def Coll.holdsPage (c : Coll) (p : Nat) : Bool := decide (c.winBase ≤ p) && decide (p < c.winBase + c.winPages)

/-- Whether a page is a page of a DURABLE Cellar range or of a Cellar part of a DURABLE collection (R284). -/
def State.durablePage (s : State) (w p : Nat) : Bool :=
  match s.rangeAt w p with
  | some r => r.durable
  | none => isInternal p && s.colls.any fun e => e.1 / 65536 == w && bit e.2.defn.flags 0 && e.2.holdsPage p

/-- Dirty pages that the dirty budget bounds (R284). -/
def State.durableDirty (s : State) : Nat :=
  (s.pages.filter fun e => e.2.dirty && s.durablePage (e.1 / 2 ^ 34) (e.1 % 2 ^ 34)).length

/-- An access for a read, and the fill it may start (R279): touched, then filled when hot enough and a frame can be had. -/
def State.readAccess (s : State) (w cls p : Nat) : State :=
  let s := s.touch w p
  let e := s.page w p
  if e.resident then s
  else if s.heatOf w p < bits (s.reg 0x3000) 15 8 then s.bump 0x3088
  else
    match s.takeWin w (pageDie p) with
    | (s, some i) => s.startFill w p i cls
    | (s, none) => (s.bump 0x3090).bump 0x3088

/-- Marks bytes of a page that is being filled as written (R280). -/
def State.noteWrote (s : State) (w a n : Nat) : State :=
  let p := a / pageSize
  let e := s.page w p
  if e.filling then
    s.setPage w p { e with wrote := e.wrote ++ [(a % pageSize, n)] }
  else s

/-- Writes bytes into the lower tier and not the cache (R284); poison as the write has it. (log 66, DEDUCED) -/
def State.writeThrough (s : State) (w cls a : Nat) (bs : Bytes) (bad : Bool := false) (got : List Nat := []) : State :=
  let whole := (wholeLines a bs.length).map (lineKey w)
  let s : State := { s with low := putBytes s.low (memKey w a) bs, lowBad := badAfter bad whole (fun _ => true) s.lowBad }
  (s.annexMove w a bs.length cls none none true).throughUnits w cls a bs.length got

/-- What a write to a range gave: DEGRADED, the status of a write that the Cellar did not take (R351, R352), and the units that it covers in
part and has not read (R345). -/
structure Wrote where
  degraded : Bool := false
  stop : Option Status := none
  merge : List Nat := []
deriving DecidableEq, Repr

/-- Both of two writes. -/
def Wrote.both (a b : Wrote) : Wrote := { degraded := a.degraded || b.degraded, stop := a.stop <|> b.stop, merge := a.merge ++ b.merge }

/-- A write that goes through to the lower tier (R280, R284): counted, unless the Cellar takes no writes. -/
def State.goThrough (s : State) (w cls a : Nat) (bs : Bytes) (bad : Bool := false) (got : List Nat := []) : State × Wrote :=
  match (if pageTier (a / pageSize) = 2 then s.cellarStop else none) with
  | some st => (s, { stop := some st })
  | none =>
    ((s.writeThrough w cls a bs bad got).bump (wngReg w 0x2188), { degraded := true, merge := s.mergeUnits w a bs.length got })

/-- Applies a write in a frame (R280, R284): the page becomes dirty, or the write goes through as well when the dirty budget is
full. -/
def State.writeFrame (s : State) (w cls a : Nat) (bs : Bytes) (past : Bool) (bad : Bool := false) (got : List Nat := []) :
    State × Wrote :=
  let p := a / pageSize
  let put := fun (s : State) => ((s.tierPut w a bs bad).noteWrote w a bs.length).endExclusion w a bs.length
  if past then
    let r := s.goThrough w cls a bs bad got
    if r.2.stop.isSome then r else (put r.1, r.2)
  else
    let s := put s
    (s.setPage w p { s.page w p with dirty := true }, {})

/-- A write of bytes within one page of a range (R280, R284): through the cache where a frame can be had, else through to the lower
tier. -/
def State.writePage (s : State) (w cls a : Nat) (bs : Bytes) (bad : Bool := false) (got : List Nat := []) : State × Wrote :=
  let p := a / pageSize
  let s := s.touch w p
  let e := s.page w p
  if e.tier = 1 then (s.tierPut w a bs bad, {})
  else
    let past := s.durablePage w p && !e.dirty && decide (s.durableDirty + 1 > s.dirtyBudget)
    if e.cached then s.writeFrame w cls a bs past bad got
    else
      match s.takeWin w (pageDie p) with
      | (s, some i) => (s.startFill w p i cls).writeFrame w cls a bs past bad got
      | (s, none) => s.goThrough w cls a bs bad got

/-- A write of bytes that may cross pages; `fuel` bounds the pages. -/
def State.writeTier (s : State) (w cls a : Nat) (bs : Bytes) (got : List Nat := []) : Nat → State × Wrote
  | 0 => (s, {})
  | fuel + 1 =>
    if bs = [] then (s, {})
    else
      let n := pageSize - a % pageSize
      let r := s.writePage w cls a (bs.take n) false got
      let q := r.1.writeTier w cls (a + n) (bs.drop n) got fuel
      (q.1, r.2.both q.2)

/-- Touches the pages of a read. -/
def State.readTouch (s : State) (w cls a n : Nat) : State := (pagesOf a n).foldl (fun s p => s.readAccess w cls p) s

/-- Poisons the line at an address, at the neighbour too where an Annex page is not cached (R275, R378, R380). -/
def State.poisonFar (s : State) (w a : Nat) : State :=
  let t := s.poisonLine w a
  if (s.page w (a / pageSize)).resident then t else t.annexMove w (a / 64 * 64) 64 7 none none true

/-! ## Injection (R507) -/

/-- An armed injection meets the next access for the wing to its line: KIND 1 poisons the line, KIND 2 counts a corrected error.
The result says whether the line was just poisoned. -/
def State.meetInjection (s : State) (w a n : Nat) : State × Bool :=
  let inj := s.reg 0x2020
  let at_ := s.reg 0x2028
  if s.err.armed && bits inj 11 8 == w && decide (a / 64 * 64 ≤ at_) && decide (at_ < a + n) then
    let s := { s with err := { s.err with armed := false } }
    if bits inj 1 0 = 1 then (s.poisonFar w at_, true)
    else if bits inj 1 0 = 2 then
      let st := (s.page w (at_ / pageSize)).stack
      if (s.page w (at_ / pageSize)).resident then ((s.bump 0x2040).bump (stkReg st 0x40), false) else (s, false)
    else (s, false)
  else (s, false)

/-! ## Lines that hosts hold, pages that are being filled (R279, R371) -/

/-- Whether a line key lies in bytes [a, a + n) of a wing. -/
def lineIn (w a n k : Nat) : Bool := decide (memKey w a < 64 * k + 64) && decide (64 * k < memKey w a + n)

/-- Sends a snoop, unless one for the line is outstanding at the port (R371). -/
def State.sendSnoop (s : State) (port line : Nat) (inv : Bool) : State :=
  if s.snoops.any fun x => x.port == port && x.line == line && (x.inv || !inv) then s
  else
    let x : Snoop := { id := s.nextId, port, line, inv, sent := s.cyc }
    let s := { s with snoops := s.snoops ++ [x], nextId := s.nextId + 1 }
    (s.emit (.snoop port line inv)).bump (hpReg port 0x58)

/-- Whether a host owns a line of some bytes. -/
def State.ownedIn (s : State) (w a n : Nat) : Bool := s.dir.any fun e => e.owner.isSome && lineIn w a n e.line

/-- Whether a host holds a line of some bytes. -/
def State.heldIn (s : State) (w a n : Nat) : Bool := s.dir.any fun e => lineIn w a n e.line

/-- Asks the owner of each line of some bytes for its data (R371). -/
def State.askOwners (s : State) (w a n : Nat) : State :=
  (s.dir.filter fun e => lineIn w a n e.line).foldl (fun s e => match e.owner with
    | some p => s.sendSnoop p e.line false
    | none => s) s

/-- Takes each line of some bytes from every holder (R371). -/
def State.askHolders (s : State) (w a n : Nat) : State :=
  (s.dir.filter fun e => lineIn w a n e.line).foldl (fun s e => e.holders.foldl (fun s p => s.sendSnoop p e.line true) s) s

/-- Whether a page of some bytes is being filled. -/
def State.fillingIn (s : State) (w a n : Nat) : Bool := (pagesOf a n).any fun p => (s.page w p).filling

/-- Cause of Table 11-11 of an access to a page, by its tier. -/
def pageCause (p : Nat) : Nat := if pageTier p = 2 then 1 else if pageTier p = 3 then 3 else 0

/-- Who makes an access: a descriptor, a brick or a CXL.mem request, which has its window's class. -/
structure Who where
  fid : Option Nat := none
  brick : Option Nat := none
  mem : Option (Nat × Nat) := none
deriving DecidableEq, Repr

/-- The class an access travels in: the descriptor's, or the program's (R418). -/
def State.whoCls (s : State) (y : Who) : Nat :=
  match y.fid.bind s.flight?, y.brick.bind fun b => (tget {} s.bricks b).prog.bind (tfind s.progs) with
  | some f, _ => f.cls
  | _, some p => p.ptc
  | _, _ => match y.mem with
    | some m => m.2
    | none => 7

/-- Whether an access is this one's, to one of some pages of a wing. -/
def Access.isBy (x : Access) (y : Who) (w : Nat) (ps : List Nat) : Bool :=
  x.fid == y.fid && x.brick == y.brick && x.mem == y.mem.map Prod.fst && x.tag == 0 && x.wing == w && ps.contains x.page

/-- Whether an access to some bytes has been issued and waits. -/
def State.issued (s : State) (y : Who) (w a n : Nat) : Bool := s.accesses.any fun x => x.isBy y w (pagesOf a n)

/-- Whether some bytes of a page are to be had only from the neighbour or from flash: it is not in a frame, and is an Annex page or
has a mapped unit among those bytes (R279, R346). -/
def State.atLower (s : State) (w a n : Nat) : Bool :=
  !(s.page w (a / pageSize)).resident && match pageTier (a / pageSize) with
    | 3 => true
    | 2 => (unitsOf w a n).any fun u => (s.unitAt u).isSome
    | _ => false

/-- The part of [a, a + n) that lies in page p, as address and length. -/
def inPage (a n p : Nat) : Nat × Nat :=
  let lo := max a (p * pageSize)
  (lo, min (a + n) (p * pageSize + pageSize) - lo)

/-- Answers that an access to a part of a page waits for: of the neighbour, one for each piece; of flash, one for each mapped unit. -/
def State.answersDue (s : State) (w a n : Nat) : Nat :=
  if !(s.atLower w a n) then 0
  else if pageTier (a / pageSize) = 3 then (annexPieces a n).length
  else ((unitsOf w a n).filter fun u => (s.unitAt u).isSome).length

/-- Records an access that waits, one for each page (R287); what a read needs from a lower tier is asked of it. -/
def State.issue (s : State) (y : Who) (w a n : Nat) (read : Bool) : State :=
  (pagesOf a n).foldl (fun s p =>
    if s.accesses.any (fun x => x.isBy y w [p]) then s
    else
      let part := inPage a n p
      let x : Access :=
        { id := s.nextId, wing := w, fid := y.fid, page := p, cause := pageCause p, issued := s.cyc, brick := y.brick, mem := y.mem.map Prod.fst
          left := if read then s.answersDue w part.1 part.2 else 0 }
      let far := read && s.atLower w part.1 part.2
      let s := { s with accesses := s.accesses ++ [x], nextId := s.nextId + 1 }
      if far then
        (s.annexMove w part.1 part.2 (s.whoCls y) y.fid (some x.id) false).readUnits w (s.whoCls y) part.1 part.2 (.access x.id)
      else s) s

/-- Whether an access still awaits its lower tier, or has not asked it yet. -/
def State.farAway (s : State) (y : Who) (w a n : Nat) : Bool :=
  (pagesOf a n).any fun p =>
    let part := inPage a n p
    s.atLower w part.1 part.2 && !(s.accesses.any fun x => x.isBy y w [p] && x.left == 0)

/-- Whether an access of this one to some bytes failed in its lower tier (R350). -/
def State.failedRead (s : State) (y : Who) (w a n : Nat) : Bool := s.accesses.any fun x => x.isBy y w (pagesOf a n) && x.failed

/-- An access that waited is over. -/
def State.endAccess (s : State) (y : Who) (w a n : Nat) : State :=
  { s with accesses := s.accesses.filter fun x => !(x.isBy y w (pagesOf a n)) }

/-- Whether some page of bytes [a, a + n) lies in a range that is being freed and does not wait for a descriptor (R270). -/
def State.freeing (s : State) (fid : Option Nat) (w a n : Nat) : Bool :=
  (pagesOf a n).any fun p => match s.rangeAt w p with
    | some r => r.freeFrom.isSome && !(r.freeFor.any fun i => fid == some i)
    | none => false

/-- Whether bytes lie in a range that is being freed, for a descriptor that is not admitted yet (R270). -/
def State.freedUnder (s : State) (y : Who) (w a n : Nat) : Bool :=
  s.freeing y.fid w a n && match y.fid.bind s.flight? with
    | some f => f.phase == .ready
    | none => false

/-- Whether an access is the read of a unit's rest for a write (R345). -/
def Access.isMerge (x : Access) (y : Who) (w u : Nat) : Bool :=
  x.fid == y.fid && x.brick == y.brick && x.mem == y.mem.map Prod.fst && x.wing == w && x.tag == 2 ^ 64 + u

/-- Asks flash for the rest of units that a write covers in part. -/
def State.askMerge (s : State) (y : Who) (w : Nat) (us : List Nat) : State :=
  us.foldl (fun s u =>
    if s.accesses.any (fun x => x.isMerge y w u) then s
    else
      let x : Access :=
        { id := s.nextId, wing := w, fid := y.fid, page := unitAddr u / pageSize, cause := 1, issued := s.cyc, brick := y.brick
          mem := y.mem.map Prod.fst, left := 1, tag := 2 ^ 64 + u, miss := true }
      { s with accesses := s.accesses ++ [x], nextId := s.nextId + 1 }.flashRead (s.whoCls y) u (.access x.id)) s

/-- The reads that an access has made for its write. -/
def State.merges (s : State) (y : Who) (w : Nat) : List Access := s.accesses.filter fun x => x.isMerge y w (x.tag - 2 ^ 64)

/-- Units whose rest has come. -/
def State.mergedBy (s : State) (y : Who) (w : Nat) : List Nat :=
  ((s.merges y w).filter fun x => x.left == 0).map fun x => x.tag - 2 ^ 64

/-- Whether a read for a write failed: the write ends with MEDIA_ERROR (R350). -/
def State.mergeFailed (s : State) (y : Who) (w : Nat) : Bool := (s.merges y w).any Access.failed

def State.endMerge (s : State) (y : Who) (w : Nat) : State :=
  { s with accesses := s.accesses.filter fun x => !(x.isMerge y w (x.tag - 2 ^ 64)) }

/-- Whether an access through the window still waits: for a fill, or for flash. -/
def State.winWaits (s : State) (x : Access) : Bool := x.left != 0 || (s.page x.wing x.page).filling

/-- Whether an access is outstanding: one to an internal page whose bytes have come is over, though its step has not gone on yet. -/
def State.stillOut (s : State) (x : Access) : Bool := x.tag == 0 || decide (2 ^ 60 ≤ x.page) || s.winWaits x

/-- Cycles after which an access of a cause is late (Table 11-11). -/
def lateAfter (cause : Nat) : Nat := if cause = 0 then 6000 else if cause = 1 then 600000 else if cause = 3 then 30000 else 0

def markStalled (id cause : Nat) (x : Access) : Access := if x.id = id then { x with stalled := true, cause } else x

/-- An access starts to stall under a cause: counted once, against its wing and its descriptor (R287, R288). -/
def State.stallAccess (s : State) (a : Access) (cause : Nat) : State :=
  let s := { s with accesses := s.accesses.map (markStalled a.id cause) }
  let s := s.bump (wngReg a.wing (0x2100 + 16 * cause))
  match a.fid with
  | some fid => s.modFlight fid fun f => { f with stalled := true }
  | none => s

/-! ## Regions of range pages (R297, R299, R303) -/

/-- The region of a compute stack in whose frames a page of a Floor range lies (R292). -/
def State.pageRegion (s : State) (w p : Nat) : Option Nat :=
  let e := s.page w p
  if e.tier = 1 then (e.at_ w).region else none

/-- The whole region that the 2 MiB span of a page of a region range maps to (R299). -/
def State.spanRegion (s : State) (w p : Nat) : Option Nat :=
  match s.rangeAt w p with
  | some r => r.regions[(p - r.base) / 8]?
  | none => none

/-- Whether a region holds a page of a Floor range (R302). -/
def State.holdsRange (s : State) (k : Nat) : Bool :=
  s.pages.any fun e => e.2.tier == 1 && (e.2.at_ (e.1 / 2 ^ 34)).region == some k

/-- Whether a page lies in a region of a state. -/
def State.pageIn (s : State) (st : RegionSt) (w p : Nat) : Bool :=
  match s.pageRegion w p with
  | some k => (s.region k).st == st
  | none => false

/-- Whether a bank unit that holds a region runs a refresh: it takes precedence over accesses (R316, R420). (log 117, DESIGN CHOICE) -/
def State.refreshing (s : State) (k : Nat) : Bool := decide (s.cyc < tget 0 s.refreshTill (k / 36864 * 64 + k % 64))

/-- Whether accesses to a region wait: it is being sealed (R297), or its unit runs a refresh. -/
def State.floorShut (s : State) (k : Nat) : Bool := (s.region k).st == .sealing || s.refreshing k

/-- Whether some bytes lie in a region whose accesses wait (R297, R420). -/
def State.floorBusy (s : State) (w a n : Nat) : Bool := (pagesOf a n).any fun p => match s.pageRegion w p with
  | some k => s.floorShut k
  | none => false

end Sys2Proof.Machine
end

