-- ==== Sys2Proof/Machine/Hostlink.lean ====
section
/-!
DEFINITION. Host windows and the shared-line directory (15): the fields of a window, which window a DPA reaches, where windows lie in a
wing's tiers, holders and owners of lines, credits of ports.
-/
namespace Sys2Proof.Machine
open Sys2Proof

def winAReg (p w : Nat) : Nat := hpReg p (0x100 + 16 * w)
def winBReg (p w : Nat) : Nat := hpReg p (0x108 + 16 * w)

/-- The window that two register values spell. -/
def winFields (a b : Nat) : HostWin :=
  { valid := bit a 0, shared := bit a 1, tc := bits a 4 2, wing := bits a 11 8, base := bits a 51 18, pages := bits b 31 0
    dpa := bits b 58 32 }

def State.hostWin (s : State) (p w : Nat) : HostWin := winFields (s.reg (winAReg p w)) (s.reg (winBReg p w))

/-- Whether two runs of pages overlap. -/
def runsMeet (a n b m : Nat) : Bool := decide (a < b + m) && decide (b < a + n)

/-- Ports and windows, in order. -/
def allWins : List (Nat × Nat) := ((List.range 8).map fun p => (List.range 16).map fun w => (p, w)).flatten

/-- Whether a window is VALID or being removed. -/
def State.winInUse (s : State) (p w : Nat) : Bool := (s.hostWin p w).valid || (s.port p).winBusy.contains w

/-- Whether a window in use maps a page of a run of a wing's pages (R369). -/
def State.windowsOn (s : State) (wing base pages : Nat) : Bool :=
  allWins.any fun x =>
    let h := s.hostWin x.1 x.2
    s.winInUse x.1 x.2 && h.wing == wing && runsMeet h.base h.pages base pages

/-- The VALID window of a port that a DPA reaches (R367). -/
def State.winOfDpa (s : State) (p dpa : Nat) : Option Nat :=
  (List.range 16).find? fun w =>
    let h := s.hostWin p w
    h.valid && decide (h.dpa ≤ dpa / pageSize) && decide (dpa / pageSize < h.dpa + h.pages)

/-- The tier address a DPA reaches through a window (R367). -/
def HostWin.tierAddr (h : HostWin) (dpa : Nat) : Nat := h.base * pageSize + (dpa - h.dpa * pageSize)

/-- Whether a line key lies in the tier span of a window. -/
def HostWin.hasLine (h : HostWin) (k : Nat) : Bool := lineIn h.wing (h.base * pageSize) (h.pages * pageSize) k

/-! ## Poisoned lines (R502, R503) -/

/-- DPA of a tier address through a window. -/
def HostWin.dpaOf (h : HostWin) (a : Nat) : Nat := h.dpa * pageSize + (a - h.base * pageSize)

/-- A line poisoned within host windows is a General Media Event in the Failure log of each window's LD (R503).
(log 76, DEDUCED) -/
def State.mediaEvent (s : State) (w a : Nat) : State :=
  allWins.foldl (fun s x =>
    let h := s.hostWin x.1 x.2
    if h.valid && h.wing == w && h.hasLine (lineKey w a) then s.logRecord x.1 2 { code := 0, unit := 0, dpa := some (h.dpaOf (a / 64 * 64)) }
    else s) s

/-- The record of a line poisoned under R495 or by injection (R502). (log 76, DEDUCED) -/
def State.lineRecord (s : State) (w a : Nat) : State :=
  (s.wingRecord w 1 1 (a / 64 * 64) 1 (s.page w (a / pageSize)).stack ({} : Note).detail).mediaEvent w a

/-- An access to bytes of a wing meets an armed injection first (R507); a line that it poisons is recorded. (log 76, DEDUCED) -/
def State.injected (s : State) (w a n : Nat) : State :=
  let r := s.meetInjection w a n
  if r.2 then r.1.lineRecord w (r.1.reg 0x2028) else r.1

/-! ## The directory (R371, R372) -/

def State.dirEnt? (s : State) (k : Nat) : Option DirEnt := s.dir.find? fun e => e.line == k

/-- Removes a port from a line; an entry without holders goes. -/
def State.dropHolder (s : State) (p k : Nat) : State :=
  { s with
    dir := (s.dir.map fun e => if e.line = k then
      { e with holders := e.holders.filter fun x => x != p, owner := e.owner.filter fun x => x != p } else e).filter
        fun e => !e.holders.isEmpty }

/-- Removes ownership of a line, which its owner keeps a copy of. -/
def State.dropOwner (s : State) (k : Nat) : State := { s with dir := s.dir.map fun e => if e.line = k then { e with owner := none } else e }

/-- Grants a line to a port, as owner or as holder. (log 75, DEDUCED) -/
def State.grantLine (s : State) (p k : Nat) (own : Bool) : State :=
  match s.dirEnt? k with
  | some _ =>
    { s with
      dir := s.dir.map fun e => if e.line = k then
        { e with holders := insertNew e.holders p, owner := if own then some p else e.owner, stamp := s.stamp } else e
      stamp := s.stamp + 1 }
  | none =>
    let e : DirEnt := { line := k, holders := [p], owner := if own then some p else none, stamp := s.stamp }
    { s with
      dir := s.dir ++ [e], stamp := s.stamp + 1
      dirMost := max s.dirMost (s.dir.length + 1) }

/-- The entry whose grant is oldest (R372). -/
def oldestGrant : List DirEnt → Option DirEnt
  | [] => none
  | e :: t => match oldestGrant t with
    | some x => if x.stamp < e.stamp then some x else some e
    | none => some e

/-- Entries of the directory (R371). -/
def dirSize : Nat := 8388608

end Sys2Proof.Machine
end

