-- ==== Sys2Proof/Machine/Operands.lean ====
section
/-!
DEFINITION. Operand forms: where a descriptor's sources lie and what reading them gives, its result area, and the checks of
reserved bytes and of alignment that descriptors share.
-/
namespace Sys2Proof.Machine
open Sys2Proof

/-- What reading a source gave: its bytes, or the status the descriptor completes with and what its error record names; no status
where the read waits for a fill or for a host to return a line (R279, R371), and the command may come again. -/
inductive SrcRes where
  | bytes (b : Bytes)
  | stop (st : Option Status) (n : Option Note)
deriving DecidableEq, Repr

/-- The note of a line of a wing's tier space (R502). -/
def tierNote (s : State) (w a : Nat) : Note :=
  { kind := 1, unit := (s.page w (a / pageSize)).stack, addr := a / 64 * 64 }

/-- The note of a lost Annex range: its port. -/
def State.lostNote (s : State) (w a n : Nat) : Note :=
  match (pagesOf a n).find? fun p => match s.rangeAt w p with
    | some r => r.lost
    | none => false with
  | some p => match s.rangeAt w p with
    | some r => { kind := 6, unit := r.port, addr := p * pageSize }
    | none => {}
  | none => {}

/-- Whether checks that are made again after a wait have read some bytes before (R277). -/
def State.touchedBy (s : State) (y : Who) (a n : Nat) : Bool :=
  match y.fid.bind s.flight? with
  | some f => f.phase == .ready && f.touched.contains (a, n)
  | none => false

/-- Notes the bytes that a descriptor's checks read. -/
def State.noteTouched (s : State) (y : Who) (a n : Nat) : State :=
  match y.fid with
  | some fid => s.modFlight fid fun f => { f with touched := f.touched ++ [(a, n)] }
  | none => s

/-- Reads n bytes of a wing's tier ranges: INVALID outside its ranges, MEDIA_ERROR in a lost one (R446), POISONED on a poisoned line
(R498). Every page is touched once (R277), and an armed injection is met (R507). While a page is being filled, its region sealed, a line owned by a host,
or bytes still to come from a neighbour or from flash, the read waits (R279, R297, R371, R447). -/
def State.readRange (s : State) (y : Who) (w a n : Nat) : State × SrcRes :=
  if !(s.inRanges w a n) || s.freedUnder y w a n then (s, .stop (some .invalid) none)
  else if s.inLost w a n then (s.endAccess y w a n, .stop (some .mediaError) (some (s.lostNote w a n)))
  else
    let s := if s.issued y w a n || s.touchedBy y a n then s else ((s.injected w a n).readTouch w (s.whoCls y) a n).noteTouched y a n
    if s.fillingIn w a n || s.floorBusy w a n || s.ownedIn w a n || s.farAway y w a n then ((s.askOwners w a n).issue y w a n true, .stop none none)
    else if s.failedRead y w a n then
      (s.endAccess y w a n, .stop (some .mediaError) (some { kind := 2, addr := a }))
    else
      let s := s.endAccess y w a n
      match s.firstPoison w a n with
      | some x => (s, .stop (some .poisoned) (some (tierNote s w x)))
      | none => (s, .bytes (s.tierBytes w a n))

/-- Reads n bytes of host memory as a DMA read gave them (R389, R498). -/
def dmaSrc (d : Dma) (n : Nat) : SrcRes :=
  match d with
  | .ok b => .bytes (slice b 0 n)
  | .poisoned => .stop (some .poisoned) none
  | .media => .stop (some .mediaError) none
  | .failed => .stop (some .aborted) none

/-- Reads a source: kind 0 host memory, 1 a tier range of the wing, 2 the descriptor's continuation entries from `off` (R80). -/
def State.readSrc (s : State) (f : Flight) (kind a n : Nat) (d : Dma) (off : Nat) : State × SrcRes :=
  if n = 0 then (s, .bytes [])
  else if kind = 0 then (s, if (s.port (s.flightPort f)).st = .failed then .stop (some .aborted) none else dmaSrc d n)
  else if kind = 1 then s.readRange { fid := some f.fid } f.wing a n
  else (s, .bytes (slice f.cont off n))

/-- Completes a descriptor that cannot read a source; one that waits stays as it is. (log 41, DEDUCED) -/
def State.stopAt (s : State) (fid : Nat) (st : Option Status) (n : Option Note) : State :=
  match st with
  | none => s
  | some st =>
    (match n with
      | some n => s.noteAt fid n
      | none => s).fixSt fid st

/-- Writes n bytes of a result at an offset of the descriptor's result area. -/
def State.result (s : State) (f : Flight) (off : Nat) (bs : Bytes) : State :=
  s.hostWrite (s.flightPort f) (f.resultArea.1 + off) bs

/-- Whether the body bytes listed as (offset, length) are 0 (R11). -/
def Flight.zero (f : Flight) (l : List (Nat × Nat)) : Bool := l.all fun x => zeroAt f.raw x.1 x.2

/-- Whether a 64-byte aligned address lies in a field. -/
def aligned64 (a : Nat) : Bool := decide (a % 64 = 0)

/-- A field value between two bounds (R12). -/
def inside (lo hi x : Nat) : Bool := decide (lo ≤ x) && decide (x ≤ hi)

/-- Bytes of a query element (Table 04-4). -/
def fmtBytes (q : Nat) : Nat := if q = 0 then 4 else 2

/-- A query element as FP32 (Table 04-4). -/
def fmtElem (q : Nat) (bs : Bytes) : Word32 :=
  if q = 0 then fround (fp32.decode (leNat bs)) else if q = 1 then fOf bf16 (leNat bs) else fOf fp16 (leNat bs)

/-- Elements of a vector in a query format. -/
def fmtVec (q n : Nat) (bs : Bytes) : List Word32 := (List.range n).map fun i => fmtElem q (slice bs (i * fmtBytes q) (fmtBytes q))

/-- Whether every element is finite (R82). -/
def allFinite (l : List Word32) : Bool := l.all fIsFin

end Sys2Proof.Machine
end

