-- ==== Sys2Proof/Machine/Intake.lean ====
section
/-!
DEFINITION. Intake (16, 17): which ring is fetched next, how many continuation entries a descriptor claims, the header checks, the
meters, FENCE and CHAIN.
-/
namespace Sys2Proof.Machine
open Sys2Proof

/-! ## Rings -/

def sqSize (cfg : Nat) : Nat := 2 ^ sqSizeLog cfg

/-- Distance b - a of two pointers of a ring of S entries, modulo 2S (R390). -/
def ringDist (S a b : Nat) : Nat := (b + 2 * S - a % (2 * S)) % (2 * S)

/-- Entries between HEAD and TAIL of a submission ring. -/
def State.sqAvail (s : State) (w q : Nat) : Nat := ringDist (sqSize (s.sqCfg w q)) (s.sq w q).head (s.sq w q).tail

/-- Entries of a completion ring that are occupied. -/
def State.cqUsed (s : State) (w c : Nat) : Nat := ringDist (sqSize (s.cqCfg w c)) (s.cq w c).head (s.cq w c).tail

/-- Completion slots of a ring reserved by descriptors in flight (R397). -/
def State.cqReserved (s : State) (w c : Nat) : Nat :=
  ((s.wingFlights w).filter fun f => sqCq (s.sqCfg w f.sq) == c).length

/-- Whether a completion ring has a slot neither occupied nor reserved (R397). -/
def State.cqRoom (s : State) (w c : Nat) : Bool := decide (s.cqUsed w c + s.cqReserved w c < sqSize (s.cqCfg w c))

/-- R398: whether a ring of a class may take an in-flight place of the wing. -/
def placeFree (t o tc : Nat) : Bool := if tc = 0 then decide (t + o < 16384) else decide (o + max t 1024 < 16384)

/-- R398 for a ring, with its own limit. -/
def State.hasPlace (s : State) (w q : Nat) : Bool :=
  let fl := s.wingFlights w
  let t := (fl.filter Flight.tc0Place).length
  let cfg := s.sqCfg w q
  placeFree t (fl.length - t) (sqTc cfg)
    && (sqMaxInflight cfg == 0 || decide ((s.ringFlights w q).length < sqMaxInflight cfg))

/-- Whether Intake is at work: not stopped by a fatal error (R496) nor quiesced by a flush (R353). -/
def State.intakeOn (s : State) : Bool := !s.err.fatal && s.power.flush.isNone

/-- Whether a submission ring has work that Intake may look at: it, its wing and its completion ring are ENABLED, its port too, and
TAIL covers the entries its next descriptor is known to need (R80, R389, R397). (log 36, DEDUCED) -/
def State.sqWork (s : State) (w q : Nat) : Bool :=
  let r := s.sq w q
  let cfg := s.sqCfg w q
  r.en == .enabled && s.wingSt w == .enabled && (s.cq w (sqCq cfg)).en == .enabled
    && (s.port (sqPort cfg)).st == .enabled && decide (0 < s.sqAvail w q) && decide (r.needs ≤ s.sqAvail w q)

/-- R397: whether a ring may be fetched from now. -/
def State.fetchable (s : State) (w q : Nat) : Bool :=
  s.sqWork w q && s.cqRoom w (sqCq (s.sqCfg w q)) && s.hasPlace w q

/-- The rings of a wing and class that may be fetched from. -/
def State.fetchRings (s : State) (tc w : Nat) : List Nat :=
  (List.range 64).filter fun q => sqTc (s.sqCfg w q) == tc && s.fetchable w q

/-- In an ascending list, the first number from `start` on, else the first. -/
def nextFrom (start : Nat) (l : List Nat) : Option Nat :=
  match l.find? fun x => decide (start ≤ x) with
  | some x => some x
  | none => l.head?

/-- Within a class, the wing and ring whose turn it is (R397). -/
def State.fetchInClass (s : State) (tc : Nat) : Option (Nat × Nat) :=
  match nextFrom (tget 0 s.rotWing tc) ((List.range 16).filter fun w => !(s.fetchRings tc w).isEmpty) with
  | some w =>
    match nextFrom (tget 0 s.rotRing (tc * 16 + w)) (s.fetchRings tc w) with
    | some q => some (w, q)
    | none => none
  | none => none

/-- The ring that Intake fetches from next (R397): strict priority of SQ_CFG.TC, rotation among wings and then rings. -/
def State.nextFetch (s : State) : Option (Nat × Nat) :=
  if s.intakeOn then (List.range 8).findSome? fun tc => s.fetchInClass tc else none

/-! ## Descriptors and continuation entries (R80, R393, R395) -/

/-- The opcodes the chapters list (R395). -/
def opcodes : List Nat :=
  [0x100, 0x101, 0x200, 0x201, 0x210, 0x211, 0x212, 0x280, 0x281, 0x282, 0x283, 0x284, 0x300, 0x310, 0x311, 0x312, 0x313, 0x314,
   0x315, 0x318, 0x400, 0x401, 0x402, 0x410, 0x420, 0x430, 0x440, 0x450, 0x500, 0x501, 0x502, 0x503, 0x504, 0x505] ++
  [0x600, 0x610, 0x611, 0x620, 0x621, 0x622, 0x630, 0x631, 0x700, 0x701, 0x710, 0x711, 0x720, 0x721, 0x730, 0x731, 0x800, 0x801,
   0x810, 0x900, 0x940, 0x941, 0x942, 0x950]

/-- Size of a local block (R170): LOCAL keys of `heads` vectors of `d` elements and values of `dv`, in a query format. -/
def localBytes (n heads d dv q : Nat) : Nat :=
  roundUp (roundUp (n * heads * d * fmtBytes q) 64 + n * heads * dv * fmtBytes q) 64 + roundUp (2 * n) 64

/-- Ring entries of an inline source. -/
def entriesOf (n : Nat) : Nat := cdiv n 128

/-- Continuation entries of a query and of a filter or local block: each source outside 0 to 2, or an uncountable length, makes
them uncountable (R393). -/
def twoSources (k1 : Nat) (n1 : Option Nat) (k2 : Nat) (n2 : Option Nat) : Option Nat :=
  if k1 > 2 ∨ k2 > 2 then none
  else
    match (if k1 = 2 then n1 else some 0), (if k2 = 2 then n2 else some 0) with
    | some a, some b => some (entriesOf a + entriesOf b)
    | _, _ => none

def optIf (c : Bool) (n : Nat) : Option Nat := if c then some n else none

/-- Continuation entries that a descriptor claims; none when they cannot be counted (R80, R393).
(log 36, DEDUCED; log 65, DEDUCED) -/
def State.contCount (s : State) (w : Nat) (raw : Bytes) : Option Nat :=
  let op := hOpcode raw
  let h := hHandle raw
  let u := fun o n => fld raw o n
  if op = 0x100 ∨ op = 0x101 then
    if u 31 1 ≠ 2 ∧ u 57 1 ≠ 2 ∧ u 31 1 < 3 ∧ u 57 1 < 3 then some 0
    else if h ≥ 4096 then none
    else
      match tfind s.colls (objKey w h) with
      | none => none
      | some c =>
        let q := u 30 1
        twoSources (u 31 1) (optIf (decide (q ≤ 2)) (c.defn.dim * fmtBytes q)) (u 57 1)
          (optIf (decide (u 58 2 = 16 * u 56 1) && inside 1 32 (u 56 1)) (u 58 2))
  else if op = 0x300 then
    if u 31 1 ≠ 2 ∧ u 62 1 ≠ 2 ∧ u 31 1 < 3 ∧ u 62 1 < 3 then some 0
    else if h ≥ 4096 then none
    else
      match tfind s.colls (objKey w h) with
      | none => none
      | some c =>
        let q := u 30 1
        let ok := decide (q ≤ 2) && inside 1 64 (u 52 1)
        twoSources (u 31 1) (optIf (ok && inside 1 16 (u 53 1)) (u 53 1 * u 52 1 * c.defn.dim * fmtBytes q)) (u 62 1)
          (optIf (ok && inside 1 1024 (u 60 2) && inside 64 4096 (u 84 2) && decide (u 84 2 % 64 = 0))
            (localBytes (u 60 2) (u 52 1) c.defn.dim (u 84 2) q))
  else if op = 0x312 then
    if u 19 1 ≠ 2 ∧ u 58 1 ≠ 2 ∧ u 19 1 < 3 ∧ u 58 1 < 3 then some 0
    else if h ≥ 16384 then none
    else
      match tfind s.sessions (objKey w h) with
      | none => none
      | some e =>
        let q := u 18 1
        twoSources (u 19 1) (optIf (decide (q ≤ 2) && inside 1 16 (u 60 1)) (u 60 1 * e.hkv * e.group * e.dh * fmtBytes q))
          (u 58 1) (optIf (decide (q ≤ 2) && inside 1 1024 (u 56 2)) (localBytes (u 56 2) e.hkv e.dh e.dh q))
  else if op = 0x504 then
    if h < 256 ∧ (tfind s.progs (objKey w h)).isSome = true then
      twoSources (u 24 1) (optIf (decide (u 18 2 ≤ 4096) && decide (u 18 2 % 8 = 0)) (u 18 2)) 0 none
    else if u 24 1 < 2 then some 0 else none
  else if op = 0x621 then
    if h < 65536 ∧ (tfind s.streams (objKey w h)).isSome = true then
      twoSources (u 16 1) (optIf (inside 1 4096 (u 20 4)) (4 * u 20 4)) 0 none
    else if u 16 1 < 2 then some 0 else none
  else if op = 0x410 then
    if h < 65536 ∧ (tfind s.embs (objKey w h)).isSome = true then
      twoSources (u 19 1) (optIf (inside 1 65536 (u 20 4)) (4 * u 20 4)) 0 none
    else if u 19 1 < 2 then some 0 else none
  else some 0

/-- The header checks (R399): HDR_VER, OPCODE, COLOUR, TIMEOUT_US and TC. -/
def headerOk (cfg : Nat) (raw : Bytes) : Bool :=
  decide (hVer raw = 1) && opcodes.contains (hOpcode raw) && decide (hColour raw ≠ 3) && decide (hTimeout raw ≤ 10000000)
    && decide (sqTc cfg ≤ hTc raw)

/-! ## Meters (R421 to R427) -/

/-- Offset of a meter's registers: set 0 the ring meters, 1 the Bruvia meters. -/
def meterReg (w set c o : Nat) : Nat := wngReg w (0x2400 + 0x200 * set + 0x40 * c + o)

def meterKey (w set c : Nat) : Nat := (w * 2 + set) * 8 + c

/-- Bucket sizes of a meter in tenths of a byte. -/
def State.meterFull (s : State) (w set c : Nat) : Meter :=
  let b := s.reg (meterReg w set c 8)
  { tc := bits b 19 0 * 640, tp := bits b 51 32 * 640 }

/-- The length a meter counts (R422). -/
def meterLength (mode len : Nat) : Nat := len + bits mode 15 8 - 64

/-- R423: colour of an item of `b` tenths of a byte with pre-colour `pre`, and the buckets after it. -/
def markItem (m : Meter) (pre b : Nat) : Nat × Meter :=
  if pre = 2 ∨ m.tp < b then (2, m)
  else if pre = 1 ∨ m.tc < b then (1, { m with tp := m.tp - b })
  else (0, { tc := m.tc - b, tp := m.tp - b })

/-- Some ticks of one meter (R423): its rates in tenths of a byte, up to the bucket sizes. -/
def State.tickMeter (s : State) (w set c n : Nat) : State :=
  if bit (s.reg (meterReg w set c 0x10)) 0 = false then s
  else
    let rate := s.reg (meterReg w set c 0)
    let full := s.meterFull w set c
    let m := tget {} s.meters (meterKey w set c)
    let filled : Meter := { tc := min (m.tc + n * bits rate 23 0) full.tc, tp := min (m.tp + n * bits rate 55 32) full.tp }
    { s with meters := tset {} s.meters (meterKey w set c) filled }

/-- Some ticks of every meter. -/
def State.polTick (s : State) (n : Nat) : State :=
  let s := (List.range 16).foldl (fun s w => (List.range 2).foldl (fun s set =>
    (List.range 8).foldl (fun s c => s.tickMeter w set c n) s) s) s
  { s with polTicks := s.polTicks + n }

/-- The ticks up to this cycle come before a marking, those of the same cycle too (R423). -/
def State.ticked (s : State) : State :=
  let n := s.cyc / 1500 + 1 - s.polTicks
  if n = 0 then s else s.polTick n

/-- What policing made of an item: its colour, and for a red one what the meter's RED field does with it (R425). -/
structure Policed where
  colour : Nat
  drop : Bool
  demote : Bool
deriving DecidableEq, Repr

/-- Polices an item of `len` bytes (R421 to R425), after the ticks that are due. A meter whose PIR is 0 marks every item of some length red (R427). -/
def State.police (s : State) (w set c len own : Nat) : State × Policed :=
  let s := s.ticked
  let mode := s.reg (meterReg w set c 0x10)
  if bit mode 0 = false then (s.bump (meterReg w set c (0x18 + 8 * own)), ⟨own, false, false⟩)
  else
    let b := 10 * meterLength mode len
    let pre := if bits (s.reg (meterReg w set c 0)) 55 32 = 0 ∧ 0 < b then 2 else if bit mode 1 then own else 0
    let r := markItem (tget {} s.meters (meterKey w set c)) pre b
    let s := { s with meters := tset {} s.meters (meterKey w set c) r.2 }
    (s.bump (meterReg w set c (0x18 + 8 * r.1)), ⟨r.1, decide (r.1 = 2) && !(bit mode 2), decide (r.1 = 2) && bit mode 2⟩)

/-! ## FENCE and CHAIN (R400) -/

/-- What a CHAIN binding stands at now. -/
def State.chainNow (s : State) (w q : Nat) : ChainSt → ChainSt
  | .pending n =>
    match (s.ringFlights w q).find? fun f => f.seq == n with
    | some f =>
      match f.cpl with
      | some c => if c.status.chainPasses then .passed else .failed
      | none => .pending n
    | none => .pending n
  | x => x

/-- Whether every earlier descriptor of the ring has its completion fixed. -/
def State.earlierFixed (s : State) (f : Flight) : Bool :=
  (s.ringFlights f.wing f.sq).all fun g => g.phase == .done || decide (f.fid ≤ g.fid)

/-- Whether FENCE or CHAIN holds a descriptor. (log 40, DEDUCED) -/
def State.isHeld (s : State) (f : Flight) : Bool :=
  (f.fence && !(s.earlierFixed f)) || (match s.chainNow f.wing f.sq f.chain with
    | .pending _ => true
    | .failed => true
    | _ => false)

/-- A descriptor that leaves its ring settles the binding that names it. -/
def settleChain (seq : Nat) (c : Cpl) : ChainSt → ChainSt
  | .pending n => if n = seq then (if c.status.chainPasses then .passed else .failed) else .pending n
  | x => x

/-- A request that uses pipelines. -/
def State.req? (s : State) (fid : Nat) : Option Req := s.reqs.find? fun r => r.fid == fid

end Sys2Proof.Machine
end

