-- ==== Sys2Proof/Machine/Guard.lean ====
section
/-!
DEFINITION. Who may write a register (R9, R365, R366, R479, R496, R511): the set-up device and MCTP reach every block, other
logical devices only granted wing blocks, and nobody a wing, host-port or Bruvia block before READY.
-/
namespace Sys2Proof.Machine
open Sys2Proof

/-- The set-up device (LD 0) and MCTP (8) see all of BAR0 (R365, R514). -/
def isSetup (src : Nat) : Bool := src == 0 || src == 8

/-- Whether a requester reaches a wing's registers. -/
def State.sees (s : State) (src wing : Nat) : Bool := isSetup src || s.granted src wing

/-- Whether start-up has reached READY (Table 20-1). -/
def State.isReady (s : State) : Bool := s.boot.phase == 6

/-- Whether a requester reaches the registers: a logical device while CXL is negotiated, until a fatal stop; MCTP from the end of LINK on
(R363, R461, R479, R496). (log 90, DEDUCED) (log 116, DESIGN CHOICE) -/
def State.hears (s : State) (src : Nat) : Bool :=
  s.power.rails == .good && (if src = 8 then s.link.everTrained else s.link.cxl && !s.err.fatal)

/-- Whether an offset of a wing block is a ring register (Table 16-7), whose denied writes are counted (R366).
(log 113, DEDUCED) -/
def isRingReg (o : Nat) : Bool := decide (o < 0x80) || (decide (0x1000 ≤ o) && decide (o < 0x2000))

/-- A write to a wing register that goes no further: unseen, unheard, or before READY. (log 113, DEDUCED) -/
def State.wingRefused (s : State) (src wing o : Nat) : Option State :=
  if !(s.hears src) then some s
  else if !(s.sees src wing) then some (if isRingReg o then s.bump (hpReg src 0x68) else s)
  else if !s.isReady then some (s.lockVio src (wngReg wing o))
  else none

/-- A write to a register of the set-up device alone that goes no further. (log 111, DEDUCED) -/
def State.setupRefused (s : State) (src : Nat) : Option State :=
  if !(s.hears src) || !(isSetup src) then some s else none

/-- A write to a host-port or Bruvia register that goes no further (R479, R511). (log 111, DEDUCED) -/
def State.portRefused (s : State) (src off : Nat) : Option State :=
  match s.setupRefused src with
  | some t => some t
  | none => if !s.isReady then some (s.lockVio src off) else none

/-- A refused write keeps its own effect; the work of one that is taken keeps to the frame of work. (log 90, DEDUCED) -/
def guarded (s : State) (refused : Option State) (f : State → State) : Host.Outcome State Fault Refusal :=
  match refused with
  | some t => .next t
  | none => work s (f s)

end Sys2Proof.Machine
end

