-- ==== Sys2Proof/Machine/Rings.lean ====
section
/-!
DEFINITION. Meanings of the commands of the work rings (16) and of policing (17): fetch, admission after FENCE and CHAIN, NOP,
sending entries, coalescing, doorbells, enables, drains, aborts, timeouts, meter ticks.
-/
namespace Sys2Proof.Machine
open Sys2Proof

/-! ## Fetch -/

/-- What a ring read gave: the 128 bytes, or the status of a descriptor that could not be read. (log 37, DEDUCED) -/
def readEntry : Dma → Bytes × Option Status
  | .ok b => (slice b 0 128, none)
  | .poisoned => (List.replicate 128 0, some .poisoned)
  | .media => (List.replicate 128 0, some .mediaError)
  | .failed => (List.replicate 128 0, some .aborted)

/-- Ring entries that a fetch takes, and whether the header is fetched alone to complete with INVALID (R393); none while TAIL does
not cover the continuation entries (R80). (log 36, DEDUCED) -/
def fetchTake (S avail : Nat) (cont : Option Nat) : Option (Nat × Bool) :=
  match cont with
  | none => some (1, true)
  | some n => if S ≤ n then some (min (1 + n) avail, true) else if avail < 1 + n then none else some (1 + n, false)

/-- The cycle in which a ring's descriptor at HEAD was covered by a doorbell (R392). -/
def doorbellCyc (S head take now : Nat) (dbs : List (Nat × Nat)) : Nat :=
  match dbs.find? fun d => decide (take ≤ ringDist S head d.1) with
  | some d => d.2
  | none => now

/-- The descriptor that a fetch from a ring makes. (log 4, DESIGN CHOICE) -/
def State.newFlight (s : State) (w q take : Nat) (raw cont : Bytes) : Flight :=
  let cfg := s.sqCfg w q
  let r := s.sq w q
  { fid := s.nextId, wing := w, sq := q, seq := r.seq, raw, cont, tc0Place := sqTc cfg == 0, cls := hTc raw
    colour := hColour raw, dbCyc := doorbellCyc (sqSize cfg) r.head take s.cyc r.dbs
    timeoutUs := if hTimeout raw = 0 then sqDefTimeout cfg else hTimeout raw
    fence := hFence raw, chain := r.chain }

/-- HEAD moves past the entries taken, SEQ counts, the CHAIN binding becomes the descriptor's own, the rotations move on (R397). -/
def State.advanceHead (s : State) (w q take : Nat) (f : Flight) : State :=
  let S := sqSize (s.sqCfg w q)
  let tc := sqTc (s.sqCfg w q)
  let r := s.sq w q
  let s := s.setSq w q
    { r with
      head := (r.head + take) % (2 * S), seq := (r.seq + 1) % 2 ^ 32, needs := 1
      chain := if hChain f.raw then .pending r.seq else .none
      dbs := r.dbs.filter fun d => decide (take < ringDist S r.head d.1) }
  ({ s with
     flights := s.flights ++ [f], nextId := s.nextId + 1
     rotWing := tset 0 s.rotWing tc (w + 1), rotRing := tset 0 s.rotRing (tc * 16 + w) (q + 1) }).bump (wngReg w 0x40)

/-- Polices a fetched descriptor, then holds it or lets it go to its opcode's checks (R399, R400, R424 to R426).
(log 37, DEDUCED) -/
def State.policeFetched (s : State) (f : Flight) (take : Nat) : State :=
  let r := s.police f.wing 0 (hTc f.raw) (128 * take) (hColour f.raw)
  if r.2.drop then r.1.fixSt f.fid .policedDrop
  else
    r.1.modFlight f.fid fun g =>
      { g with
        colour := r.2.colour, cls := if r.2.demote then 7 else g.cls
        phase := if r.1.isHeld f then .held else .ready }

/-- Fetches from a ring. (log 36, DEDUCED; log 37, DEDUCED) -/
def State.fetchFrom (s : State) (w q : Nat) (raw : Dma) (cont : Bytes) : State :=
  let e := readEntry raw
  let n := if e.2.isSome then some 0 else s.contCount w e.1
  match fetchTake (sqSize (s.sqCfg w q)) (s.sqAvail w q) n with
  | none => s.setSq w q { s.sq w q with needs := 1 + n.getD 0 }
  | some (take, bad) =>
    let f := s.newFlight w q take e.1 (if bad then [] else slice cont 0 (128 * (take - 1)))
    let t := s.advanceHead w q take f
    match e.2 with
    | some st => t.fixSt f.fid st
    | none =>
      if bad || !(headerOk (s.sqCfg w q) e.1) then t.fixSt f.fid .invalid
      else t.policeFetched f take

/-- DESCRIPTOR_FETCH (R397 to R399): Intake fetches from the ring whose turn it is; the bytes read are the operands. -/
def execDescriptorFetch (raw : Dma) (cont : Bytes) (s : State) : Host.Outcome State Fault Refusal :=
  work s (match s.nextFetch with
    | some (w, q) => s.fetchFrom w q raw cont
    | none => s)

/-- DESCRIPTOR_ADMIT (R400): a held descriptor goes to its opcode's checks, or completes with ABORTED on a failed chain. -/
def execDescriptorAdmit (fid : Nat) (s : State) : Host.Outcome State Fault Refusal :=
  work s (match s.flight? fid with
    | some f =>
      if f.phase ≠ .held then s
      else if s.chainNow f.wing f.sq f.chain = .failed then s.fixSt fid .aborted
      else if s.isHeld f then s
      else s.modFlight fid fun g => { g with phase := .ready }
    | none => s)

/-- NOP (R396): completes with OK; a reserved byte or a HANDLE gives INVALID (R11). -/
def execNopDescriptor (fid : Nat) (s : State) : Host.Outcome State Fault Refusal :=
  work s (match s.ready? fid 0x900 with
    | some f =>
      if f.zero [(12, 116)] then (s.admitNow fid).fixOk fid 0 0 else s.fixSt fid .invalid
    | none => s)

/-- Whether a descriptor's timeout has expired: on the first tick at or after admission plus TIMEOUT_US (R46), whose cycle has passed (R45).
(log 118, DEDUCED) -/
def Flight.expired (f : Flight) (now : Nat) : Bool :=
  f.phase == .active && match f.admitCyc with
    | some a => decide (roundUp (a + 1500 * f.timeoutUs) 1500 < now)
    | none => false

/-! ## Completion entries -/

/-- The entry of a completion ring that arrived first (R405). -/
def State.dueFlight (s : State) (w c : Nat) : Option Flight :=
  ((s.wingFlights w).filter fun f => sqCq (s.sqCfg w f.sq) == c && f.due.isSome).foldl
    (fun best f => match best with
      | some b => if f.due.getD 0 < b.due.getD 0 then some f else some b
      | none => some f) none

/-- The 32 bytes of an entry (Table 16-3). -/
def entryBytes (f : Flight) (c : Cpl) (flags phase : Nat) : Bytes :=
  natLe (hTag f.raw) 4 ++ natLe c.status.code 1 ++ natLe flags 1 ++ natLe c.count 2 ++ natLe f.seq 4
    ++ natLe (f.sqHead % 2 ^ 17 + f.sq % 64 * 2 ^ 24 + phase % 2 * 2 ^ 31) 4 ++ natLe c.result 8 ++ natLe 0 8

/-- The error records a completion calls for, before its entry (R500, R502). -/
def State.recordsFor (s : State) (f : Flight) (c : Cpl) : State :=
  let n := f.note.getD { cyc := s.cyc }
  let put := fun (s : State) (code : Nat) =>
    s.errRecord f.wing code 1 n.cyc n.addr (hTag f.raw) f.sq n.kind n.unit n.detail
  let s := if c.status = .poisoned ∨ bit c.flags 3 = true then put s 2 else s
  if c.status = .mediaError then put s 3 else s

/-- A message of a completion ring, or one owed within the coalescing interval (R406). (log 114, DEDUCED) -/
def State.ringMessage (s : State) (w c : Nat) : State :=
  let x := s.cq w c
  let cfg := s.cqCfg w c
  match x.coalEnd with
  | some _ => s.setCq w c { x with owed := true }
  | none =>
    let s := s.sendMsix (cqPort cfg) (64 * w + c)
    if cqCoalesce cfg = 0 then s
    else s.setCq w c { x with coalEnd := some (s.cyc + 1500 * cqCoalesce cfg) }

/-- Sends the entry of a descriptor: records, the entry at TAIL, RECOVERED, the message, the place released (R394, R405, R410).
(log 39, DEDUCED) -/
def State.sendEntry (s : State) (w c : Nat) (f : Flight) (cp : Cpl) : State :=
  let s := s.recordsFor f cp
  let cfg := s.cqCfg w c
  let S := sqSize cfg
  let x := s.cq w c
  let r := s.sq w f.sq
  let flags := if r.recov.any List.isEmpty then cp.flags ||| flagRecovered else cp.flags
  let phase := if bit x.tail (sqSizeLog cfg) then 0 else 1
  let s := if (s.port (cqPort cfg)).st = .failed then s
    else s.emit (.entry (cqPort cfg) (s.cqBase w c + 32 * (x.tail % S)) (entryBytes f cp flags phase))
  let s := (s.setCq w c { x with tail := (x.tail + 1) % (2 * S) }).bump (wngReg w 0x48)
  let left := (r.recov.filter fun l => !l.isEmpty).map fun l => l.filter fun y => y != f.fid
  let s := s.setSq w f.sq { r with recov := left, chain := settleChain f.seq cp r.chain }
  let rest := s.flights.filter fun g => g.fid != f.fid
  let settled : List Flight := rest.map fun g =>
    if g.wing = w ∧ g.sq = f.sq then { g with chain := settleChain f.seq cp g.chain } else g
  let s := { s with flights := settled }
  let s := s.countBound f
  let wanted := cqIrq cfg == 2 || (cqIrq cfg == 1 && hNotify f.raw)
  let s := if wanted then s.ringMessage w c else s
  s.refreshDue w f.sq

/-- CQ_ENTRY_SEND (R405): the entry that arrived first at a completion ring is written. -/
def execCqEntrySend (wing cq : Nat) (s : State) : Host.Outcome State Fault Refusal :=
  work s (match s.dueFlight wing cq with
    | some f =>
      match f.cpl with
      | some c => s.sendEntry wing cq f c
      | none => s
    | none => s)

/-- MSIX_COALESCE_EXPIRY (R406): the interval ends; one message is sent for the entries due meanwhile, and starts another.
(log 114, DEDUCED) -/
def execMsixCoalesceExpiry (wing cq : Nat) (s : State) : Host.Outcome State Fault Refusal :=
  work s (
    let x := s.cq wing cq
    match x.coalEnd with
    | some e =>
      if s.cyc < e then s
      else
        let s := s.setCq wing cq { x with coalEnd := none, owed := false }
        if x.owed then s.ringMessage wing cq else s
    | none => s)

/-! ## Doorbells (R391, R392) -/

/-- Whether a submission doorbell value is accepted. -/
def sqDoorbellOk (S : Nat) (r : SqSt) (v : Nat) : Bool :=
  r.en == .enabled && decide (v < 2 * S) && decide (ringDist S r.head v ≤ S)
    && decide (ringDist S r.head r.tail ≤ ringDist S r.head v)

/-- Whether a completion doorbell value is accepted. -/
def cqDoorbellOk (S : Nat) (x : CqSt) (v : Nat) : Bool :=
  x.en == .enabled && decide (v < 2 * S) && decide (ringDist S v x.tail ≤ ringDist S x.head x.tail)

/-- SQ_DOORBELL (R391, R392). -/
def execSqDoorbell (port wing ring val : Nat) (s : State) : Host.Outcome State Fault Refusal :=
  work s (
    if !(s.hears port) then s
    else if !(s.granted port wing) then s.bump (hpReg port 0x68)
    else
      let r := s.sq wing ring
      if sqDoorbellOk (sqSize (s.sqCfg wing ring)) r val then
        s.setSq wing ring { r with tail := val, dbs := if r.tail = val then r.dbs else r.dbs ++ [(val, s.cyc)] }
      else s.bump (wngReg wing 0x68))

/-- CQ_DOORBELL (R391, R392). -/
def execCqDoorbell (port wing ring val : Nat) (s : State) : Host.Outcome State Fault Refusal :=
  work s (
    if !(s.hears port) then s
    else if !(s.granted port wing) then s.bump (hpReg port 0x68)
    else
      let x := s.cq wing ring
      if cqDoorbellOk (sqSize (s.cqCfg wing ring)) x val then s.setCq wing ring { x with head := val }
      else s.bump (wngReg wing 0x68))

/-! ## Enables, drains, aborts (R408 to R412) -/

/-- R388: whether an EN = 1 write of a ring is taken: its port is granted the wing and is its completion ring's port.
(log 38, DEDUCED) -/
def State.ringPortOk (s : State) (kind : EnKind) (w r : Nat) : Bool :=
  match kind with
  | .wing => true
  | .sq =>
    let p := sqPort (s.sqCfg w r)
    s.granted p w && p == cqPort (s.cqCfg w (sqCq (s.sqCfg w r)))
  | .cq => s.granted (cqPort (s.cqCfg w r)) w

/-- Block offset of the control register an enable is written to. -/
def ctrlOff (kind : EnKind) (r : Nat) : Nat :=
  match kind with
  | .wing => 0
  | .sq => 0x1010 + 0x20 * r
  | .cq => 0x1810 + 0x20 * r

def State.enOf (s : State) (kind : EnKind) (w r : Nat) : EnState :=
  match kind with
  | .wing => s.wingSt w
  | .sq => (s.sq w r).en
  | .cq => (s.cq w r).en

/-- Gives a wing or ring an enable state; one that enters ENABLED starts afresh (R412), one that enters DISABLED forgets what it
owed (R410). -/
def State.setEn (s : State) (kind : EnKind) (w r : Nat) (e : EnState) : State :=
  match kind with
  | .wing => { s with wings := tset .disabled s.wings w e }
  | .sq =>
    if e = .enabled then s.setSq w r { en := .enabled }
    else if e = .disabled then s.setSq w r { s.sq w r with en := .disabled, recov := [], chain := .none }
    else s.setSq w r { s.sq w r with en := e }
  | .cq =>
    if e = .enabled then s.setCq w r { en := .enabled }
    else s.setCq w r { s.cq w r with en := e }

/-- EN = 1: DISABLED to ENABLED, DRAINING to ENABLE_PENDING; a wing enable is latched while a profile change waits (R487). -/
def State.enOn (s : State) (kind : EnKind) (w r : Nat) : State :=
  let e := s.enOf kind w r
  let e' := if kind = .wing ∧ e = .disabled ∧ s.boot.profTarget.isSome then .enablePending else e.on
  if e' = e then s else s.setEn kind w r e'

/-- EN = 0: ENABLED or ENABLE_PENDING to DRAINING. -/
def State.enOff (s : State) (kind : EnKind) (w r : Nat) : State :=
  let e := s.enOf kind w r
  if e.off = e then s else s.setEn kind w r e.off

/-- A write of EN (R388, R411, R412). (log 38, DEDUCED) -/
def State.writeEn (s : State) (src : Nat) (kind : EnKind) (w r : Nat) (en : Bool) : State :=
  if en then if s.ringPortOk kind w r then s.enOn kind w r else s.lockVio src (wngReg w (ctrlOff kind r))
  else s.enOff kind w r

/-- ENABLE_WRITE_ON (R412). -/
def execEnableWriteOn (src : Nat) (kind : EnKind) (wing ring : Nat) (s : State) : Host.Outcome State Fault Refusal :=
  .next (match s.wingRefused src wing (ctrlOff kind ring) with
    | some t => t
    | none => s.writeEn src kind wing ring true)

/-- ENABLE_WRITE_OFF (R411). -/
def execEnableWriteOff (src : Nat) (kind : EnKind) (wing ring : Nat) (s : State) : Host.Outcome State Fault Refusal :=
  .next (match s.wingRefused src wing (ctrlOff kind ring) with
    | some t => t
    | none => s.writeEn src kind wing ring false)

/-- Whether a drain has nothing left to wait for (R411); a wing enable latched by a profile change waits for it (R487). -/
def State.drainDone (s : State) (kind : EnKind) (w r : Nat) : Bool :=
  match kind with
  | .wing => (s.wingFlights w).isEmpty && (s.wingSt w == .draining || s.boot.profTarget.isNone)
  | .sq => (s.ringFlights w r).isEmpty
  | .cq => (List.range 64).all fun q => sqCq (s.sqCfg w q) != r || (s.sq w q).en == .disabled

/-- ENABLE_DRAIN_END (R411, R412). -/
def execEnableDrainEnd (kind : EnKind) (wing ring : Nat) (s : State) : Host.Outcome State Fault Refusal :=
  .next (
    let e := s.enOf kind wing ring
    if s.drainDone kind wing ring ∧ e.drained ≠ e then s.setEn kind wing ring e.drained else s)

/-- Aborts every ring of a wing (R408). -/
def State.abortWing (s : State) (w : Nat) : State := (List.range 64).foldl (fun s q => s.abortRing w q) s

/-- SQ_ABORT (R408). -/
def execSqAbort (src wing ring : Nat) (s : State) : Host.Outcome State Fault Refusal :=
  guarded s (s.wingRefused src wing (ctrlOff .sq ring)) fun s => s.abortRing wing ring

/-- WNG_ABORT (R408). -/
def execWngAbort (src wing : Nat) (s : State) : Host.Outcome State Fault Refusal :=
  guarded s (s.wingRefused src wing 0) fun s => s.abortWing wing

/-! ## Meters -/

/-- POLICER_TICK_REFILL (R423): every enabled meter refills once for each 1 MHz tick. -/
def execPolicerTickRefill (s : State) : Host.Outcome State Fault Refusal :=
  work s (if s.cyc / 1500 + 1 ≤ s.polTicks then s else s.polTick 1)

end Sys2Proof.Machine
end

