-- ==== Sys2Proof/Machine/Traffic.lean ====
section
/-!
DEFINITION. Set-up of wings and traffic (17): meter registers and bricks of a wing.
-/
namespace Sys2Proof.Machine
open Sys2Proof

/-! ## Meters (R427) -/

/-- Whether an offset of a wing block is a rate, burst or mode register of a meter. -/
def isMeterReg (o : Nat) : Bool :=
  decide (0x2400 ≤ o) && decide (o < 0x2800) && (o % 0x40 == 0 || o % 0x40 == 8 || o % 0x40 == 0x10)

/-- Set and class of a meter register. -/
def meterSet (o : Nat) : Nat := (o - 0x2400) / 0x200
def meterClass (o : Nat) : Nat := o % 0x200 / 0x40

/-- Whether a meter's values are allowed: CIR at most PIR, CBS at most PBS. -/
def State.meterOk (s : State) (w set c : Nat) : Bool :=
  let r := s.reg (meterReg w set c 0)
  let b := s.reg (meterReg w set c 8)
  decide (bits r 23 0 ≤ bits r 55 32) && decide (bits b 19 0 ≤ bits b 51 32)

/-- Both buckets of a meter at their sizes. -/
def State.refill (s : State) (w set c : Nat) : State := { s with meters := tset {} s.meters (meterKey w set c) (s.meterFull w set c) }

/-- A write to a meter register: applied with a refill, or a lock violation. -/
def State.writeMeter (s : State) (src w o val : Nat) : State :=
  let t := s.setReg (wngReg w o) val
  if t.meterOk w (meterSet o) (meterClass o) then t.refill w (meterSet o) (meterClass o) else s.lockVio src (wngReg w o)

/-- POLICER_CONFIG_WRITE (R427). -/
def execPolicerConfigWrite (src off val : Nat) (s : State) : Host.Outcome State Fault Refusal :=
  match locate off with
  | (.wng w, o) =>
    if isMeterReg o then
      match s.wingRefused src w o with
      | some t => .next t
      | none => .next (s.writeMeter src w o val)
    else .next s
  | _ => .next s

/-! ## Bricks of a wing (R416) -/

/-- Whether a program of a wing is loaded. -/
def State.wingLoaded (s : State) (w : Nat) : Bool := s.progs.any fun e => e.1 / 65536 == w

/-- Whether a brick may be allotted to a wing: of the wing pool, and of no other wing. -/
def State.mayAllot (s : State) (w b : Nat) : Bool :=
  inWingPool s.prof b && (match s.brickWing b with
    | some x => x == w
    | none => true)

/-- A write to `WNG_BRICK` n: applied, or a lock violation. -/
def State.writeBricks (s : State) (src w n val : Nat) : State :=
  if s.wingSt w = .disabled ∧ s.wingLoaded w = false
      ∧ ((List.range 64).all fun i => !(bit val i) || s.mayAllot w (64 * n + i)) = true then
    s.setReg (wngReg w (0x2820 + 8 * n)) val
  else s.lockVio src (wngReg w (0x2820 + 8 * n))

/-- WNG_BRICK_WRITE (R416). -/
def execWngBrickWrite (src wing n val : Nat) (s : State) : Host.Outcome State Fault Refusal :=
  match s.wingRefused src wing (0x2820 + 8 * n) with
  | some t => .next t
  | none => .next (s.writeBricks src wing n val)

end Sys2Proof.Machine
end

