-- ==== Sys2Proof/Machine/Coll.lean ====
section
/-!
DEFINITION. Collections (03): where their parts lie, record sizes and pages, encoding and decoding of codes, liveness at a version,
retained versions, open validation, and what a commit keeps.
-/
namespace Sys2Proof.Machine
open Sys2Proof

/-! ## Parts (Tables 03-4, 03-5) -/

/-- Slots of an adjacency record by degree code. -/
def degSlots (d : Nat) : Nat := if d = 0 then 0 else if d = 1 then 16 else if d = 2 then 24 else if d = 3 then 32 else if d = 4 then 48 else 64

/-- Bytes of an adjacency record. -/
def adjBytes (d : Nat) : Nat := roundUp (4 * degSlots d) 64

def CollDef.sq4 (d : CollDef) : Bool := bit d.enc 0
def CollDef.bf16 (d : CollDef) : Bool := bit d.enc 1
def CollDef.sq8Cellar (d : CollDef) : Bool := bit d.place 0
def CollDef.bf16Cellar (d : CollDef) : Bool := bit d.place 1
def CollDef.durable (d : CollDef) : Bool := bit d.flags 0

/-- Bytes of a record of a part. -/
def CollDef.recSize (d : CollDef) (part : Nat) : Nat :=
  if part = 0 then 8 else if part = 1 then 8 else if part = 2 then 8 else if part = 3 then d.dim else if part = 4 then d.dim / 2
  else if part = 5 then 2 * d.dim else if part = 6 then adjBytes d.degree else if part = 7 then 4 * d.attrWords else 4

/-- Whether a part is present. -/
def CollDef.has (d : CollDef) (part : Nat) : Bool :=
  if part = 2 ∨ part = 4 then d.sq4 else if part = 5 then d.bf16 else if part = 6 ∨ part = 8 then d.degree != 0
  else if part = 7 then d.attrWords != 0 else decide (part ≤ 8)

/-- Whether a part lies in Cellar. -/
def CollDef.inCellar (d : CollDef) (part : Nat) : Bool := (part == 3 && d.sq8Cellar) || (part == 5 && d.bf16Cellar)

/-- Parts with a record for each node. -/
def nodeParts : List Nat := [0, 3, 4, 5, 6, 7]

/-- Key of a byte of a part. -/
def partKey (part off : Nat) : Nat := part * 2 ^ 48 + off

/-- Key of an entry list of a shard. -/
def entryKey (shard : Nat) : Nat := 8 * 2 ^ 48 + shard * 2 ^ 44

/-- Tier pages of one part of one shard (R64). -/
def CollDef.partPages (d : CollDef) (part : Nat) : Nat := cdiv (cdiv d.capacity d.shards * d.recSize part) pageSize

def sumNat (l : List Nat) : Nat := l.foldl (· + ·) 0

/-- Floor pages of one shard. -/
def CollDef.shardPages (d : CollDef) : Nat :=
  sumNat ((nodeParts.filter fun p => d.has p && !(d.inCellar p)).map d.partPages)

/-- Floor-placed parts of a shard, in the order in which their pages take its frames (log 45, DEDUCED). -/
def CollDef.floorParts (d : CollDef) : List Nat := nodeParts.filter fun p => d.has p && !(d.inCellar p)

/-- Place, among a shard's Floor pages, of the first page of a part. -/
def CollDef.partAt (d : CollDef) (part : Nat) : Nat := sumNat ((d.floorParts.takeWhile fun p => p != part).map d.partPages)

/-- Place, among a collection's frames, of a Floor page of a part of a shard; none outside the part. -/
def CollDef.frameAt (d : CollDef) (part shard page : Nat) : Option Nat :=
  if d.floorParts.contains part ∧ page < d.partPages part ∧ shard < d.shards then
    some (shard * sumNat (d.floorParts.map d.partPages) + d.partAt part + page)
  else none

/-- The frame of a Floor page of a part of a shard. -/
def Coll.frameOf (c : Coll) (part shard page : Nat) : Option FrameAt := (c.defn.frameAt part shard page).bind fun i => c.frames[i]?

/-- Cellar pages of a collection, its durable mirror among them (R64, R157). -/
def CollDef.cellarPages (d : CollDef) : Nat :=
  d.shards * sumNat ((nodeParts.filter fun p => d.has p && d.inCellar p).map d.partPages)
    + (if d.durable then 1 + cdiv (8 * d.capacity) pageSize + cdiv (4 * d.attrWords * d.capacity) pageSize else 0)

/-- Of four Hall dies in an order that a free value picks, the first n: one for each shard (R62, log 4, DESIGN CHOICE). -/
def pickDies (x n : Nat) : List Nat :=
  let take := fun (l : List Nat) (i : Nat) => (l.getD (i % l.length) 0)
  let a := take [0, 1, 2, 3] x
  let l1 := [0, 1, 2, 3].filter fun y => y != a
  let b := take l1 (x / 4)
  let l2 := l1.filter fun y => y != b
  let c := take l2 (x / 12)
  ([a, b, c] ++ l2.filter fun y => y != c).take n

/-! ## Reading and writing -/

/-- Writes bytes at a key; lines written whole lose their poison (R499). -/
def Coll.write (c : Coll) (key : Nat) (bs : Bytes) : Coll :=
  let whole := (wholeLines key bs.length).map (· / 64)
  { c with mem := putBytes c.mem key bs, bad := c.bad.filter fun k => !(whole.contains k) }

def Coll.u (c : Coll) (key n : Nat) : Nat := leNat (getBytes c.mem key n)

/-- Whether a poisoned line lies under n bytes at a key. -/
def Coll.poisoned (c : Coll) (key n : Nat) : Bool := c.bad.any fun k => decide (key / 64 ≤ k) && decide (64 * k < key + n)

/-- Key of node n's record of a part. -/
def Coll.key (c : Coll) (part n : Nat) : Nat := partKey part (n * c.defn.recSize part)

/-- Node table entry (Table 03-3). -/
def Coll.entry (c : Coll) (n : Nat) : Nat := c.u (c.key 0 n) 8

def Coll.vid (c : Coll) (n : Nat) : Nat := c.entry n % 2 ^ 48
def Coll.used (c : Coll) (n : Nat) : Bool := bit (c.entry n) 49

/-- TOMB, which is ignored while USED is 0 (Table 03-3). -/
def Coll.tomb (c : Coll) (n : Nat) : Bool := c.used n && bit (c.entry n) 48

def Coll.setEntry (c : Coll) (n v : Nat) : Coll := { c with mem := putBytes c.mem (c.key 0 n) (natLe v 8) }

/-- Adjacency slots of a node, DEGREE of them. -/
def Coll.slots (c : Coll) (n : Nat) : List Nat :=
  (List.range (degSlots c.defn.degree)).map fun i => c.u (c.key 6 n + 4 * i) 4

/-- Filled slots, which come first (R59). -/
def Coll.neighbours (c : Coll) (n : Nat) : List Nat := (c.slots n).takeWhile fun x => x != 0xFFFFFFFF

/-- Writes an adjacency record whole (R148): neighbours first, the rest empty. -/
def Coll.setNeighbours (c : Coll) (n : Nat) (l : List Nat) : Coll :=
  let size := adjBytes c.defn.degree
  c.write (c.key 6 n) (slice ((l.map fun x => natLe x 4).flatten ++ List.replicate size 0xFF) 0 size)

/-- The entry list of a shard as loaded (R61): the entries that stand loaded. -/
def Coll.entries (c : Coll) (shard : Nat) : List Nat :=
  match c.loaded.find? fun l => l.part == 8 && l.shard == shard with
  | some l => (List.range l.count).map fun i => c.u (entryKey shard + 4 * (l.first + i)) 4
  | none => []

/-- Whether the entry list of a shard stands loaded from its first entry on (R71, R72). (log 122, DESIGN CHOICE) -/
def Coll.listLoaded (c : Coll) (shard : Nat) : Bool := c.loaded.any fun l => l.part == 8 && l.shard == shard && l.first == 0

/-- Nodes of a shard with USED set, in ascending order. -/
def Coll.usedIn (c : Coll) (shard : Nat) : List Nat :=
  (List.range c.defn.capacity).filter fun n => n % c.defn.shards == shard && c.used n

/-- Attribute word w of a node (R60). -/
def Coll.attr (c : Coll) (n w : Nat) : Nat := c.u (c.key 7 n + 4 * w) 4

/-! ## Codes (R56, R57) -/

def wordAt (c : Coll) (key : Nat) : Word32 := BitVec.ofNat 32 (c.u key 4)

/-- Scale and offset of a dimension: table 1 for SQ8, 2 for SQ4. -/
def Coll.scale (c : Coll) (table d : Nat) : Word32 × Word32 :=
  (wordAt c (partKey table (8 * d)), wordAt c (partKey table (8 * d + 4)))

/-- Code of a component: the division and the rounding are in FP32, the result clamped; a NaN gives 0 (R56). -/
def encodeComp (scale offset x : Word32) (top : Int) : Nat := (fToInt 0 top (fdiv (fsub x offset) scale)).toNat

/-- SQ8 record of a vector. -/
def Coll.encode8 (c : Coll) (x : List Word32) : Bytes :=
  (x.zipIdx).map fun p => let s := c.scale 1 p.2; BitVec.ofNat 8 (encodeComp s.1 s.2 p.1 255)

/-- SQ4 code of dimension d. -/
def Coll.code4 (c : Coll) (x : List Word32) (d : Nat) : Nat :=
  let s := c.scale 2 d
  encodeComp s.1 s.2 (x.getD d f0) 15

/-- SQ4 record of a vector: dimension 2i in bits 3:0 of byte i. -/
def Coll.encode4 (c : Coll) (x : List Word32) : Bytes :=
  (List.range (c.defn.dim / 2)).map fun i => BitVec.ofNat 8 (c.code4 x (2 * i) + 16 * c.code4 x (2 * i + 1))

/-- BF16 record of a vector. -/
def encodeBf16 (x : List Word32) : Bytes := (x.map fun a => natLe (fTo bf16 a) 2).flatten

/-- SQ8 codes of a node. -/
def Coll.codes8 (c : Coll) (n : Nat) : List Nat := (getBytes c.mem (c.key 3 n) c.defn.dim).map BitVec.toNat

/-- SQ4 codes of a node. -/
def Coll.codes4 (c : Coll) (n : Nat) : List Nat :=
  ((getBytes c.mem (c.key 4 n) (c.defn.dim / 2)).map fun b => [b.toNat % 16, b.toNat / 16]).flatten

/-! ## Versions (R146, R149) -/

/-- Requests pinned to a version of a collection. -/
def State.pinned (s : State) (key : Nat) : List Req := s.reqs.filter fun r => r.key == key && (r.opcode == 0x100 || r.opcode == 0x101 || r.opcode == 0x300)

/-- Inserts into an ascending list without repeats. -/
def insertAsc (l : List Nat) (x : Nat) : List Nat :=
  match l with
  | [] => [x]
  | y :: t => if x = y then l else if x < y then x :: l else y :: insertAsc t x

/-- Retained versions, ascending: the current one and those a request is pinned to (R149). -/
def State.retained (s : State) (key : Nat) (c : Coll) : List Nat :=
  ((s.pinned key).map Req.version).foldl insertAsc [c.version]

def State.oldest (s : State) (key : Nat) (c : Coll) : Nat := (s.retained key c).headD c.version

/-- Whether a node is tombstoned at version v (R146). -/
def Coll.tombAt (c : Coll) (v n : Nat) : Bool :=
  c.tomb n || c.tombs.any fun t => t.node == n && match t.del with
    | some d => decide (d ≤ v)
    | none => false

/-- Whether a node is dead for a request pinned to version v (R146); a poisoned node-table entry makes it dead (R498). -/
def Coll.dead (c : Coll) (v n : Nat) : Bool := c.tombAt v n || c.poisoned (c.key 0 n) 8

/-- Porch entries of a shard visible at version v, in ascending node index (R146, R147). -/
def Coll.porchVisible (c : Coll) (v shard : Nat) : List Nat :=
  ((c.porch.filter fun e => e.node % c.defn.shards == shard && match e.vis with
    | some x => decide (x ≤ v)
    | none => false).map PorchEnt.node).foldl insertAsc []

/-- Changes a collection. -/
def State.modColl (s : State) (key : Nat) (g : Coll → Coll) : State := { s with colls := tupd s.colls key g }

/-- Hall die of a shard. -/
def Coll.die (c : Coll) (shard : Nat) : Nat := c.dies.getD shard 0

/-- The note of a line of a collection's internal page (R502): part, node and vector ID. -/
def Coll.noteAt (c : Coll) (handle key : Nat) : Note :=
  let part := key / 2 ^ 48
  let rec_ := c.defn.recSize part
  let n := if part = 0 ∨ part = 3 ∨ part = 4 ∨ part = 5 ∨ part = 6 ∨ part = 7 then (key % 2 ^ 48) / (if rec_ = 0 then 1 else rec_) else 0
  let sh := n % c.defn.shards
  let at_ := if c.defn.floorParts.contains part then c.frameOf part sh (n / c.defn.shards * rec_ / pageSize) else c.frames.getLast?
  { kind := 1, unit := (at_.map FrameAt.stack).getD (3 * c.die sh), handle, part, node := n
    vid := if nodeParts.contains part then c.vid n else 0xFFFFFFFFFFFF }

/-! ## Open validation (R72, Table 03-10) -/

/-- Whether a part was loaded for a node. -/
def Coll.isLoaded (c : Coll) (part n : Nat) : Bool :=
  c.loaded.any fun l => l.part == part && decide (l.first ≤ n) && decide (n < l.first + l.count)

/-- Failure of the scale tables and entry lists: node index and reason. -/
def Coll.headFailure (c : Coll) (nodes : Nat) : Option (Nat × Nat) :=
  let missing := ([1, 2].any fun p => c.defn.has p && !(c.loaded.any fun l => l.part == p))
    || (c.defn.has 8 && (List.range c.defn.shards).any fun s => !(c.listLoaded s))
  if missing then some (0xFFFFFFFF, 1)
  else
    ((List.range c.defn.shards).map fun s => (c.entries s).filter fun n =>
      n % c.defn.shards != s || decide (nodes ≤ n) || c.tomb n).flatten.head?.map fun n => (n, 6)

/-- Whether an adjacency record breaks R59 for an open of `nodes` nodes. -/
def Coll.badEdges (c : Coll) (nodes n : Nat) : Bool :=
  let all := (List.range (adjBytes c.defn.degree / 4)).map fun i => c.u (c.key 6 n + 4 * i) 4
  let nb := c.neighbours n
  (all.drop nb.length).any (· != 0xFFFFFFFF)
    || nb.any fun x => x == n || decide (nodes ≤ x) || !(c.used x) || x % c.defn.shards != n % c.defn.shards

/-- A poisoned line under n bytes at a key. -/
def Coll.badLine (c : Coll) (key n : Nat) : Option Nat := c.bad.find? fun k => decide (key / 64 ≤ k) && decide (64 * k < key + n)

/-- What stops a validation: a poisoned line it reads (R498), by number, or a failing node index and reason code. -/
inductive OpenStop where
  | poison (line : Nat)
  | failed (node reason : Nat)
deriving DecidableEq, Repr

/-- A poisoned line that the check of a node's edges reads: of its adjacency record, or of the entry of a neighbour. -/
def Coll.edgePoison (c : Coll) (nodes n : Nat) : Option Nat :=
  if c.defn.has 6 then
    c.badLine (c.key 6 n) (adjBytes c.defn.degree)
      <|> (c.neighbours n).findSome? fun x => if x < nodes then c.badLine (c.key 0 x) 8 else none
  else none

/-- The reason that node n, whose entry and edges can be read, fails: codes 3 to 7. -/
def Coll.nodeReason (c : Coll) (nodes n : Nat) : Option Nat :=
  if c.defn.has 6 && c.badEdges nodes n then some 3
  else if (List.range n).any fun m => c.used m && !(c.tomb m) && c.vid m == c.vid n then some 4
  else if c.vid n = 0xFFFFFFFFFFFF then some 5
  else if c.entry n / 2 ^ 50 ≠ 0 then some 7
  else none

/-- What stops validation at node n, reasons in ascending code. -/
def Coll.nodeStop (c : Coll) (nodes n : Nat) : Option OpenStop :=
  if nodeParts.any fun p => c.defn.has p && !(c.isLoaded p n) then some (.failed n 1)
  else
    match c.badLine (c.key 0 n) 8 with
    | some k => some (.poison k)
    | none =>
      if !(c.used n) then some (.failed n 2)
      else
        match c.edgePoison nodes n with
        | some k => some (.poison k)
        | none => (c.nodeReason nodes n).map (.failed n)

/-- A poisoned line that the check of scale tables and entry lists reads, node entries of the lists among them. -/
def Coll.headPoison (c : Coll) (nodes : Nat) : Option Nat :=
  let tables := [1, 2].findSome? fun p => if c.defn.has p then c.badLine (partKey p 0) (8 * c.defn.dim) else none
  let lists := (List.range c.defn.shards).findSome? fun x => if c.defn.has 8 then c.badLine (entryKey x) (4 * (c.entries x).length) else none
  let named := (List.range c.defn.shards).findSome? fun x =>
    (c.entries x).findSome? fun n => if n < nodes then c.badLine (c.key 0 n) 8 else none
  tables <|> lists <|> named

/-- What stops the validation of an open of `nodes` nodes: scale tables and entry lists first, then the nodes in ascending order.
(log 41, DEDUCED) -/
def Coll.openStop (c : Coll) (nodes : Nat) : Option OpenStop :=
  match c.headPoison nodes with
  | some k => some (.poison k)
  | none =>
    match c.headFailure nodes with
    | some x => some (.failed x.1 x.2)
    | none => (List.range nodes).findSome? (c.nodeStop nodes)

/-- The first failure of an open of `nodes` nodes: failing node index and reason code. (log 41, DEDUCED) -/
def Coll.validate (c : Coll) (nodes : Nat) : Option (Nat × Nat) :=
  match c.openStop nodes with
  | some (.failed n r) => some (n, r)
  | _ => none

/-- The poisoned line on which the validation of an open ends (R498). -/
def Coll.openPoison (c : Coll) (nodes : Nat) : Option Nat :=
  match c.openStop nodes with
  | some (.poison k) => some k
  | _ => none

/-! ## Commits (R157 to R159) -/

/-- The node table as of a version: Porch entries published up to it are used, tombstones dated up to it are set. -/
def Coll.tableAt (c : Coll) (v : Nat) : Coll :=
  let c := c.porch.foldl (fun (c : Coll) e => match e.vis with
    | some x => if x ≤ v then c.setEntry e.node (e.vid + 2 ^ 49) else c
    | none => c) c
  c.tombs.foldl (fun (c : Coll) t => match t.del with
    | some x => if x ≤ v then c.setEntry t.node (c.vid t.node + 2 ^ 48 + 2 ^ 49) else c
    | none => c) c

/-- Whether the durable content of a collection holds a key (R157). -/
def CollDef.durableKey (d : CollDef) (k : Nat) : Bool :=
  let part := k / 2 ^ 48
  part == 0 || part == 1 || part == 2 || part == 7 || d.inCellar part

/-- The mirror after a commit of version v. -/
def Coll.mirrorAt (c : Coll) (v : Nat) : Mirror :=
  { defn := c.defn, mem := some (tkeep (c.tableAt v).mem c.defn.durableKey)
    bad := c.bad.filter fun k => c.defn.inCellar (64 * k / 2 ^ 48), nodes := c.nodes, winBase := c.winBase
    zeros := c.zeros }

end Sys2Proof.Machine
end

