-- ==== Sys2Proof/Machine/Tier.lean ====
section
/-!
DEFINITION. Tier ranges and pins (11): TIER_ALLOC, TIER_FREE and TIER_PIN with their later steps.
-/
namespace Sys2Proof.Machine
open Sys2Proof

/-! ## Whole regions of compute stacks (R299) -/

/-- Regions that objects take whole: region ranges, moved collection parts, tables with UPDATE. (log 29, DESIGN CHOICE) -/
def State.claimed (s : State) : List Nat :=
  (s.ranges.map Range.regions).flatten ++ (s.colls.map fun e => (e.2.regions.map Prod.snd).flatten).flatten
    ++ (s.embs.map fun e => e.2.regions).flatten

/-- Whole free regions of compute stack i for a wing, the lowest first (log 29, DESIGN CHOICE). -/
def State.freeRegions (s : State) (w i n : Nat) : Option (List Nat) :=
  let used := s.claimed ++ s.poolFrames.filterMap FrameAt.region
  let l := (((List.range 36864).map (regionKey i)).filter fun k => !(used.contains k) && !(s.keepsFrom w k)).take n
  if l.length = n ∧ 8 * n ≤ s.stackFree w (3 * i) then some l else none

/-! ## TIER_ALLOC (R267 to R269) -/

/-- First page of a range's tier, and the pages of its offsets in use: of the port's slot for an Annex range (Table 11-1). -/
def tierSpan (tier port : Nat) : Nat × Nat :=
  if tier = 1 then (2 ^ 30, 3473408) else if tier = 2 then (2 * 2 ^ 30, 106811523)
  else (3 * 2 ^ 30 + port * 4194304, 2097152)

/-- Whether a run of pages meets a range of the wing. -/
def State.meetsRange (s : State) (w base n : Nat) : Bool := s.ranges.any fun r => r.wing == w && runsMeet r.base r.pages base n

/-- The least number of a list. -/
def leastOf : List Nat → Option Nat
  | [] => none
  | a :: t => match leastOf t with
    | some b => some (min a b)
    | none => some a

/-- R268: the lowest base, a multiple of `unit`, at which n pages lie free together in a span. -/
def State.firstFit (s : State) (w lo len unit n : Nat) : Option Nat :=
  let starts := lo :: (s.ranges.filter fun r => r.wing == w).map fun r => roundUp (r.base + r.pages) unit
  leastOf (starts.filter fun b => decide (lo ≤ b) && decide (b + n ≤ lo + len) && !(s.meetsRange w b n))

/-- Whether an allocation is of a region range (R299). -/
def isRegionRange (tier stack pages : Nat) : Bool :=
  tier == 1 && (stack == 1 || stack == 4 || stack == 7 || stack == 10) && pages % 8 == 0

/-- Fields of a TIER_ALLOC (Table 11-3). -/
def allocFieldsOk (f : Flight) : Bool :=
  let tier := f.u 16 1
  let flags := f.u 17 1
  f.zero [(12, 4), (32, 96)] && inside 1 3 tier && decide (flags < 4) && (!(bit flags 0) || tier == 2)
    && (if tier = 1 then decide (f.u 18 1 ≤ 12) else f.u 18 1 == 0) && (if tier = 3 then decide (f.u 19 1 ≤ 5) else f.u 19 1 == 0)
    && decide (1 ≤ f.u 20 4)
    && (if bit flags 1 then f.u 24 8 % pageSize == 0 && f.u 24 8 / 2 ^ 48 == tier else f.u 24 8 == 0)

/-- Where a TIER_ALLOC's range begins, or why it has no place (R268, R299). -/
def State.allocBase (s : State) (f : Flight) : Except Status Nat :=
  let tier := f.u 16 1
  let n := f.u 20 4
  let span := tierSpan tier (f.u 19 1)
  let unit := if isRegionRange tier (f.u 18 1) n then 8 else 1
  if bit (f.u 17 1) 1 then
    let b := f.u 24 8 / pageSize
    if b < span.1 ∨ span.1 + span.2 < b + n ∨ b % unit ≠ 0 ∨ s.meetsRange f.wing b n = true then .error .invalid else .ok b
  else
    match s.firstFit f.wing span.1 span.2 unit n with
    | some b => .ok b
    | none => .error .noResource

/-- The entry of a Floor page in a frame (R273). -/
def floorEnt (x : FrameAt) : PageEnt := { tier := 1, pinned := true, stack := x.stack, frame := x.frame }

/-- Places the pages of a Floor range from page `i` on: a frame for each, and its entry (R269, R273). (log 29, DESIGN CHOICE) -/
def State.placeFloor (s : State) (w base stack i : Nat) : Nat → Option State
  | 0 => some s
  | n + 1 =>
    match s.takeFrameOf w (if stack = 0 then dieStacks (i % 4) else [stack - 1]) with
    | some (t, x) => (t.setPage w (base + i) (floorEnt x)).placeFloor w base stack (i + 1) n
    | none => none

/-- Places the pages of a region range: page i in frame i mod 8 of region i div 8 (R292, R299). -/
def State.placeRegions (s : State) (w base : Nat) (l : List Nat) : State :=
  l.zipIdx.foldl (fun s x => (List.range 8).foldl (fun s j => s.setPage w (base + 8 * x.2 + j) (floorEnt (regionFrame w x.1 j))) s) s

/-- The range a TIER_ALLOC makes. -/
def rangeOf (f : Flight) (base : Nat) : Range :=
  { wing := f.wing, tier := f.u 16 1, base, pages := f.u 20 4, durable := bit (f.u 17 1) 0, stack := f.u 18 1, port := f.u 19 1
    ready := false, fid := some f.fid }

/-- Adds a range. -/
def State.addRange (s : State) (r : Range) : State := { s with ranges := s.ranges ++ [r] }

/-- A Floor allocation: charged, placed, and then zeroed; it completes when that is done (R269, R285, R299). -/
def State.allocFloor (s : State) (f : Flight) (base : Nat) : State :=
  let n := f.u 20 4
  if s.floorUse f.wing + n > s.floorQuota f.wing then s.fixSt f.fid .noResource
  else
    let placed :=
      if isRegionRange 1 (f.u 18 1) n then
        (s.freeRegions f.wing ((f.u 18 1 - 1) / 3) (n / 8)).map fun l => (s.placeRegions f.wing base l, l)
      else (s.placeFloor f.wing base (f.u 18 1) 0 n).map fun t => (t, [])
    match placed with
    | some (t, l) => (t.addRange { rangeOf f base with regions := l }).admitNow f.fid
    | none => s.fixSt f.fid .noResource

/-- A Cellar allocation takes window space only (R269, R285). -/
def State.allocCellar (s : State) (f : Flight) (base : Nat) : State :=
  let n := f.u 20 4
  if s.cellarUse f.wing + n > s.cellarQuota f.wing ∨ s.cellarTotal + n > 106811523 then s.fixSt f.fid .noResource
  else ((s.addRange { rangeOf f base with ready := true, fid := none }).admitNow f.fid).fixOk f.fid 0 (base * pageSize)

/-- Annex ranges of a port, over all wings (R278). -/
def State.annexRanges (s : State) (p : Nat) : Nat := (s.ranges.filter fun r => r.tier == 3 && r.port == p).length

/-- An Annex allocation asks the neighbour for its pages (R269, R278, R453). -/
def State.allocAnnex (s : State) (f : Flight) (base : Nat) : State :=
  let n := f.u 20 4
  let p := f.u 19 1
  if s.annexUse f.wing + n > s.annexQuota f.wing ∨ s.annexRanges p ≥ 256 ∨ (s.bp p).en ≠ .enabled then s.fixSt f.fid .noResource
  else
    let t := ((s.addRange (rangeOf f base)).admitNow f.fid).takeTag p
    t.1.sendRequest p { tag := t.2, typ := 0x20, fid := some f.fid, wing := f.wing, chan := 9, args := natLe n 4 } 0 (t.1.usLeft f.fid) true

/-- TIER_ALLOC (R267 to R269). (log 67, DEDUCED) -/
def State.tierAlloc (s : State) (f : Flight) : State :=
  if !(allocFieldsOk f) then s.fixSt f.fid .invalid
  else
    match s.allocBase f with
    | .error st => s.fixSt f.fid st
    | .ok base =>
      if f.u 16 1 = 1 then s.allocFloor f base else if f.u 16 1 = 2 then s.allocCellar f base else s.allocAnnex f base

def execTierAlloc (fid : Nat) (s : State) : Host.Outcome State Fault Refusal :=
  work s (match s.ready? fid 0x940 with
    | some f => s.tierAlloc f
    | none => s)

/-! ## Release (R270) -/

/-- Removes every byte, poison mark and entry of some pages, and so gives back their frames. -/
def State.wipePages (s : State) (w base n : Nat) : State :=
  let here := fun k => decide (pageKey w base ≤ k) && decide (k < pageKey w (base + n))
  let line := fun k => lineIn w (base * pageSize) (n * pageSize) k
  { s with
    pages := tkeep s.pages fun k => !(here k)
    frm := clearBytes s.frm (memKey w (base * pageSize)) (n * pageSize)
    low := clearBytes s.low (memKey w (base * pageSize)) (n * pageSize)
    frmBad := s.frmBad.filter fun k => !(line k), lowBad := s.lowBad.filter fun k => !(line k) }

/-- Discards the Cellar units of some pages (R270, R347). (log 69, DEDUCED) -/
def State.unmapPages (s : State) (w base n : Nat) : State :=
  let lo := unitKey w (base * pageSize)
  s.journalRoom.cel fun c =>
    let c := c.discard lo (lo + 16 * n)
    { c with excluded := c.excluded.filter fun u => decide (u < lo) || decide (lo + 16 * n ≤ u) }

/-- Tells the lender that its pages come back (Table 18-4). -/
def State.sendRelease (s : State) (p first pages : Nat) : State :=
  s.sendFrame p { blankFrame with typ := 0x22, chan := 9, args := argsOf (natLe first 4 ++ natLe pages 4) }

/-- ANNEX_LOST clears when the last lost range of the port is freed (R446). -/
def State.clearLost (s : State) (p : Nat) : State :=
  if s.ranges.any fun r => r.tier == 3 && r.port == p && r.lost then s else s.setBp p { s.bp p with annexLost := false }

/-- Releases a range: frames and entries, dirty pages without write-back, Cellar units, the neighbour's pages, whole regions
(R270). A range whose grant never came has no pages at the neighbour. (log 67, DEDUCED) (log 69, DEDUCED) -/
def State.releaseRange (s : State) (r : Range) : State :=
  let s := { s with ranges := s.ranges.filter fun x => x != r }
  let s := s.wipePages r.wing r.base r.pages
  let s := if r.tier = 2 then (s.unmapPages r.wing r.base r.pages).bumpBy 0x4058 (16 * r.pages) else s
  let s := if r.tier = 3 then (if r.lost || !r.ready then s else s.sendRelease r.port r.first r.pages).clearLost r.port else s
  { s with regions := tkeep s.regions fun k => !(r.regions.contains k) }

/-- TIER_ALLOC_ZERO_DONE (R269): the frames of a Floor allocation have been zeroed. An allocation that was stopped meanwhile gives
them back. (log 67, DEDUCED) -/
def execTierAllocZeroDone (fid : Nat) (s : State) : Host.Outcome State Fault Refusal :=
  work s (match s.ranges.find? fun r => r.fid == some fid && r.tier == 1 with
    | some r =>
      match s.active? fid 0x940 with
      | some _ =>
        { s with ranges := s.ranges.map fun x => if x = r then { x with ready := true, fid := none } else x }.fixOk fid 0 (r.base * pageSize)
      | none => s.releaseRange r
    | none => s)

/-! ## TIER_FREE (R270, R369) -/

/-- Tier addresses that a descriptor's fields name, by opcode. (log 68, DEDUCED) -/
def Flight.names (f : Flight) : List Nat :=
  let src := fun k a => if f.u k 1 = 1 then [f.u a 8] else []
  let op := hOpcode f.raw
  if op = 0x100 then src 31 32 ++ src 57 64
  else if op = 0x101 then src 31 32 ++ src 57 64 ++ (if f.u 61 1 = 2 then [f.u 72 8] else [])
  else if op = 0x300 then src 31 32 ++ src 62 92 ++ [f.u 64 8]
  else if op = 0x312 then src 19 32 ++ src 58 64 else if op = 0x318 then src 19 32
  else if op = 0x281 ∨ op = 0x200 ∨ op = 0x201 then src 17 32 else if op = 0x311 then src 18 32
  else if op = 0x500 ∨ op = 0x504 then src 24 32 else if op = 0x600 ∨ op = 0x621 then src 16 32
  else if op = 0x610 ∨ op = 0x630 ∨ op = 0x401 ∨ op = 0x420 then src 17 32 else if op = 0x620 then src 19 32
  else if op = 0x410 then src 19 32 ++ src 19 56 else if op = 0x430 then src 17 40 else if op = 0x440 then src 18 32
  else if op = 0x700 ∨ op = 0x701 then (if f.u 16 1 = 0 then [f.u 24 8] else [])
  else if op = 0x710 then [f.u 32 8] ++ src 17 48 else if op = 0x711 then [f.u 32 8, f.u 40 8] ++ src 17 48
  else if op = 0x720 then [f.u 40 8] ++ src 17 32 ++ src 17 48 else if op = 0x721 then [f.u 32 8]
  else if op = 0x730 then [f.u 32 8, f.u 40 8] else if op = 0x731 then [f.u 40 8]
  else if op = 0x800 ∨ op = 0x801 ∨ op = 0x942 then [f.u 24 8] else []

/-- Whether a range holds a tier address. (log 68, DEDUCED) -/
def Range.holds (r : Range) (a : Nat) : Bool := decide (r.base ≤ a / pageSize) && decide (a / pageSize < r.base + r.pages)

/-- The descriptors of the wing admitted before a free, or with an access under way, that name its range. (log 68, DEDUCED) -/
def State.namers (s : State) (r : Range) (fid : Nat) : List Nat :=
  ((s.wingFlights r.wing).filter fun g =>
    (g.phase == .active || (g.phase == .ready && s.accesses.any fun x => x.fid == some g.fid)) && decide (g.fid ≠ fid)
      && g.names.any r.holds).map fun g => g.fid

/-- Whether descriptors of the wing admitted before a free still name its range. -/
def State.namedBefore (s : State) (r : Range) (fid : Nat) : Bool := !(s.namers r fid).isEmpty

/-- Whether a free has to wait for room in the journal, for the entry of its discard (R344). -/
def State.journalFull (s : State) (r : Range) : Bool := r.tier == 2 && !(s.cellar.room 1)

/-- Whether a descriptor that a waiting free waits for has not completed yet (R270), or the journal has no room. -/
def State.freeHeld (s : State) (r : Range) : Bool :=
  (s.flights.any fun g => r.freeFor.contains g.fid && g.phase != .done) || s.journalFull r

/-- Whether a loaded program's window entry lies in a range (R270). -/
def State.programOn (s : State) (r : Range) : Bool :=
  s.progs.any fun e => e.1 / 65536 == r.wing && e.2.bricks.any fun b =>
    b.wins.any fun x => decide (x.base < (r.base + r.pages) * pageSize) && decide (r.base * pageSize < x.base + 4096 * x.pages)

/-- The range that a base and a number of pages name exactly. -/
def State.exactRange (s : State) (w base pages : Nat) : Option Range :=
  if base % pageSize ≠ 0 then none
  else s.ranges.find? fun r => r.wing == w && r.base == base / pageSize && r.pages == pages && r.ready && r.freeFrom.isNone

/-- The last step of a free. (log 67, DEDUCED) -/
def State.finishFree (s : State) (fid : Nat) (r : Range) : State := (s.releaseRange r).fixOk fid 0 0

/-- TIER_FREE (R270): BUSY under windows of programs or hosts; waits while earlier descriptors name the range. -/
def State.tierFree (s : State) (f : Flight) : State :=
  if !(f.zero [(12, 4), (16, 4), (32, 96)]) then s.fixSt f.fid .invalid
  else
    match s.exactRange f.wing (f.u 24 8) (f.u 20 4) with
    | none => s.fixSt f.fid .invalid
    | some r =>
      if s.programOn r || s.windowsOn r.wing r.base r.pages then s.fixSt f.fid .busy
      else if s.namedBefore r f.fid || s.journalFull r then
        { (s.admitNow f.fid) with
          ranges := s.ranges.map fun x => if x = r then { x with freeFrom := some f.fid, freeFor := s.namers r f.fid } else x }
      else (s.admitNow f.fid).finishFree f.fid r

def execTierFree (fid : Nat) (s : State) : Host.Outcome State Fault Refusal :=
  work s (match s.ready? fid 0x941 with
    | some f => s.tierFree f
    | none => s)

/-- TIER_FREE_RELEASE (R270): the last earlier descriptor has completed. A free that was stopped leaves its range in use. -/
def execTierFreeRelease (fid : Nat) (s : State) : Host.Outcome State Fault Refusal :=
  work s (match s.ranges.find? fun r => r.freeFrom == some fid with
    | some r =>
      match s.active? fid 0x941 with
      | some _ => if s.freeHeld r then s else s.finishFree fid r
      | none => { s with ranges := s.ranges.map fun x => if x = r then { x with freeFrom := none, freeFor := [] } else x }
    | none => s)

/-! ## TIER_PIN (R272) -/

/-- The range that holds n whole pages from an aligned address, and is not being freed. -/
def State.rangeOver (s : State) (w base n : Nat) : Option Range :=
  if base % pageSize ≠ 0 ∨ n = 0 then none
  else s.ranges.find? fun r =>
    r.wing == w && r.ready && r.freeFrom.isNone && decide (r.base ≤ base / pageSize) && decide (base / pageSize + n ≤ r.base + r.pages)

/-- A pin's fill begins in a frame of a stack: PINNED is set in the cycle the page is cached (R272). -/
def State.fillPinned (s : State) (w cls p stack : Nat) : State :=
  let s := s.startFill w p stack cls
  s.setPage w p { s.page w p with pinned := true }

/-- Changes which victims a pin waits for. -/
def State.modVictims (s : State) (fid : Nat) (g : List (Nat × Nat) → List (Nat × Nat)) : State :=
  { s with pins := s.pins.map fun x => if x.fid = fid then { x with victims := g x.victims } else x }

/-- A pin no longer waits for a victim's frame for page p. -/
def State.dropVictim (s : State) (fid p : Nat) : State := s.modVictims fid fun l => l.filter fun v => v.1 != p

/-- The victim that a pin waits for: once it is written back, its frame is taken for the pin (R272). -/
def State.pinVictim (s : State) (x : PinWait) (cls p key : Nat) : State :=
  let e := s.page (key / 2 ^ 34) (key % 2 ^ 34)
  if e.busy then s
  else if !e.cached then s.dropVictim x.fid p
  else if e.dirty then s.startWriteBack key 7
  else ((s.evict key).dropVictim x.fid p).fillPinned x.wing cls p e.stack

/-- Tries to cache and pin one page: PINNED is set in the cycle it is cached; a dirty victim is written back first (R272, R281). -/
def State.pinPage (s : State) (x : PinWait) (cls p : Nat) : State :=
  let e := s.page x.wing p
  if e.cached then (s.setPage x.wing p { e with pinned := true }).dropVictim x.fid p
  else
    match x.victims.find? fun v => v.1 == p with
    | some v => s.pinVictim x cls p v.2
    | none =>
      match s.chooseFrame x.wing (pageDie p) with
      | .free i => s.fillPinned x.wing cls p i
      | .victim key v =>
        if v.dirty then (s.startWriteBack key 7).modVictims x.fid fun l => l ++ [(p, key)]
        else (s.evict key).fillPinned x.wing cls p v.stack
      | .none => s

/-- Whether a page is cached, pinned and no longer being filled. -/
def State.pinnedNow (s : State) (w p : Nat) : Bool :=
  let e := s.page w p
  e.cached && e.pinned && !e.filling

/-- One try of a pin at all its pages; it completes when every page is cached and pinned. -/
def State.pinStep (s : State) (x : PinWait) : State :=
  let cls := s.whoCls { fid := some x.fid }
  let s := x.pages.foldl (fun s p => s.pinPage x cls p) s
  if x.pages.any fun p => s.inLost x.wing (p * pageSize) 1 then s.fixSt x.fid .mediaError
  else if x.pages.all fun p => s.pinnedNow x.wing p then s.fixOk x.fid 0 0 else s

/-- TIER_PIN (R272). -/
def State.tierPin (s : State) (f : Flight) : State :=
  let n := f.u 20 4
  match s.rangeOver f.wing (f.u 24 8) n with
  | none => s.fixSt f.fid .invalid
  | some r =>
    if !(f.zero [(12, 4), (17, 3), (32, 96)]) || decide (1 < f.u 16 1) then s.fixSt f.fid .invalid
    else if r.tier = 1 then (s.admitNow f.fid).fixOk f.fid 0 0
    else
      let ps := (List.range n).map fun i => f.u 24 8 / pageSize + i
      if f.u 16 1 = 0 then
        let unpin := fun (s : State) p => s.setPage f.wing p { s.page f.wing p with pinned := false }
        ((ps.filter fun p => (s.page f.wing p).pinned).foldl unpin (s.admitNow f.fid)).fixOk f.fid 0 0
      else if s.cacheUse f.wing + (ps.filter fun p => !(s.page f.wing p).cached).length > s.cacheMax f.wing then
        s.fixSt f.fid .noResource
      else
        let x : PinWait := { fid := f.fid, wing := f.wing, pages := ps }
        { (s.admitNow f.fid) with pins := s.pins ++ [x] }.pinStep x

def execTierPin (fid : Nat) (s : State) : Host.Outcome State Fault Refusal :=
  work s (match s.ready? fid 0x942 with
    | some f => s.tierPin f
    | none => s)

/-- TIER_PIN_RETRY (R272). -/
def execTierPinRetry (fid : Nat) (s : State) : Host.Outcome State Fault Refusal :=
  work s (match s.pins.find? fun x => x.fid == fid with
    | some x => s.pinStep x
    | none => s)

end Sys2Proof.Machine
end

