-- ==== Sys2Proof/Machine/Parts.lean ====
section
/-!
DEFINITION. Cellar-placed parts of collections (R64, R266): their internal pages in the Cellar window, reads and writes through the window
cache, and the poison that a failed fill leaves in them. The bytes themselves are kept with the collection. Also `TPT_PEEK_ADDR`.
-/
namespace Sys2Proof.Machine
open Sys2Proof

/-! ## Where the internal pages lie (log 32, DESIGN CHOICE) -/

/-- Cellar-placed parts with a record for each node. -/
def CollDef.winParts (d : CollDef) : List Nat := [3, 5].filter fun p => d.has p && d.inCellar p

/-- Internal Cellar pages of a collection's parts (R64). -/
def CollDef.winPages (d : CollDef) : Nat := d.shards * sumNat (d.winParts.map d.partPages)

/-- The free run of n internal pages of a wing that lies lowest, from a page whose Hall die the free value x picks (R273).
(log 32, DESIGN CHOICE) -/
def State.winRun (s : State) (w n x : Nat) : Nat :=
  let runs := ((s.colls.filter fun e => e.1 / 65536 == w && e.2.winPages != 0).map fun e => (e.2.winBase / 4 * 4, roundUp (e.2.winPages + 3) 4))
    ++ (s.sessions.filter fun e => e.1 / 65536 == w && e.2.winPages != 0).map fun e => (e.2.winBase / 4 * 4, roundUp (e.2.winPages + 3) 4)
  let free := fun b => !(runs.any fun r => runsMeet r.1 r.2 b (roundUp (n + 3) 4))
  (leastOf ((internalBase :: runs.map fun r => r.1 + r.2).filter free)).getD internalBase + x % 4

/-- First page of a Cellar-placed part in the collection's run: the SQ8 codes come before the BF16 values. -/
def Coll.partBase (c : Coll) (part : Nat) : Nat :=
  c.winBase + (if part = 5 ∧ c.defn.inCellar 3 = true then c.defn.shards * c.defn.partPages 3 else 0)

/-- Window address of a node's record of a Cellar-placed part: each shard's pages hold its records in ascending order (R64).
(log 32, DESIGN CHOICE) -/
def Coll.winAddr (c : Coll) (part n : Nat) : Nat :=
  (c.partBase part + n % c.defn.shards * c.defn.partPages part) * pageSize + n / c.defn.shards * c.defn.recSize part

/-- The line of a part, as in `bad`, at a window address; none outside the records. -/
def Coll.winLine (c : Coll) (a : Nat) : Option Nat :=
  c.defn.winParts.findSome? fun part =>
    let len := c.defn.partPages part * pageSize
    let o := a - c.partBase part * pageSize
    if c.partBase part * pageSize ≤ a ∧ o < c.defn.shards * len then
      let size := c.defn.recSize part
      some ((c.key part (o % len / size * c.defn.shards + o / len) + o % len % size) / 64)
    else none

/-- Window addresses and lengths of `count` records of a part from node `first` on, one run for each shard. -/
def Coll.winSpans (c : Coll) (part first count : Nat) : List (Nat × Nat) :=
  (List.range c.defn.shards).filterMap fun sh =>
    let n := first + (sh + c.defn.shards - first % c.defn.shards) % c.defn.shards
    if n < first + count then some (c.winAddr part n, ((first + count - 1 - n) / c.defn.shards + 1) * c.defn.recSize part) else none

/-- A poison list with one more line, if there is one. -/
def poisonedAlso (bad : List Nat) : Option Nat → List Nat
  | some k => insertNew bad k
  | none => bad

/-- Poisons a line of an internal page (R350). -/
def State.poisonInternal (s : State) (w a : Nat) : State :=
  let p := a / pageSize
  { s with
    colls := s.colls.map fun e =>
      if e.1 / 65536 = w ∧ e.2.holdsPage p = true then (e.1, { e.2 with bad := poisonedAlso e.2.bad (e.2.winLine a) }) else e
    sessions := s.sessions.map fun e =>
      if e.1 / 65536 = w ∧ e.2.ownsPage p = true then (e.1, { e.2 with bad := poisonedAlso e.2.bad (e.2.winLine a) }) else e }

/-! ## Writes (R280, R284) -/

/-- Writes runs of internal pages through the window cache; the bytes are the collection's own affair. -/
def State.winWrite (s : State) (w cls : Nat) (l : List (Nat × Nat)) (got : List Nat := []) : State × Wrote :=
  l.foldl (fun acc x =>
    let r := acc.1.writeTier w cls x.1 (List.replicate x.2 0) got (x.2 / pageSize + 2)
    (r.1, acc.2.both r.2)) (s, {})

/-- A descriptor whose write went through to the lower tier (R280). -/
def State.degradeIf (s : State) (fid : Nat) (b : Bool) : State :=
  if b then s.modFlight fid fun f => { f with degraded := true } else s

/-! ## Reads (R93, R99, R279) -/

/-- Touches the records of some nodes, and fills their pages where R279 says so. -/
def State.winTouch (s : State) (w cls part : Nat) (c : Coll) (l : List Nat) : State :=
  if c.defn.inCellar part then l.foldl (fun s n => s.readTouch w cls (c.winAddr part n) (c.defn.recSize part)) s else s

/-- Accesses of a descriptor under a tag. -/
def State.tagged (s : State) (fid tag : Nat) : List Access := s.accesses.filter fun x => x.fid == some fid && x.tag == tag

/-- Records the access to some bytes of one page that is not there, or, with `hold`, of any page; asks flash for what no fill brings. -/
def State.winIssue (s : State) (w fid cls tag a n : Nat) (hold : Bool) (cause : Nat := 1) : State :=
  let p := a / pageSize
  let e := s.page w p
  let here := e.resident && !e.filling
  if here && !hold then s
  else
    let us := if e.filling || here then [] else (unitsOf w a n).filter fun u => (s.unitAt u).isSome
    let x : Access := { id := s.nextId, wing := w, fid := some fid, page := p, cause, issued := s.cyc, tag, left := us.length
                        miss := !here }
    us.foldl (fun s u => s.flashRead cls u (.access x.id)) { s with accesses := s.accesses ++ [x], nextId := s.nextId + 1 }

/-- Issues the read of a record, in each page that it lies in. -/
def State.winAsk (s : State) (w fid cls tag : Nat) (hold : Bool) (a n : Nat) : State :=
  (pagesOf a n).foldl (fun s p => let x := inPage a n p; s.winIssue w fid cls tag x.1 x.2 hold) s

/-- Takes the accesses of a descriptor under a tag away. -/
def State.untag (s : State) (fid tag : Nat) : State := { s with accesses := s.accesses.filter fun x => !(x.fid == some fid && x.tag == tag) }

/-- What reads through the window came to. -/
inductive WinRes where
  | wait | failed | here
deriving DecidableEq, Repr

/-- How the accesses of a descriptor under a tag stand; once they are over they are taken away. -/
def State.winState (s : State) (fid tag : Nat) : State × WinRes :=
  let l := s.tagged fid tag
  if l.any s.winWaits then (s, .wait) else (s.untag fid tag, if l.any Access.failed then .failed else .here)

/-- Reads the records of some nodes: issued once, then awaited. -/
def State.winRead (s : State) (w fid cls tag part : Nat) (c : Coll) (l : List Nat) : State × WinRes :=
  if c.defn.inCellar part = false ∨ l = [] then (s, .here)
  else if s.tagged fid tag = [] then
    (l.foldl (fun s n => s.winAsk w fid cls tag false (c.winAddr part n) (c.defn.recSize part)) (s.winTouch w cls part c l)).winState fid tag
  else s.winState fid tag

/-! ## Release and commit -/

/-- The internal pages of a collection, in order. -/
def Coll.winList (c : Coll) : List Nat := (List.range c.winPages).map fun i => c.winBase + i

/-- Releases the internal Cellar pages of a collection: entries, frames and flash. -/
def State.dropWin (s : State) (w : Nat) (c : Coll) : State :=
  if c.winPages = 0 then s else (s.wipePages w c.winBase c.winPages).unmapPages w c.winBase c.winPages

/-- Whether the Cellar-placed records of a collection are in flash (R158): pages still dirty start their write-back. -/
def State.winClean (s : State) (w cls : Nat) (c : Coll) : State × Bool :=
  let dirty := c.winList.filter fun p => (s.page w p).dirty
  let busy := c.winList.any fun p => s.flashOwes (unitsOf w (p * pageSize) pageSize)
  (dirty.foldl (fun s p => if (s.page w p).filling then s else s.startWriteBack (pageKey w p) cls) s, dirty.isEmpty && !busy)

/-! ## TPT_PEEK (R274, R290) -/

/-- FRAME of an entry (Table 11-5). -/
def State.entryFrame (s : State) (w p : Nat) (e : PageEnt) : Nat :=
  if e.resident then e.stack % 16 * 2 ^ 20 + e.frame % 2 ^ 19
  else if e.tier = 4 then
    match s.annexTarget w p with
    | some t => t.1 % 8 * 2 ^ 21 + t.2 % 2 ^ 21
    | none => 0
  else 0

/-- A tier page table entry as 128 bits (Table 11-5); 0 when there is none. No tier address names the entry of an internal page (R266). -/
def State.entryBits (s : State) (w p : Nat) : Nat :=
  match (if isInternal p then none else tfind s.pages (pageKey w p)) with
  | none => 0
  | some e =>
    e.tier + b2n e.dirty * 8 + b2n e.pinned * 16 + b2n (s.firstPoison w (p * pageSize) pageSize).isSome * 32
      + b2n (s.pageIn .opened w p) * 64 + b2n e.busy * 128 + w * 2 ^ 8 + e.heat % 256 * 2 ^ 16 + s.entryFrame w p e * 2 ^ 24
      + e.age % 2 ^ 48 * 2 ^ 64

/-- TPT_PEEK_ADDR_WRITE (R290): the named entry is kept as it stood. -/
def execTptPeekAddrWrite (src val : Nat) (s : State) : Host.Outcome State Fault Refusal :=
  .next (match s.setupRefused src with
    | some t => t
    | none => { s with peek := s.entryBits (bits val 59 56) (bits val 51 0 / pageSize) })

end Sys2Proof.Machine
end

