-- ==== Sys2Proof/Machine/Collections.lean ====
section
/-!
DEFINITION. Meanings of the collection commands (03): create, load, open and its validation, describe, destroy, drain, and the beat
events of opens and destroys.
-/
namespace Sys2Proof.Machine
open Sys2Proof

/-- The collection that a descriptor's HANDLE names (R50). -/
def State.collOf (s : State) (f : Flight) : Option Coll :=
  if hHandle f.raw < 4096 then tfind s.colls (objKey f.wing (hHandle f.raw)) else none

/-! ## COLL_CREATE (R51, R64, R67 to R69) -/

/-- The definition a COLL_CREATE carries (Table 03-8). -/
def collDefOf (f : Flight) : CollDef :=
  { dim := f.u 16 2, metric := f.u 18 1, degree := f.u 19 1, enc := f.u 20 1, place := f.u 21 1, attrWords := f.u 22 1
    shards := f.u 23 1, capacity := f.u 24 4, flatThresh := f.u 28 2, flags := f.u 30 1 }

/-- Ranges of Tables 03-1 to 03-5 and 03-8. -/
def CollDef.ok (d : CollDef) : Bool :=
  inside 64 4096 d.dim && d.dim % 64 == 0 && decide (d.metric ≤ 2) && decide (d.degree ≤ 5) && decide (d.enc ≤ 3)
    && decide (d.place ≤ 3) && (!d.bf16Cellar || d.bf16) && decide (d.attrWords ≤ 16)
    && (d.shards == 1 || d.shards == 2 || d.shards == 4) && decide (1 ≤ d.capacity) && decide (d.flags ≤ 1)
    && (!d.durable || d.place != 0)

/-- Whether a collection counts as CLOSING or DRAINING for a create on its handle (R67, R74). -/
def Coll.goingAway (c : Coll) : Bool := c.st == .closing || c.st == .draining || c.destroyS.isSome

/-- Why a COLL_CREATE is refused before its pages are allocated. (log 51, DEDUCED) -/
def State.createRefusal (s : State) (f : Flight) : Option Status :=
  if !(f.zero [(31, 97)]) || !(collDefOf f).ok || decide (4096 ≤ hHandle f.raw) then some .invalid
  else
    match s.collOf f with
    | some c => if c.goingAway then some .busy else some .invalid
    | none => if s.colls.length ≥ 4096 then some .noResource else none

/-- Pages of a new collection: Floor frames, shard by shard and the header page's last, and Cellar pages charged (R64, R285). -/
def State.allocColl (s : State) (w : Nat) (d : CollDef) (dies : List Nat) : Option (State × List FrameAt) :=
  match s.allocInternal w ((dies.map fun x => (dieStacks x, d.shardPages)) ++ [(allStacks, 1)]) with
  | some (t, frames) =>
    match t.chargeCellar w d.cellarPages with
    | some u => some (u, frames)
    | none => none
  | none => none

/-- COLL_CREATE (R68). -/
def State.collCreate (s : State) (f : Flight) : State :=
  match s.createRefusal f with
  | some st => s.fixSt f.fid st
  | none =>
    let d := collDefOf f
    let dies := pickDies s.free d.shards
    match s.useFree.allocColl f.wing d dies with
    | none => s.fixSt f.fid .noResource
    | some (t, frames) =>
      let winBase := s.winRun f.wing d.winPages (s.free / 24)
      let c : Coll := { defn := d, dies, frames, winBase, winPages := d.winPages }
      let m : Mirror := { defn := d, winBase }
      let t := { t with
        colls := tput t.colls f.obj c
        mirrors := if d.durable then tput t.mirrors f.obj m else t.mirrors }
      (t.admitNow f.fid).fixOk f.fid 0 0

def execCollCreate (fid : Nat) (s : State) : Host.Outcome State Fault Refusal :=
  work s (match s.ready? fid 0x280 with
    | some f => s.collCreate f
    | none => s)

/-! ## COLL_LOAD (R70, R71) -/

/-- Field checks of a COLL_LOAD against its collection (R70, Table 03-9). -/
def loadFieldsOk (f : Flight) (d : CollDef) : Bool :=
  let part := f.u 16 1
  let first := f.u 20 4
  let count := f.u 24 4
  let bytes := f.u 40 8
  f.zero [(19, 1), (28, 4), (48, 80)] && decide (part ≤ 8) && d.has part && decide (f.u 17 1 ≤ 1)
    && (if part = 8 then decide (f.u 18 1 < d.shards) else f.u 18 1 == 0) && decide (1 ≤ count) && aligned64 (f.u 32 8)
    && bytes == count * d.recSize part && decide (bytes ≤ 1073741824)
    && (if part = 1 ∨ part = 2 then first == 0 && count == d.dim
        else if part = 8 then first == 0 && decide (count ≤ 64) else decide (first + count ≤ d.capacity))

/-- R55: scales finite and above 0, offsets finite. -/
def scaleTableOk (bs : Bytes) : Bool :=
  (words32 bs).zipIdx.all fun p =>
    let x : Word32 := BitVec.ofNat 32 p.1
    fIsFin x && (p.2 % 2 == 1 || flt f0 x)

/-- Key of the first byte a load writes. -/
def loadKey (f : Flight) (d : CollDef) : Nat :=
  if f.u 16 1 = 8 then entryKey (f.u 18 1) else partKey (f.u 16 1) (f.u 20 4 * d.recSize (f.u 16 1))

/-- Forgets that the records of a load were ever loaded. -/
def Coll.unload (c : Coll) (part shard first count : Nat) : Coll :=
  let cut := fun (l : Loaded) =>
    if l.part = part ∧ l.shard = shard then
      ([{ l with count := min l.count (first - l.first) },
        { l with first := max l.first (first + count), count := l.first + l.count - max l.first (first + count) }] : List Loaded).filter
        fun x => decide (0 < x.count)
    else [l]
  { c with loaded := (c.loaded.map cut).flatten }

/-- A load fails in the middle: its whole range is unspecified and has to be loaded again (R71). (log 57, DEDUCED) -/
def State.spoilLoad (s : State) (f : Flight) (gone : Coll) : State :=
  { s.modColl f.obj fun _ => { gone with mem := putBytes gone.mem (loadKey f gone.defn) (s.freeBytes (f.u 40 8)) } with fresh := s.fresh + f.u 40 8 }

/-- What a load writes to internal pages of the Cellar window (R64, R280). -/
def State.loadWin (s : State) (f : Flight) (c : Coll) : State × Wrote :=
  if c.defn.inCellar (f.u 16 1) then
    let got := s.mergedBy { fid := some f.fid } f.wing
    s.winWrite f.wing f.cls (c.winSpans (f.u 16 1) (f.u 20 4) (f.u 24 4)) got
  else (s, {})

/-- COLL_LOAD (R70, R71). A load of an entry list replaces the list loaded before, entries beyond its COUNT too (log 122, DESIGN CHOICE).
(log 57, DEDUCED) -/
def State.collLoad (s : State) (f : Flight) (src : Dma) : State :=
  match s.collOf f with
  | none => s.fixSt f.fid .invalid
  | some c =>
    if !(loadFieldsOk f c.defn) then s.fixSt f.fid .invalid
    else if c.st = .opening then s.fixSt f.fid .busy
    else if c.st ≠ .building then s.fixSt f.fid .invalid
    else
      let part := f.u 16 1
      let gone := c.unload part (f.u 18 1) (f.u 20 4) (f.u 24 4)
      let merge := (s.loadWin f c).2.merge
      if s.mergeFailed { fid := some f.fid } f.wing then (s.spoilLoad f gone).fixSt f.fid .mediaError
      else if merge ≠ [] then s.askMerge { fid := some f.fid } f.wing merge
      else
      let r := s.readSrc f (f.u 17 1) (f.u 32 8) (f.u 40 8) src 0
      match r.2 with
      | .stop (some .poisoned) n => ((r.1.modColl f.obj fun _ => gone).stopAt f.fid (some .poisoned) n)
      | .stop (some .mediaError) n =>
        (r.1.spoilLoad f gone).stopAt f.fid (some .mediaError) n
      | .stop st n => r.1.stopAt f.fid st n
      | .bytes bs =>
        if (part = 1 ∨ part = 2) ∧ scaleTableOk bs = false then r.1.fixSt f.fid .invalid
        else
          let rec_ : Loaded := { part, shard := f.u 18 1, first := f.u 20 4, count := f.u 24 4 }
          let base := if part = 8 then { c with loaded := c.loaded.filter fun l => !(l.part == 8 && l.shard == f.u 18 1) } else c
          let new := base.write (loadKey f c.defn) bs
          let q := r.1.loadWin f c
          match q.2.stop with
          | some st => (q.1.spoilLoad f gone).fixSt f.fid st
          | none =>
            let t := q.1.modColl f.obj fun _ => { new with loaded := new.loaded ++ [rec_] }
            ((t.admitNow f.fid).degradeIf f.fid q.2.degraded).fixOk f.fid 0 0

def execCollLoad (fid : Nat) (src : Dma) (s : State) : Host.Outcome State Fault Refusal :=
  work s (match s.ready? fid 0x281 with
    | some f => s.collLoad f src
    | none => s)

/-! ## COLL_OPEN (R72) -/

/-- COLL_OPEN: the field and state checks, after which validation runs; it is admitted when that ends. NODES above CAPACITY is INVALID
without validation, its inline result 0 (log 123, DESIGN CHOICE). -/
def State.collOpen (s : State) (f : Flight) : State :=
  match s.collOf f with
  | none => s.fixSt f.fid .invalid
  | some c =>
    if !(f.zero [(20, 4), (32, 96)]) || decide (c.defn.capacity < f.u 16 4) then s.fixSt f.fid .invalid
    else if c.st = .opening then s.fixSt f.fid .busy
    else if c.st ≠ .building then s.fixSt f.fid .invalid
    else s.modFlight f.fid fun g => { g with phase := .active }

def execCollOpen (fid : Nat) (s : State) : Host.Outcome State Fault Refusal :=
  work s (match s.ready? fid 0x282 with
    | some f => s.collOpen f
    | none => s)

/-- The collection an accepted open leaves: OPENING, nodes from NODES on free (R72). -/
def Coll.opened (c : Coll) (nodes beat : Nat) : Coll :=
  { c with
    st := .opening, nodes, openS := some beat
    mem := clearBytes c.mem (c.key 0 nodes) (8 * (c.defn.capacity - nodes)) }

/-- COLL_VALIDATION_DONE (R72). -/
def State.collValidated (s : State) (f : Flight) (c : Coll) : State :=
  if c.st = .opening then s.fixSt f.fid .busy
  else if c.st ≠ .building then s.fixSt f.fid .invalid
  else
    match c.openPoison (f.u 16 4) with
    | some k => s.stopAt f.fid (some .poisoned) (some (c.noteAt (hHandle f.raw) (64 * k)))
    | none =>
      match c.validate (f.u 16 4) with
      | some (n, r) => s.fix f.fid { status := .invalid, result := n + r * 2 ^ 32 }
      | none =>
        match s.beatRefusal (f.u 24 8) with
        | some st => s.fixSt f.fid st
        | none =>
          let t := ((s.modColl f.obj fun c => c.opened (f.u 16 4) (f.u 24 8)).schedule (f.u 24 8) (.openColl f.obj)).admitNow f.fid
          if c.defn.durable then t else t.fixOk f.fid 0 0

def execCollValidationDone (fid : Nat) (s : State) : Host.Outcome State Fault Refusal :=
  work s (match s.active? fid 0x282 with
    | some f =>
      if f.admitCyc.isSome then s
      else
        match s.collOf f with
        | some c => s.collValidated f c
        | none => s.fixSt fid .invalid
    | none => s)

/-! ## COLL_DESCRIBE, COLL_DESTROY, COLL_DRAIN_DONE -/

/-- Code of a collection state (Table 03-6). -/
def CollSt.code : CollSt → Nat
  | .building => 1 | .opening => 2 | .active => 3 | .closing => 4 | .draining => 5

/-- The description record (Table 03-11). (log 42, DEDUCED) -/
def State.describe (s : State) (f : Flight) (c : Coll) : Bytes :=
  let d := c.defn
  let used := ((List.range d.shards).map fun x => c.usedIn x).flatten
  let porch := ((List.range d.shards).map fun x => c.porchVisible c.version x).flatten
  natLe (hHandle f.raw) 4 ++ natLe c.st.code 1 ++ natLe d.metric 1 ++ natLe d.degree 1 ++ natLe d.enc 1 ++ natLe d.dim 2
    ++ natLe d.place 1 ++ natLe d.attrWords 1 ++ natLe d.shards 1 ++ natLe d.flags 1 ++ natLe d.flatThresh 2
    ++ natLe c.version 4 ++ natLe d.capacity 4 ++ natLe used.length 4
    ++ natLe (used.filter fun n => c.tombAt c.version n).length 4 ++ natLe porch.length 4 ++ natLe (s.pinned f.obj).length 4
    ++ natLe (s.oldest f.obj c) 4 ++ natLe 0 4 ++ natLe (c.openBeat.getD (2 ^ 64 - 1)) 8
    ++ natLe (c.frames.length * pageSize) 8 ++ natLe (d.cellarPages * pageSize) 8 ++ natLe 0 56

/-- COLL_DESCRIBE (R73). -/
def execCollDescribe (fid : Nat) (s : State) : Host.Outcome State Fault Refusal :=
  work s (match s.ready? fid 0x283 with
    | some f =>
      match s.collOf f with
      | none => s.fixSt fid .invalid
      | some c =>
        if !(f.zero [(16, 16), (40, 88)]) || !(aligned64 (f.u 32 8)) || c.st == .draining then s.fixSt fid .invalid
        else ((s.admitNow fid).result f 0 (s.describe f c)).fixOk fid 128 0
    | none => s)

/-- COLL_DESTROY (R74). -/
def State.collDestroy (s : State) (f : Flight) (c : Coll) : State :=
  if !(f.zero [(16, 8), (32, 96)]) || c.goingAway then s.fixSt f.fid .invalid
  else
    match s.beatRefusal (f.u 24 8) with
    | some st => s.fixSt f.fid st
    | none =>
      let t := (s.modColl f.obj fun c =>
        { c with destroyS := some (f.u 24 8), st := if c.st = .active then .closing else c.st }).schedule (f.u 24 8) (.destroyColl f.obj)
      (t.admitNow f.fid).fixOk f.fid 0 0

def execCollDestroy (fid : Nat) (s : State) : Host.Outcome State Fault Refusal :=
  work s (match s.ready? fid 0x284 with
    | some f =>
      match s.collOf f with
      | none => s.fixSt fid .invalid
      | some c => s.collDestroy f c
    | none => s)

/-- Whether an admitted request of a collection remains (R67). -/
def State.collBusy (s : State) (key : Nat) (c : Coll) : Bool :=
  s.reqs.any (fun r => r.key == key && (r.opcode == 0x100 || r.opcode == 0x101 || r.opcode == 0x300)) || !c.stage.isEmpty
    || (s.flights.any fun f => f.phase == .active && f.admitCyc.isSome && f.obj == key
        && (hOpcode f.raw / 256 == 1 || hOpcode f.raw / 256 == 2 || hOpcode f.raw == 0x300))
    || s.flights.any fun f => f.phase == .active && f.obj == key && (hOpcode f.raw == 0x700 || hOpcode f.raw == 0x701) && f.u 16 1 == 1

/-- Releases a collection's pages, mirror and handle. -/
def State.dropColl (s : State) (key : Nat) (c : Coll) : State :=
  let w := key / 65536
  let s := ((s.freeInternal w c.frames).uncharge w c.defn.cellarPages).dropWin w c
  { s with colls := tdel s.colls key, mirrors := tdel s.mirrors key }

/-- COLL_DRAIN_DONE (R67). -/
def execCollDrainDone (wing handle : Nat) (s : State) : Host.Outcome State Fault Refusal :=
  work s (
    let key := objKey wing handle
    match tfind s.colls key with
    | some c => if c.st = .draining ∧ s.collBusy key c = false then s.dropColl key c else s
    | none => s)

/-! ## At a beat (R66, R67, R75) -/

/-- The target beat of an open: ACTIVE at version 1, unless a destroy is due at or before it. -/
def State.openAt (s : State) (key beat : Nat) : State :=
  s.modColl key fun c =>
    if c.st = .opening ∧ c.openS = some beat ∧ (match c.destroyS with
      | some d => decide (beat < d)
      | none => true) = true then
      { c with st := .active, version := 1, latest := 1, openBeat := some beat, openS := none }
    else c

/-- The target beat of a destroy: DRAINING. -/
def State.destroyAt (s : State) (key : Nat) : State := s.modColl key fun c => { c with st := .draining, openS := none }

end Sys2Proof.Machine
end

