-- ==== Sys2Proof/Machine/Score.lean ====
section
/-!
DEFINITION. Scores (R199 to R202), the order in which scores rank (R111), filter clauses (R105 to R108), and the sorted lists of
the pipelines: beam and Mantel.
-/
namespace Sys2Proof.Machine
open Sys2Proof

/-! ## Scores -/

/-- One term of a score (R199): metric 1 is L2, the others are products. -/
def scoreTerm (metric : Nat) (q x : Word32) : Word32 :=
  if metric = 1 then
    let e := fsub q x
    fneg (fmul e e)
  else fmul q x

/-- A score from FP32 elements (R200). -/
def scoreVec (metric : Nat) (q x : List Word32) : Word32 := fReduce ((q.zip x).map fun p => scoreTerm metric p.1 p.2)

/-- Value of code c of a dimension, rounded once (R199). -/
def codeVal (sc : Word32 × Word32) (c : Nat) : Word32 := ffma sc.1 (fOfInt c) sc.2

/-- Score of codes under scale table 1 (SQ8) or 2 (SQ4). -/
def Coll.scoreCodes (c : Coll) (table : Nat) (q : List Word32) (codes : List Nat) : Word32 :=
  scoreVec c.defn.metric q (codes.zipIdx.map fun p => codeVal (c.scale table p.2) p.1)

/-- Whether a query and a node score 0 in a COSINE collection, one of them having no norm (R54, R201). (log 121, DEDUCED) -/
def Coll.scoresZero (c : Coll) (q : List Word32) (n : Nat) : Bool := c.defn.metric == 2 && (c.zeros.contains n || q.all fun a => a == f0)

/-- Score of a node with SQ8 codes or SQ4 sketches (R93). -/
def Coll.score (c : Coll) (sq8 : Bool) (q : List Word32) (n : Nat) : Word32 :=
  if c.scoresZero q n then f0
  else if sq8 then c.scoreCodes 1 q (c.codes8 n) else c.scoreCodes 2 q (c.codes4 n)

/-- Whether the code record a score needs is poisoned (R498). -/
def Coll.codePoison (c : Coll) (sq8 : Bool) (n : Nat) : Bool :=
  let part := if sq8 then 3 else 4
  c.poisoned (c.key part n) (c.defn.recSize part)

/-! ## Ranking (R111) -/

/-- Whether a score ranks above another: as numbers, -0 equal to +0, NaN below everything. -/
def ranksAbove (a b : Word32) : Bool := if fIsNan a then false else if fIsNan b then true else flt b a

/-- Whether two scores rank equal. -/
def ranksEqual (a b : Word32) : Bool := !(ranksAbove a b) && !(ranksAbove b a)

/-- Inserts before the first entry that satisfies `after`. -/
def insertWhen {α : Type} (after : α → Bool) (x : α) : List α → List α
  | [] => [x]
  | y :: t => if after y then x :: y :: t else y :: insertWhen after x t

/-- Stable sort, best first: an element goes after every one it does not precede. -/
def sortBy {α : Type} (above : α → α → Bool) (l : List α) : List α :=
  l.foldl (fun acc x => insertWhen (fun y => above x y) x acc) []

/-- R111: inserts a candidate into a list of at most L; the list and whether it was placed. -/
def mantelInsert (L : Nat) (l : List Cand) (c : Cand) : List Cand × Bool :=
  if l.length < L then (insertWhen (fun y => ranksAbove c.score y.score) c l, true)
  else
    match l.getLast? with
    | some y =>
      if ranksAbove c.score y.score then (insertWhen (fun z => ranksAbove c.score z.score) c l.dropLast, true) else (l, false)
    | none => (l, false)

/-- Index at which a candidate was placed. -/
def placedAt (l : List Cand) (c : Cand) : Nat := (l.findIdx? fun y => y.node == c.node).getD 0

/-- Whether a beam node ranks before another: score, then the lower node index (R89). -/
def beamBefore (a b : BeamEnt) : Bool := ranksAbove a.score b.score || (ranksEqual a.score b.score && decide (a.node < b.node))

/-- Inserts a node in a beam of some width, dropping its worst (R89). -/
def beamInsert (width : Nat) (l : List BeamEnt) (e : BeamEnt) : List BeamEnt := (insertWhen (fun y => beamBefore e y) e l).take width

/-! ## Filters (R105 to R109) -/

/-- Clause c of a filter (Table 05-1). -/
def clauseOf (bs : Bytes) : Clause :=
  { word := fld bs 0 1, op := fld bs 1 1, typ := fld bs 2 1, neg := bit (fld bs 3 1) 0, join := bit (fld bs 3 1) 1
    a := BitVec.ofNat 32 (fld bs 4 4), b := BitVec.ofNat 32 (fld bs 8 4) }

/-- Whether a word is at or below another under a type (Table 05-3). -/
def typedLe (typ : Nat) (a b : Word32) : Bool :=
  if typ = 0 then decide (a.toNat ≤ b.toNat) else if typ = 1 then decide (a.toInt ≤ b.toInt) else fle a b

/-- Equality under a type. -/
def typedEq (typ : Nat) (a b : Word32) : Bool := if typ = 2 then feq a b else a == b

/-- R108: whether one clause is allowed in a collection of `words` attribute words. -/
def clauseOk (words : Nat) (bs : Bytes) : Bool :=
  let c := clauseOf bs
  decide (c.word < words) && decide (c.op ≤ 4) && decide (c.typ ≤ 2) && (decide (c.op < 2) || c.typ == 0)
    && (c.op == 1 || c.op == 4 || c.b == 0) && !(c.typ == 2 && fIsNan c.a) && !(c.typ == 2 && c.op == 1 && fIsNan c.b)
    && !(c.op == 1 && !(typedLe c.typ c.a c.b)) && decide (fld bs 3 1 < 4) && zeroAt bs 12 4

/-- R107, R108: whether a filter is allowed. -/
def filterOk (words : Nat) (bs : List Bytes) : Bool :=
  bs.all (clauseOk words) && match bs with
    | b :: _ => !(clauseOf b).join
    | [] => true

/-- The test of a clause on its word, after NEG (R106, R107). -/
def Clause.passes (c : Clause) (w : Word32) : Bool :=
  let t := if c.op = 0 then typedEq c.typ w c.a
    else if c.op = 1 then typedLe c.typ c.a w && typedLe c.typ w c.b
    else if c.op = 2 then (w &&& c.a) != 0
    else if c.op = 3 then (w &&& c.a) == c.a
    else (w &&& c.b) == c.a
  t != c.neg

/-- Whether every group of clauses has one that passes (R107): `cur` is the outcome of the group so far. -/
def groupsPass (attr : Nat → Word32) : Bool → List Clause → Bool
  | cur, [] => cur
  | cur, c :: t =>
    if c.join then groupsPass attr (cur || c.passes (attr c.word)) t
    else cur && groupsPass attr (c.passes (attr c.word)) t

/-- A whole filter on an attribute record. -/
def filterPasses (attr : Nat → Word32) (cs : List Clause) : Bool := groupsPass attr true cs

/-- A filter on a node; a poisoned attribute record fails it (R498). -/
def Coll.filter (c : Coll) (n : Nat) (cs : List Clause) : Bool :=
  cs.isEmpty || (!(c.poisoned (c.key 7 n) (c.defn.recSize 7)) && filterPasses (fun w => BitVec.ofNat 32 (c.attr n w)) cs)

end Sys2Proof.Machine
end

