-- ==== Sys2Proof/Machine/Blend.lean ====
section
/-!
DEFINITION. Blend (R161 to R163): exp, ln and reciprocal square root at their special values, the running state of a softmax, its
combination, result records, and local blocks (R170).
-/
namespace Sys2Proof.Machine
open Sys2Proof

/-! ## Functions accurate within 2 units in the last place (R161, Table 09-6) -/

/-- exp: exact at infinities and NaN, elsewhere free within its bound (log 5, DESIGN CHOICE). -/
def fexp (a : Word32) : Word32 :=
  match fval a with
  | .nan => fround .nan
  | .inf neg => if neg then f0 else a
  | .fin neg m e => fWithin2 (expVal neg m e) (Config.expF32 a)

/-- Natural logarithm: exact at 0, infinities and negative numbers, elsewhere free within its bound (log 5, DESIGN CHOICE). -/
def fln (a : Word32) : Word32 :=
  match fval a with
  | .nan => fround .nan
  | .inf neg => if neg then fround .nan else a
  | .fin neg m e => if m = 0 then fNegInf else if neg then fround .nan else fWithin2 (lnVal m e) (Config.lnF32 a)

/-! ## The softmax -/

/-- The state before any key. -/
def BlendSt.empty (dv : Nat) : BlendSt := { m := fNegInf, l := f0, acc := List.replicate dv f0, n := 0 }

/-- One key of blend order with score s and value v (R161). -/
def BlendSt.key (b : BlendSt) (scale s : Word32) (v : List Word32) : BlendSt :=
  let t := fmul scale s
  let up := flt b.m t
  let r := fexp (fsub b.m t)
  let m := if up then t else b.m
  let l := if up then fmul b.l r else b.l
  let acc := if up then b.acc.map fun a => fmul a r else b.acc
  let w := fexp (fsub t m)
  { m, l := fadd l w, acc := (acc.zip v).map fun p => fadd p.1 (fmul w p.2), n := b.n + 1 }

/-- combine of R161; a state without keys leaves the other as it is (log 17, DEDUCED). -/
def BlendSt.combine (a b : BlendSt) : BlendSt :=
  if a.n = 0 then b
  else if b.n = 0 then a
  else
    let m := if flt a.m b.m then b.m else a.m
    let r1 := fexp (fsub a.m m)
    let r2 := fexp (fsub b.m m)
    { m, l := fadd (fmul a.l r1) (fmul b.l r2)
      acc := (a.acc.zip b.acc).map fun p => fadd (fmul p.1 r1) (fmul p.2 r2), n := a.n + b.n }

/-- LSE of R161; minus infinity without keys (R162). -/
def BlendSt.lse (b : BlendSt) : Word32 := if b.n = 0 then fNegInf else fadd b.m (fln b.l)

/-- Output elements of R161; zero without keys (R162). -/
def BlendSt.out (b : BlendSt) : List Word32 := if b.n = 0 then b.acc.map fun _ => f0 else b.acc.map fun a => fdiv a b.l

/-- Bytes of an output element: OUT_FMT 0 FP32, 1 BF16. -/
def outBytes (fmt : Nat) : Nat := if fmt = 0 then 4 else 2

def outElem (fmt : Nat) (a : Word32) : Bytes := if fmt = 0 then natLe a.toNat 4 else natLe (fTo bf16 a) 2

/-- Size of a result record (R163). -/
def attnRec (dv fmt : Nat) : Nat := roundUp (16 + dv * outBytes fmt) 64

/-- A count in a 16-bit field; what a larger one reads as is a free value (log 18, DESIGN CHOICE). -/
def count16 (free n : Nat) : Nat := if n < 65536 then n else Config.freeNat free % 65536

/-- A result record (Table 07-2). -/
def BlendSt.record (b : BlendSt) (free fmt nlocal nout : Nat) : Bytes :=
  slice (natLe b.lse.toNat 4 ++ natLe (if b.n = 0 then fNegInf else b.m).toNat 4 ++ natLe (count16 free b.n) 2 ++ natLe nlocal 2
    ++ natLe nout 2 ++ natLe 0 2 ++ (b.out.map (outElem fmt)).flatten) 0 (attnRec b.acc.length fmt)

/-! ## Local blocks (R170) -/

/-- A local block: its geometry and bytes. -/
structure LocalBlock where
  n : Nat
  heads : Nat
  d : Nat
  dv : Nat
  q : Nat
  bytes : Bytes
deriving DecidableEq, Repr

def LocalBlock.valOff (b : LocalBlock) : Nat := roundUp (b.n * b.heads * b.d * fmtBytes b.q) 64

def LocalBlock.maskOff (b : LocalBlock) : Nat := roundUp (b.valOff + b.n * b.heads * b.dv * fmtBytes b.q) 64

def LocalBlock.key (b : LocalBlock) (j h : Nat) : List Word32 :=
  fmtVec b.q b.d (b.bytes.drop ((j * b.heads + h) * b.d * fmtBytes b.q))

def LocalBlock.value (b : LocalBlock) (j h : Nat) : List Word32 :=
  fmtVec b.q b.dv (b.bytes.drop (b.valOff + (j * b.heads + h) * b.dv * fmtBytes b.q))

def LocalBlock.mask (b : LocalBlock) (j : Nat) : Nat := fld b.bytes (b.maskOff + 2 * j) 2

/-- Mask bits of candidates that do not exist are 0, and so is the padding at the end of the block (R170). (log 47, DEDUCED) -/
def LocalBlock.ok (b : LocalBlock) (cands : Nat) : Bool :=
  (List.range b.n).all (fun j => decide (b.mask j < 2 ^ cands))
    && zeroAt b.bytes (b.maskOff + 2 * b.n) (localBytes b.n b.heads b.d b.dv b.q - b.maskOff - 2 * b.n)

/-- Local keys that candidate c may attend, in ascending order (R171). -/
def LocalBlock.seen (b : LocalBlock) (c : Nat) : List Nat := (List.range b.n).filter fun j => bit (b.mask j) c

/-- Blends the local keys of candidate c under head h, after scoring each under a metric. -/
def LocalBlock.blend (b : LocalBlock) (metric : Nat) (scale : Word32) (query : List Word32) (c h : Nat) (st : BlendSt) : BlendSt :=
  (b.seen c).foldl (fun st j =>
    let k := b.key j h
    let k := if metric = 2 then fNormalise k else k
    st.key scale (if metric = 2 ∧ fNoNorm (b.key j h) then f0 else scoreVec metric query k) (b.value j h)) st

end Sys2Proof.Machine
end

