-- ==== Sys2Proof/Machine/Kv.lean ====
section
/-!
DEFINITION. KV sessions (07): geometry of pages, stored keys and values, the order of a session's descriptors, prefetch and spill, and
the meanings of the session commands.
-/
namespace Sys2Proof.Machine
open Sys2Proof

/-! ## Geometry (R176) -/

/-- Shard, and tier page within the layer and shard, of KV page p. -/
def Sess.tierOf (e : Sess) (p : Nat) : Nat × Nat := (p % e.shards, p / e.shards / e.perTier)

/-- Offset in a page of element i of head h at position t, key or value. -/
def Sess.elemOff (e : Sess) (isVal : Bool) (t h i : Nat) : Nat :=
  ((if isVal then 64 * e.hkv * e.dh else 0) + (t * e.hkv + h) * e.dh + i) * e.elem

/-- Offset in a page of a scale (R176, log 19, DEDUCED). -/
def Sess.scaleOff (e : Sess) (isVal : Bool) (t h : Nat) : Nat :=
  128 * e.hkv * e.dh * e.elem + 4 * ((t * e.hkv + h) * 2 + b2n isVal)

def Sess.len (e : Sess) (layer : Nat) : Nat := tget 0 e.lens layer

/-- A stored key or value as FP32 elements (R199). -/
def Sess.vec (e : Sess) (isVal : Bool) (layer pos h : Nat) : List Word32 :=
  let base := kvPageKey layer (pos / 64)
  let t := pos % 64
  let bs := getBytes e.mem (base + e.elemOff isVal t h 0) (e.dh * e.elem)
  if e.kfmt = 0 then fmtVec 1 e.dh bs
  else
    let scale : Word32 := BitVec.ofNat 32 (leNat (getBytes e.mem (base + e.scaleOff isVal t h) 4))
    bs.map fun b => fmul (fOf e4m3 b.toNat) scale

/-- R179: the scale and the encoding of one head's elements. -/
def amax (l : List Word32) : Word32 := l.foldl (fun m a => if flt m (fabs a) then fabs a else m) f0

/-- FP32 448, the largest E4M3 value. -/
def f448 : Word32 := 0x43E00000#32

/-- Writes one head of one position, key or value (R179). -/
def Sess.putVec (e : Sess) (isVal : Bool) (layer pos h : Nat) (x : List Word32) : Sess :=
  let base := kvPageKey layer (pos / 64)
  let t := pos % 64
  if e.kfmt = 0 then { e with mem := putBytes e.mem (base + e.elemOff isVal t h 0) ((x.map fun a => natLe (fTo bf16 a) 2).flatten) }
  else
    let m := amax x
    let scale := if feq m f0 then f1 else fdiv m f448
    let mem := putBytes e.mem (base + e.elemOff isVal t h 0) (x.map fun a => BitVec.ofNat 8 (fTo e4m3 (fdiv a scale)))
    { e with mem := putBytes mem (base + e.scaleOff isVal t h) (natLe scale.toNat 4) }

/-- Whether a poisoned line lies in KV page p of a layer. -/
def Sess.pagePoison (e : Sess) (layer p : Nat) : Option Nat :=
  e.bad.find? fun k => decide (kvPageKey layer p / 64 ≤ k) && decide (64 * k < kvPageKey layer p + e.pageBytes)

/-- Hall die of a shard of a session. -/
def Sess.die (e : Sess) (shard : Nat) : Nat := e.dies.getD shard 0

/-- Floor and Cellar tier pages of one layer and shard (R177). -/
def Sess.charge (e : Sess) : Nat × Nat :=
  let a := cdiv (cdiv (e.maxTokens / 64) e.shards) e.perTier
  if e.resident = 0 then (a, 0)
  else (cdiv (cdiv e.sink e.shards) e.perTier + cdiv (cdiv e.resident e.shards) e.perTier + 1, a)

/-- The note of a poisoned KV line (R502). Which of the frames of its layer and shard holds a page is free (log 8, DESIGN CHOICE). -/
def Sess.noteAt (e : Sess) (handle line : Nat) : Note :=
  let key := 64 * line / 2 ^ 18
  let shard := key % 2 ^ 30 % e.shards
  let n := e.charge.1
  let at_ := e.frames[(shard * e.layers + key / 2 ^ 30) * n + Config.frameOf (e.die shard) key % n]?
  { kind := 1, unit := (at_.map FrameAt.stack).getD (3 * e.die shard), handle }

def State.modSess (s : State) (key : Nat) (g : Sess → Sess) : State := { s with sessions := tupd s.sessions key g }

/-- The session that a descriptor's HANDLE names (R174). -/
def State.sessOf (s : State) (f : Flight) : Option Sess :=
  if hHandle f.raw < 16384 then tfind s.sessions f.obj else none

/-! ## Order within a session (R180, R181) -/

/-- Whether reads of a session are in progress. -/
def State.kvReads (s : State) (key : Nat) : Bool :=
  s.reqs.any fun r => r.key == key && (r.opcode == 0x312 || r.opcode == 0x318)

/-- A session descriptor that may act: ready, or waiting behind a truncate. -/
def State.kvFlight (s : State) (fid op : Nat) : Option Flight :=
  match s.flight? fid with
  | some f =>
    let waits := match s.sessOf f with
      | some e => e.waits.contains fid
      | none => false
    if hOpcode f.raw = op ∧ (f.phase = .ready ∨ (f.phase = .active ∧ waits = true)) then some f else none
  | none => none

/-- Whether a destroy of the session waits. -/
def State.sessClosing (s : State) (e : Sess) : Bool :=
  s.flights.any fun f => e.waits.contains f.fid && hOpcode f.raw == 0x315

/-- Runs a session descriptor in its turn: behind every earlier truncate or destroy, and for one of these when the reads admitted
before it are over; else it waits, admitted, `join` being what its admission does. What Intake can check of it (`ok`) it checks first
(R11, R12). The lengths a descriptor is checked against are those at its turn, behind a truncate those after the cut
(log 133, DESIGN CHOICE). -/
def State.kvTurn (s : State) (f : Flight) (e : Sess) (cut ok : Bool) (join : State → State) (run : State → Sess → State) : State :=
  if (f.phase = .ready ∧ ok = false) ∨ (s.sessClosing e = true ∧ e.waits.contains f.fid = false) then s.fixSt f.fid .invalid
  else if (e.waits = [] ∨ e.waits.head? = some f.fid) ∧ (cut = false ∨ s.kvReads f.obj = false) then
    let e' := { e with waits := e.waits.filter fun x => x != f.fid }
    let t := run (if e.waits = [] then s else s.modSess f.obj fun _ => e') e'
    let waits : Bool := match t.active? f.fid (hOpcode f.raw) with
      | some _ => (t.req? f.fid).isNone
      | none => false
    if waits then t.modSess f.obj fun e => { e with waits := f.fid :: e.waits } else t
  else if f.phase = .ready ∧ (cut ∨ e.waits ≠ []) then
    join ((s.modSess f.obj fun e => { e with waits := e.waits ++ [f.fid] }).admitNow f.fid)
  else s

/-! ## KV_CREATE (R174 to R177) -/

def sessOfRaw (f : Flight) : Sess :=
  { layers := f.u 16 2, hkv := f.u 18 1, group := f.u 19 1, dh := f.u 20 2, kfmt := f.u 22 1, shards := f.u 23 1
    maxTokens := f.u 24 4, resident := f.u 28 4, sink := f.u 32 1, lookahead := f.u 33 1, hold := f.u 34 1, pos0 := f.u 36 4 }

/-- Ranges of Table 07-4, and P at most a tier page. -/
def Sess.fieldsOk (e : Sess) : Bool :=
  inside 1 256 e.layers && inside 1 64 e.hkv && inside 1 16 e.group && (e.dh == 64 || e.dh == 128 || e.dh == 256)
    && decide (e.kfmt ≤ 1) && (e.shards == 1 || e.shards == 2 || e.shards == 4) && inside 64 0xFFFFFFC0 e.maxTokens
    && e.maxTokens % 64 == 0 && e.resident != 1 && decide (e.sink ≤ 16) && decide (e.lookahead ≤ 8)
    && decide (e.pageBytes ≤ pageSize)

/-- KV_CREATE. (log 51, DEDUCED) -/
def State.kvCreate (s : State) (f : Flight) : State :=
  let e := sessOfRaw f
  if !(f.zero [(35, 1), (40, 88)]) || !e.fieldsOk || decide (16384 ≤ hHandle f.raw) || (s.sessOf f).isSome then s.fixSt f.fid .invalid
  else if s.sessions.length ≥ 16384 then s.fixSt f.fid .noResource
  else
    let dies := pickDies s.free e.shards
    let c := e.charge
    match s.useFree.allocInternal f.wing (dies.map fun d => (dieStacks d, e.layers * c.1)) with
    | none => s.fixSt f.fid .noResource
    | some (t, frames) =>
      match t.chargeCellar f.wing (e.layers * e.shards * c.2) with
      | none => s.fixSt f.fid .noResource
      | some u =>
        let n := e.layers * e.shards * c.2
        let e := { e with dies, frames, winBase := u.winRun f.wing n (s.free / 24), winPages := n }
        (({ u with sessions := tput u.sessions f.obj e }).admitNow f.fid).fixOk f.fid 0 0

def execKvCreate (fid : Nat) (s : State) : Host.Outcome State Fault Refusal :=
  work s (match s.ready? fid 0x310 with
    | some f => s.kvCreate f
    | none => s)

/-! ## KV_APPEND (R178, R179) -/

/-- Layers that a LAYER field names: one, or all. -/
def Sess.layersOf (e : Sess) (layer : Nat) : List Nat :=
  if layer = 0xFFFF then List.range e.layers else if layer < e.layers then [layer] else []

/-- The elements of one head in a source of EFMT q: layer index li, token t, key or value, head h. -/
def Sess.srcVec (e : Sess) (q tokens li t : Nat) (isVal : Bool) (h : Nat) (bs : Bytes) : List Word32 :=
  let row := 2 * e.hkv * e.dh
  let at_ := (li * tokens + t) * row + (if isVal then e.hkv * e.dh else 0) + h * e.dh
  fmtVec q e.dh (bs.drop (at_ * fmtBytes q))

/-- Writes the tokens of one layer from its length onward. -/
def Sess.appendLayer (e : Sess) (q tokens li layer : Nat) (bs : Bytes) : Sess :=
  let from_ := e.len layer
  let e := (List.range tokens).foldl (fun e t => (List.range e.hkv).foldl (fun e h =>
    (e.putVec false layer (from_ + t) h (e.srcVec q tokens li t false h bs)).putVec true layer (from_ + t) h
      (e.srcVec q tokens li t true h bs)) e) e
  { e with lens := tset 0 e.lens layer (from_ + tokens) }

/-- Lines that positions t0 to t1 - 1 of a KV page cover whole: keys, values, scales. -/
def Sess.linesOf (e : Sess) (layer p t0 t1 : Nat) : List Nat :=
  let base := kvPageKey layer p
  let n := (t1 - t0) * e.hkv * e.dh * e.elem
  (wholeLines (base + e.elemOff false t0 0 0) n ++ wholeLines (base + e.elemOff true t0 0 0) n
    ++ if e.kfmt = 1 then wholeLines (base + e.scaleOff false t0 0) (8 * e.hkv * (t1 - t0)) else []).map (· / 64)

/-- Lines written whole by an append lose their poison (R499). -/
def Sess.clearBad (e : Sess) (layer from_ to_ : Nat) : Sess :=
  let whole := ((List.range (cdiv to_ 64 - from_ / 64)).map fun i =>
    let p := from_ / 64 + i
    e.linesOf layer p (max from_ (64 * p) - 64 * p) (min to_ (64 * p + 64) - 64 * p)).flatten
  { e with bad := e.bad.filter fun k => !(whole.contains k) }

/-- Fields of a KV_APPEND, whatever the layers' lengths (R178). -/
def appendFields (f : Flight) (e : Sess) (ls : List Nat) : Bool :=
  let n := f.u 20 4
  f.zero [(24, 8), (48, 80)] && ls != [] && decide (f.u 18 1 ≤ 1) && decide (f.u 19 1 ≤ 2) && inside 1 4096 n && aligned64 (f.u 32 8)
    && f.u 40 8 == ls.length * n * 2 * e.hkv * e.dh * fmtBytes (f.u 19 1)

/-- Whether a KV_APPEND is accepted at the layers' lengths (R178). -/
def appendOk (f : Flight) (e : Sess) (ls : List Nat) : Bool :=
  appendFields f e ls && ls.all fun l => decide (e.len l + f.u 20 4 ≤ e.maxTokens) && e.len l == e.len (ls.headD 0)

def State.kvAppend (s : State) (f : Flight) (src : Dma) (e : Sess) : State :=
  let ls := e.layersOf (f.u 16 2)
  let n := f.u 20 4
  if !(appendOk f e ls) then s.fixSt f.fid .invalid
  else
    let r := s.readSrc f (f.u 18 1) (f.u 32 8) (f.u 40 8) src 0
    match r.2 with
    | .stop st n => r.1.stopAt f.fid st n
    | .bytes bs =>
      if !(allFinite (fmtVec (f.u 19 1) (bs.length / fmtBytes (f.u 19 1)) bs)) then r.1.fixSt f.fid .invalid
      else
        let t := r.1.modSess f.obj fun e => ls.zipIdx.foldl (fun e p =>
          (e.appendLayer (f.u 19 1) n p.2 p.1 bs).clearBad p.1 (e.len p.1) (e.len p.1 + n)) e
        (if f.phase = .active then t else t.admitNow f.fid).fixOk f.fid 0 0

def execKvAppend (fid : Nat) (src : Dma) (s : State) : Host.Outcome State Fault Refusal :=
  work s (match s.kvFlight fid 0x311 with
    | some f =>
      match s.sessOf f with
      | some e => s.kvTurn f e false (appendFields f e (e.layersOf (f.u 16 2))) id fun s e => s.kvAppend f src e
      | none => s.fixSt fid .invalid
    | none => s)

/-! ## Spill and prefetch (R182 to R185) -/

/-- Tier pages of a layer and shard that hold KV pages lo to hi, as names. -/
def Sess.tierNames (e : Sess) (layer lo hi : Nat) : List Nat :=
  ((List.range (hi - lo)).map fun i => let x := e.tierOf (lo + i); kvName layer x.1 x.2).foldl insertAsc []

/-- Tier pages that hold positions from_ to to_ - 1. -/
def Sess.namesOf (e : Sess) (layer from_ to_ : Nat) : List Nat :=
  if to_ ≤ from_ then [] else e.tierNames layer (from_ / 64) (cdiv to_ 64)

/-- Whether a tier page is held by a prefetch. -/
def Sess.isHeld (e : Sess) (name : Nat) : Bool := e.pref.any fun x => x.name == name

/-- Issues the prefetch of one spilled tier page that is not cached: its fill begins in the request's class, and the page is held;
counts (issued, refused). (log 50, DEDUCED) -/
def State.prefetchOne (s : State) (key cls name : Nat) (acc : Nat × Nat) : State × (Nat × Nat) :=
  match tfind s.sessions key with
  | none => (s, acc)
  | some e =>
    let w := key / 65536
    let p := e.winPage name
    if !(e.spilled.contains name) || (s.page w p).cached then (s, acc)
    else
      match (s.touch w p).takeWin w (pageDie p) with
      | (t, some st) =>
        ((t.startFill w p st cls).modSess key fun e => { e with pref := e.pref ++ [{ name, since := s.beat.beats }] }, (acc.1 + 1, acc.2))
      | (t, none) => (t, (acc.1, acc.2 + 1))

/-- Prefetches tier pages, counting the issued ones at `cnt` of each die's KV block and the refused ones. -/
def State.prefetchAll (s : State) (key cls : Nat) (names : List Nat) (cnt : Nat) : State × (Nat × Nat) :=
  names.foldl (fun acc name =>
    let die := match tfind s.sessions key with
      | some e => e.die (kvShard name)
      | none => 0
    let r := acc.1.prefetchOne key cls name acc.2
    let t := r.1.bumpBy (kvReg die cnt) (r.2.1 - acc.2.1)
    (t.bumpBy (kvReg die 0x58) (r.2.2 - acc.2.2), r.2)) (s, (0, 0))

/-- Fields of a KV_PREFETCH (R183). -/
def prefetchOk (f : Flight) (e : Sess) : Bool := f.zero [(18, 2), (28, 100)] && e.layersOf (f.u 16 2) != []

/-- KV_PREFETCH (R183). -/
def State.kvPrefetch (s : State) (f : Flight) (e : Sess) : State :=
  let ls := e.layersOf (f.u 16 2)
  if !(prefetchOk f e) then s.fixSt f.fid .invalid
  else
    let names := (ls.map fun l => e.namesOf l (f.u 20 4) (f.u 20 4 + f.u 24 4)).flatten
    let r := s.prefetchAll f.obj f.cls names 0x48
    (if f.phase = .active then r.1 else r.1.admitNow f.fid).fixOk f.fid 0 (pack32 r.2.1 r.2.2)

def execKvPrefetch (fid : Nat) (s : State) : Host.Outcome State Fault Refusal :=
  work s (match s.kvFlight fid 0x313 with
    | some f =>
      match s.sessOf f with
      | some e => s.kvTurn f e false (prefetchOk f e) id fun s e => s.kvPrefetch f e
      | none => s.fixSt fid .invalid
    | none => s)

/-- Whether a KV page keeps its tier page from spilling (R182). -/
def Sess.keeps (e : Sess) (layer p : Nat) : Bool :=
  decide (e.len layer < 64 * (p + 1)) || decide (p < e.sink) || decide (cdiv (e.len layer) 64 ≤ p + e.resident)

/-- KV pages of tier page t of a shard. -/
def Sess.pagesIn (e : Sess) (shard t : Nat) : List Nat := (List.range e.perTier).map fun i => (t * e.perTier + i) * e.shards + shard

/-- Whether a tier page spills (R182). -/
def Sess.spills (e : Sess) (layer shard t : Nat) : Bool :=
  e.resident != 0 && (e.pagesIn shard t).all fun p => !(e.keeps layer p)

/-- The tier pages of a layer and shard that are eligible to spill and have not. -/
def Sess.spillWait (e : Sess) (layer shard : Nat) : List Nat :=
  (List.range (e.len layer / 64 / e.shards / e.perTier + 1)).filter fun t =>
    e.spills layer shard t && !(e.spilled.contains (kvName layer shard t))

/-- A tier page whose copy stands in Cellar's window: it counts as spilled, and its Floor frame serves the session's later pages
(log 131, DESIGN CHOICE). -/
def State.spillDone (s : State) (key : Nat) (e : Sess) (name : Nat) : State :=
  (s.modSess key fun e => { e with spilled := e.spilled ++ [name], spilling := e.spilling.filter fun x => x != name }).bump
    (kvReg (e.die (kvShard name)) 0x40)

/-- The copy of a tier page into the session's Cellar allocation, through the Cellar window in TC7 (R182, R280): where it went through to
flash, the page counts as spilled once it is programmed. A Cellar that takes no writes leaves the page in Floor. -/
def State.spillOne (s : State) (key : Nat) (e : Sess) (name : Nat) : State :=
  let w := key / 65536
  let r := s.winWrite w 7 [(e.winPage name * pageSize, e.perTier * e.pageBytes)]
  if r.2.stop.isSome then s
  else if (r.1.page w (e.winPage name)).cached then r.1.spillDone key e name
  else r.1.modSess key fun e => { e with spilling := e.spilling ++ [name] }

/-- KV_SPILL (R182): the lowest eligible tier page of a layer and shard is copied to Cellar; first a copy under way there ends. -/
def execKvSpill (wing handle layer shard : Nat) (s : State) : Host.Outcome State Fault Refusal :=
  work s (
    let key := objKey wing handle
    match tfind s.sessions key with
    | some e =>
      if layer ≥ e.layers ∨ shard ≥ e.shards then s
      else
        match e.spilling.find? fun x => kvLayer x == layer && kvShard x == shard with
        | some name => if s.flashOwes (unitsOf wing (e.winPage name * pageSize) pageSize) then s else s.spillDone key e name
        | none =>
          match (e.spillWait layer shard).head? with
          | some t => s.spillOne key e (kvName layer shard t)
          | none => s
    | none => s)

/-- Beats a prefetched page is held. -/
def Sess.holdBeats (e : Sess) : Nat := if e.hold = 0 then 4 else e.hold

/-- KV_PREFETCH_HOLD_EXPIRY (R185): the page may be evicted from then on. -/
def execKvPrefetchHoldExpiry (wing handle layer shard page : Nat) (s : State) : Host.Outcome State Fault Refusal :=
  work s (s.modSess (objKey wing handle) fun e =>
    { e with pref := e.pref.filter fun x =>
        !(x.name == kvName layer shard page && decide (x.since + e.holdBeats ≤ s.beat.beats)) })

/-! ## KV_TRUNCATE, KV_DESTROY (R181) -/

/-- Whether every KV page of a tier page of a layer ends at or below a length. -/
def Sess.wholeBelow (e : Sess) (n name : Nat) : Bool :=
  (e.pagesIn (kvShard name) (name % 2 ^ 36)).all fun p => decide (64 * (p + 1) ≤ n)

/-- Spilled tier pages that a cut to a length empties or leaves partly filled. -/
def Sess.cutNames (e : Sess) (n : Nat) : List Nat :=
  (e.spilled ++ e.spilling).filter fun name => decide (n < e.len (kvLayer name)) && !(e.wholeBelow n name)

/-- A layer cut to a length: tier pages that are no longer full come back to Floor, and prefetches of them end.
(log 52, DEDUCED) -/
def Sess.cutLayer (n : Nat) (e : Sess) (layer : Nat) : Sess :=
  if e.len layer ≤ n then e
  else
    let keep := fun (name : Nat) => kvLayer name != layer || e.wholeBelow n name
    { e with
      lens := tset 0 e.lens layer n, spilled := e.spilled.filter keep, spilling := e.spilling.filter keep
      pref := e.pref.filter fun x => keep x.name }

/-- Tag of a descriptor's reads of spilled KV pages. -/
def kvTag : Nat := 4 * 7 + 3

/-- Window address and length of the KV pages of a spilled tier page that hold positions from_ to to_ - 1. -/
def Sess.winBytes (e : Sess) (name from_ to_ : Nat) : Nat × Nat :=
  let l := ((List.range e.perTier).filter fun i =>
    let p := (name % 2 ^ 36 * e.perTier + i) * e.shards + kvShard name
    decide (from_ < 64 * (p + 1)) && decide (64 * p < to_))
  (e.winPage name * pageSize + l.headD 0 * e.pageBytes, l.length * e.pageBytes)

/-- One spilled tier page is read for a descriptor in a class (R185, R279): from its frame, or with its fill, which a prefetch may have
begun; else on demand, which stalls from the first cycle. (log 48, DEDUCED) -/
def State.kvFetch (s : State) (fid wing cls : Nat) (e : Sess) (name from_ to_ : Nat) : State :=
  let p := e.winPage name
  let x := e.winBytes name from_ to_
  let cached := (s.page wing p).cached
  let s := s.readAccess wing cls p
  if cached then s.winIssue wing fid cls kvTag x.1 x.2 false
  else
    let id := s.nextId
    let t := (s.winIssue wing fid cls kvTag x.1 x.2 true 2).bump (kvReg (e.die (kvShard name)) 0x68)
    match t.accesses.find? fun a => a.id == id with
    | some a => t.stallAccess a 2
    | none => t

/-- The cut of a session: window pages of tier pages that do not stay spilled are given up. -/
def State.kvCut (s : State) (f : Flight) (e : Sess) (n : Nat) : State :=
  let t := (e.cutNames n).foldl (fun s name => (s.wipePages f.wing (e.winPage name) 1).unmapPages f.wing (e.winPage name) 1) s
  t.modSess f.obj fun e => (List.range e.layers).foldl (Sess.cutLayer n) e

/-- KV_TRUNCATE: spilled tier pages that stay partly filled are read back before the cut (R181). (log 52, DEDUCED) -/
def State.kvTruncate (s : State) (f : Flight) (e : Sess) : State :=
  let n := f.u 20 4
  if !(f.zero [(16, 4), (24, 104)]) then s.fixSt f.fid .invalid
  else
    let back := (e.cutNames n).filter fun name => e.spilled.contains name && (e.pagesIn (kvShard name) (name % 2 ^ 36)).any fun p => decide (64 * p < n)
    let s := if f.phase = .active then s else s.admitNow f.fid
    let asked := !(s.tagged f.fid kvTag).isEmpty
    let t := if asked then s else back.foldl (fun s name => s.kvFetch f.fid f.wing f.cls e name 0 n) s
    let r := t.winState f.fid kvTag
    match r.2 with
    | .wait => r.1
    | .failed => r.1.fixSt f.fid .mediaError
    | .here => (r.1.kvCut f e n).fixOk f.fid 0 0

def execKvTruncate (fid : Nat) (s : State) : Host.Outcome State Fault Refusal :=
  work s (match s.kvFlight fid 0x314 with
    | some f =>
      match s.sessOf f with
      | some e => s.kvTurn f e true (f.zero [(16, 4), (24, 104)]) id fun s e => s.kvTruncate f e
      | none => s.fixSt fid .invalid
    | none => s)

/-- Releases a session. -/
def State.dropSess (s : State) (key : Nat) (e : Sess) : State :=
  let w := key / 65536
  let s := (s.freeInternal w e.frames).uncharge w (e.layers * e.shards * e.charge.2)
  let s := if e.winPages = 0 then s else (s.wipePages w e.winBase e.winPages).unmapPages w e.winBase e.winPages
  { s with sessions := tdel s.sessions key }

def execKvDestroy (fid : Nat) (s : State) : Host.Outcome State Fault Refusal :=
  work s (match s.kvFlight fid 0x315 with
    | some f =>
      match s.sessOf f with
      | some e =>
        s.kvTurn f e true (f.zero [(16, 112)]) id fun s e =>
          ((if f.phase = .active then s else s.admitNow fid).dropSess f.obj e).fixOk fid 0 0
      | none => s.fixSt fid .invalid
    | none => s)

end Sys2Proof.Machine
end

