-- ==== Sys2Proof/Machine/Merge.lean ====
section
/-!
DEFINITION. Join's merge (R121 to R124) and the records it leaves for Emit (R127).
-/
namespace Sys2Proof.Machine
open Sys2Proof

/-- What Join keeps: the entries in order, TIES_OUT, duplicates removed, and whether TIE_OVERFLOW is due. -/
structure Joined where
  kept : List Cand
  ties : Nat
  dups : Nat
  past : Bool
deriving DecidableEq, Repr

/-- Whether entry b at position j goes before entry a at position i when both hold one vector ID (R122). -/
def beatsDup (a : Cand) (i : Nat) (b : Cand) (j : Nat) : Bool :=
  b.vid == a.vid &&
    ((b.sq8 && !a.sq8) || (b.sq8 == a.sq8 && (decide (b.source < a.source) || (b.source == a.source && decide (j < i)))))

/-- Entries left after duplicate removal (R122), in the order given. -/
def dropDups (l : List Cand) : List Cand :=
  let z := l.zipIdx
  (z.filter fun a => !(z.any fun b => beatsDup a.1 a.2 b.1 b.2)).map Prod.fst

/-- Groups of neighbours whose scores rank equal. -/
def tieGroups : List Cand → List (List Cand)
  | [] => []
  | c :: t =>
    match tieGroups t with
    | [] => [[c]]
    | g :: gs =>
      match g with
      | [] => [c] :: gs
      | d :: _ => if ranksEqual c.score d.score then (c :: g) :: gs else [c] :: g :: gs

/-- Whether a group holds entries of more than one source. -/
def mixed (g : List Cand) : Bool := g.any fun a => g.any fun b => a.source != b.source

/-- The order of a tie between sources is free: each entry takes a free key (R123, log 3, DESIGN CHOICE). -/
def freeOrder (free : Nat) (g : List Cand) : List Cand :=
  if mixed g then
    (sortBy (fun (a b : Nat × Cand) => decide (a.1 < b.1)) (g.zipIdx.map fun p => (Config.freeNat (free + p.2), p.1))).map Prod.snd
  else g

/-- Orders every group, each with keys of its own. -/
def orderGroups (free : Nat) : List (List Cand) → List Cand
  | [] => []
  | g :: gs => freeOrder free g ++ orderGroups (free + g.length) gs

/-- Join (R122 to R124): duplicates removed where asked, the K best kept. -/
def joinCands (free k : Nat) (dedup : Bool) (lists : List (List Cand)) : Joined :=
  let all := lists.flatten
  let left := if dedup then dropDups all else all
  let dups := all.length - left.length
  if lists.length ≤ 1 then { kept := left.take k, ties := 0, dups, past := false }
  else
    let ranked := orderGroups free (tieGroups (sortBy (fun (a b : Cand) => ranksAbove a.score b.score) left))
    let kept := ranked.take k
    let ties := match kept.getLast? with
      | some x => if kept.length = k then ((ranked.drop k).filter fun c => ranksEqual c.score x.score).length else 0
      | none => 0
    { kept, ties, dups, past := decide (0 < ties) }

/-- A result record (Table 05-5). -/
def candRecord (c : Cand) : Bytes :=
  natLe (c.vid % 2 ^ 48 + c.source % 256 * 2 ^ 48 + b2n c.porch * 2 ^ 56 + b2n c.sq8 * 2 ^ 57) 8 ++ natLe c.score.toNat 4 ++ natLe 0 4

/-- A record with NV set (R128). -/
def nvRecord : Bytes := natLe (2 ^ 63) 8 ++ natLe 0 8

/-- K result records: the entries, then records that are not valid (R128). -/
def resultRecords (k : Nat) (l : List Cand) : Bytes :=
  (l.map candRecord).flatten ++ (List.replicate (k - l.length) nvRecord).flatten

/-- Merge passes that bring some runs down to one (R115). -/
def passesFor : Nat → Nat → Nat
  | 0, _ => 0
  | fuel + 1, runs => if runs ≤ 1 then 0 else 1 + passesFor fuel (runs - min runs 16 + 1)

end Sys2Proof.Machine
end

