-- ==== Sys2Proof/Machine/Pipeline.lean ====
section
/-!
DEFINITION. The pipelines (04, 05): slots and Mantel segments, the grant rules, and what one shard of one search does when it
scores a node, expands, scans a page, reads its Porch entries and ends.
-/
namespace Sys2Proof.Machine
open Sys2Proof

/-! ## Slots and segments (R84 to R87, R113, R417) -/

/-- Whether Join has accepted every list of the k-th shard. (log 40, DEDUCED) -/
def Req.released (r : Req) (k : Nat) : Bool :=
  r.searches.all fun x => match x.shards[k]? with
    | some q => q.ph == .accepted
    | none => true

/-- Slots a granted request holds, as (pipeline, reserved) (R87). (log 40, DEDUCED; log 44, DEDUCED) -/
def Req.slots (r : Req) : List (Nat × Bool) :=
  if r.waiting then []
  else
    match r.searches with
    | x :: _ => (x.shards.zipIdx.filter fun p => p.1.pipe == r.host || !(r.released p.2)).map fun p => (p.1.pipe, p.1.reserved)
    | [] => []

/-- Shared and reserved slots in use in a pipeline. (log 44, DEDUCED) -/
def State.slotsUsed (s : State) (p : Nat) (reserved : Bool) : Nat :=
  sumNat (s.reqs.map fun r => (r.slots.filter fun x => x.1 == p && x.2 == reserved).length)

/-- Shared slots that a wing holds in a pipeline. -/
def State.wingSlots (s : State) (w p : Nat) : Nat :=
  sumNat ((s.reqs.filter fun r => r.wing == w).map fun r => (r.slots.filter fun x => x.1 == p && !x.2).length)

/-- Segments in use in a pipeline: a request of one segment on a reserved slot holds a reserved one (R113). (log 44, DEDUCED) -/
def State.segsUsed (s : State) (p : Nat) (reserved : Bool) : Nat :=
  sumNat (s.reqs.map fun r => sumNat ((r.slots.filter fun x => x.1 == p).map fun x =>
    if (x.2 && r.segs == 1) == reserved then r.segs else 0))

def State.sharedMax (s : State) (w : Nat) : Nat := bits (s.reg (wngReg w 0x2808)) 9 0

/-- How a request would take a pipeline: on a reserved slot or a shared one; none when it cannot (R86). -/
def State.takeIn (s : State) (r : Req) (p : Nat) (quota : Bool) : Option Bool :=
  let sharedSegs := 960 - s.segsUsed p false
  if r.cls = 0 ∧ s.slotsUsed p true < 64 ∧ (if r.segs = 1 then s.segsUsed p true < 64 else r.segs ≤ sharedSegs) then some true
  else if s.slotsUsed p false < 960 ∧ r.segs ≤ sharedSegs ∧ (quota = false ∨ s.wingSlots r.wing p < s.sharedMax r.wing) then some false
  else none

/-- Free slots usable by a class. -/
def State.usable (s : State) (cls p : Nat) : Nat :=
  (960 - s.slotsUsed p false) + (if cls = 0 then 64 - s.slotsUsed p true else 0)

/-- The pipeline a request takes on a die (R86): of those that can take it the one with more usable slots, else the even one. -/
def State.pickPipe (s : State) (r : Req) (d : Nat) (quota : Bool) : Option (Nat × Bool) :=
  let a := 2 * d
  let b := 2 * d + 1
  match s.takeIn r a quota, s.takeIn r b quota with
  | some x, some y => if s.usable r.cls b > s.usable r.cls a then some (b, y) else some (a, x)
  | some x, none => some (a, x)
  | none, some y => some (b, y)
  | none, none => none

/-- Hall dies a request needs, one for each shard. -/
def Req.dies (r : Req) : List Nat :=
  match r.searches with
  | x :: _ => x.shards.map ShardQ.die
  | [] => []

/-- All the pipelines a request would take, or none when one is missing (R84). -/
def State.pickAll (s : State) (r : Req) (quota : Bool) : Option (List (Nat × Bool)) :=
  r.dies.foldr (fun d acc => match s.pickPipe r d quota, acc with
    | some x, some l => some (x :: l)
    | _, _ => none) (some [])

/-- Whether a choice of pipelines uses a shared slot or segment. (log 44, DEDUCED) -/
def usesShared (r : Req) (l : List (Nat × Bool)) : Bool := l.any fun x => !x.2 || decide (1 < r.segs)

/-- Whether a choice of pipelines uses a shared slot or segment on one of some dies. (log 44, DEDUCED) -/
def sharedOn (r : Req) (l : List (Nat × Bool)) (ds : List Nat) : Bool :=
  (r.dies.zip l).any fun x => ds.contains x.1 && (!x.2.2 || decide (1 < r.segs))

/-- Whether two choices take reserved slots on one die. (log 44, DEDUCED) -/
def reservedBoth (q r : Req) (l m : List (Nat × Bool)) : Bool :=
  (q.dies.zip l).any fun x => x.2.2 && (r.dies.zip m).any fun y => y.2.2 && y.1 == x.1

/-- Whether a waiting request that comes before another holds it back from its choice (R85): a request that waits for shared slots or
segments from those of every die it needs, one that can be granted from reserved ones too, one that only its wing's quota stops from
those alone and only later requests of its wing. `earlier`: it was admitted before the other. -/
def State.holdsBack (s : State) (q r : Req) (choice : List (Nat × Bool)) (earlier : Bool) : Bool :=
  q.waiting &&
    match s.pickAll q true with
    | some l => (usesShared q l && sharedOn r choice q.dies) || reservedBoth q r l choice
    | none => sharedOn r choice q.dies && ((s.pickAll q false).isNone || (earlier && q.wing == r.wing))

/-- The pipelines a waiting request may be granted now (R84, R85). -/
def State.grantOf (s : State) (fid : Nat) : Option (List (Nat × Bool)) :=
  match s.req? fid with
  | none => none
  | some r =>
    if !r.waiting then none
    else
      match s.pickAll r true with
      | none => none
      | some l =>
        let before := (s.reqs.takeWhile fun q => q.fid != fid).filter fun q => decide (q.cls ≤ r.cls)
        let after := (s.reqs.dropWhile fun q => q.fid != fid).filter fun q => decide (q.cls < r.cls)
        if (before.any fun q => s.holdsBack q r l true) || (after.any fun q => s.holdsBack q r l false) then none else some l

/-! ## One shard of one search -/

/-- What a shard's work is done with: the collection, the request, the query, the encoding, and the Mantel length. -/
structure QEnv where
  c : Coll
  r : Req
  query : List Word32
  sq8 : Bool
  L : Nat
deriving DecidableEq, Repr

/-- A shard's work so far: the shard, counts for its pipeline's counters by offset, the key of the first poisoned line met, the nodes
whose codes Score read, last first. -/
structure ShardWork where
  q : ShardQ
  bumps : List (Nat × Nat) := []
  poison : Option Nat := none
  reads : List Nat := []
deriving DecidableEq, Repr

def ShardWork.add (o : ShardWork) (off n : Nat) : ShardWork := { o with bumps := (off, n) :: o.bumps }

def ShardWork.saw (o : ShardWork) (key : Nat) : ShardWork := { o with poison := o.poison <|> some key }

/-- Whether Score uses SQ8 codes (R93). -/
def useSq8 (d : CollDef) (r : Req) : Bool := !d.sq4 || r.scanSq8

/-- R110: Mantel length. -/
def mantelLen (d : CollDef) (sq8 : Bool) (k refine : Nat) : Nat :=
  if sq8 then k else cdiv (if refine = 0 then k else refine) d.shards

/-- Whether R115's threshold rejects a score: it ranks below the L-th best of the entries merged so far. -/
def ShardQ.barred (q : ShardQ) (sc : Word32) : Bool :=
  match q.bar with
  | some b => ranksAbove b sc
  | none => false

/-- Entries of a run (R115). -/
def runLen : Nat := 4096

/-- A candidate comes to the Mantel: into the list (R111), or above 4,096 entries into the run that the segments form, which is written
when it is full (R115). Answers with the shard and whether the candidate was placed. (log 16, DEDUCED) -/
def ShardQ.place (q : ShardQ) (L : Nat) (c : Cand) : ShardQ × Bool :=
  if L ≤ runLen then
    let r := mantelInsert L q.mantel c
    ({ q with mantel := r.1 }, r.2)
  else if q.barred c.score then (q, false)
  else
    let l := insertWhen (fun y => ranksAbove c.score y.score) c q.mantel
    if l.length < runLen then ({ q with mantel := l }, true)
    else ({ q with mantel := [], runs := q.runs ++ [{ floor := false, cands := l }] }, true)

/-- Entries that a shard's Mantel and its runs hold. -/
def ShardQ.held (q : ShardQ) : Nat := q.mantel.length + sumNat (q.runs.map fun r => r.cands.length)

/-- A score reaches Filter and the Mantel (R109, R111); `porch`: of a Porch entry, dead when it was so at the grant (R146). Every node that
passes counts as passed to the Mantel, one that a compute stack did not return too (log 128, DESIGN CHOICE). -/
def ShardWork.offer (e : QEnv) (o : ShardWork) (n : Nat) (sc : Word32) (porch : Bool) : ShardWork :=
  let c := e.c
  let o := if c.poisoned (c.key 0 n) 8 then o.saw (c.key 0 n) else o
  let o := if e.r.clauses ≠ [] ∧ c.poisoned (c.key 7 n) (c.defn.recSize 7) = true then o.saw (c.key 7 n) else o
  let pass := !(c.dead e.r.version n || (porch && o.q.porchDead.contains n)) && c.filter n e.r.clauses
  let o := o.add 0xC8 1
  if !pass then o
  else
    let r := o.q.place e.L { score := sc, node := n, vid := c.vid n, sq8 := e.sq8, porch, source := o.q.pipe }
    let o := { o with q := { r.1 with passed := if porch then o.q.passed else o.q.passed + 1 } }
    let o := o.add 0xD0 1
    if r.2 then
      let at_ := (r.1.mantel.findIdx? fun y => y.node == n).getD 0
      let o := o.add 0xE8 1
      if 256 < e.L ∧ e.L ≤ 4096 then o.add 0xF0 (at_ / 256 + 1) else o
    else o

/-- A node is scored (R88, R89, R96, R147); one whose codes are poisoned enters neither the beam nor the Mantel (R498). -/
def ShardWork.scoreNode (e : QEnv) (o : ShardWork) (n : Nat) (beam porch byStack : Bool) : ShardWork :=
  let o := if byStack then o else { o with reads := n :: o.reads }
  if e.c.codePoison e.sq8 n then o.saw (e.c.key (if e.sq8 then 3 else 4) n)
  else
    let sc := e.c.score e.sq8 e.query n
    let o := if byStack then o else (o.add 0x88 1).add 0x90 (e.c.defn.recSize (if e.sq8 then 3 else 4))
    let q := o.q
    let o := { o with q := if porch then { q with porchScored := q.porchScored + 1 } else { q with scored := q.scored + 1 } }
    let o := o.offer e n sc porch
    if beam then { o with q := { o.q with beam := beamInsert o.q.width o.q.beam { score := sc, node := n, expanded := false } } } else o

/-- Effective beam figures (R77, R428). -/
def Req.beamWidth (r : Req) : Nat := if r.beam = 0 then 64 else r.beam
def Req.beamTop (r : Req) : Nat := if r.beamMax = 0 then r.beamWidth else r.beamMax

/-- The nodes that Seed scores, best first (R88): those of the entry list, none of them poisoned. -/
def seedOrder (e : QEnv) (shard : Nat) : List Nat :=
  let nodes := ((e.c.entries shard).filter fun n => e.c.used n && !(e.c.codePoison e.sq8 n)).foldl insertAsc []
  (sortBy beamBefore (nodes.map fun n => ({ score := e.c.score e.sq8 e.query n, node := n, expanded := false } : BeamEnt))).map BeamEnt.node

/-- Seed (R88, R95): the SEEDS best enter the beam, and all go to Filter, seeds first. -/
def ShardWork.seed (e : QEnv) (o : ShardWork) : ShardWork :=
  let list := e.c.entries o.q.shard
  let bad := e.c.poisoned (entryKey o.q.shard) (4 * list.length)
  let q0 := { o.q with width := e.r.beamWidth, widest := e.r.beamWidth, ph := .expanding }
  if bad then { o with q := q0 }.saw (entryKey o.q.shard)
  else
    let order := seedOrder e o.q.shard
    let seeds := if e.r.seeds = 0 then 8 else e.r.seeds
    let all := list.foldl insertAsc []
    let o := { o with q := { q0 with visited := all } }
    let o := match list.find? fun n => e.c.codePoison e.sq8 n with
      | some n => o.saw (e.c.key (if e.sq8 then 3 else 4) n)
      | none => o
    let o := o.add 0x58 order.length
    order.zipIdx.foldl (fun (o : ShardWork) p => o.scoreNode e p.1 (decide (p.2 < seeds)) false false) o

/-- The order a shard ends in: Porch entries scored after its nodes (R147), then merge passes, refine reads, or Join (R98, R115). -/
def ShardWork.porchScan (e : QEnv) (o : ShardWork) : ShardWork :=
  (o.q.porchView.filter fun n => !(o.q.visited.contains n)).foldl (fun (o : ShardWork) n => o.scoreNode e n false true false) o

/-- What follows once a shard's list is one run: refine reads when Score used SQ4, else Join (R83, R98). -/
def ShardWork.toRefine (e : QEnv) (o : ShardWork) : ShardWork :=
  if e.sq8 ∨ o.q.mantel = [] then { o with q := { o.q with ph := .accepted } }
  else { o with q := { o.q with ph := .refining, refineWait := o.q.mantel.map Cand.node } }

/-- A shard stops for a reason of Table 04-7. -/
def ShardWork.finish (e : QEnv) (o : ShardWork) (reason : Nat) : ShardWork :=
  let o := if reason = 1 ∨ reason = 2 then o.add 0x78 1 else if reason = 3 then o.add 0x80 1 else o
  let o := ({ o with q := { o.q with stop := reason } }).porchScan e
  let runs := if o.q.mantel = [] then o.q.runs else o.q.runs ++ [{ floor := false, cands := o.q.mantel }]
  match o.q.runs, runs with
  | [], _ => o.toRefine e
  | _, [r] => ({ o with q := { o.q with mantel := r.cands, runs := [] } }).toRefine e
  | _, _ => { o with q := { o.q with ph := .listed, mantel := [], runs } }

/-- R117: whether a shard switches to a filtered flat scan, at a point where the rest of its conditions hold. -/
def flatSwitch (e : QEnv) (q : ShardQ) : Bool :=
  decide (e.c.defn.flatThresh ≠ 0) && e.r.clauses != [] && e.r.cls != 0 && e.r.opcode == 0x100
    && decide (q.passed * 65536 < e.c.defn.flatThresh * q.scored)

/-- R118: the switch. -/
def ShardWork.switchFlat (e : QEnv) (o : ShardWork) : ShardWork :=
  ({ o with q := { o.q with
      ph := .scanning, scan := true, beam := [], visited := [], prefetched := [], mantel := [], runs := [], bar := none
      ranges := [(0, e.c.defn.capacity)] } }).add 0xE0 1

/-- Expand stops: a shard short of results may switch (R117), any other ends. -/
def ShardWork.stopExpand (e : QEnv) (o : ShardWork) (reason : Nat) : ShardWork :=
  if flatSwitch e o.q && decide (o.q.held < e.L) then o.switchFlat e else o.finish e reason

/-- Condition short of R116. -/
def isShort (L : Nat) (q : ShardQ) : Bool := decide (64 ≤ q.scored) && decide (q.passed * q.width < L * q.scored)

/-- After an expansion: widening (R116) or the switch (R117). (log 43, DEDUCED) -/
def ShardWork.afterExpand (e : QEnv) (o : ShardWork) : ShardWork :=
  if e.r.clauses = [] ∨ isShort e.L o.q = false then o
  else if o.q.width < e.r.beamTop then
    let w := min (2 * o.q.width) e.r.beamTop
    ({ o with q := { o.q with width := w, widest := max o.q.widest w } }).add 0xD8 1
  else if flatSwitch e o.q && decide (1024 ≤ o.q.scored) then o.switchFlat e else o

/-- The expand limit and the reason it stops with (R89, R92); 0 for no limit. (log 43, DEDUCED) -/
def Req.expandLimit (r : Req) : Nat × Nat :=
  let cap := 4 * r.beamTop
  if r.cls = 0 ∧ (r.maxExpand = 0 ∨ cap < r.maxExpand) then (cap, 2) else (r.maxExpand, 1)

/-- The best node of the beam not yet expanded. -/
def bestUnexpanded (l : List BeamEnt) : Option BeamEnt := l.find? fun b => !b.expanded

/-- R90: records prefetched when node n is expanded. -/
def ShardWork.prefetch (o : ShardWork) (n count : Nat) : ShardWork :=
  let used := o.q.prefetched.contains n
  let kept := o.q.prefetched.filter fun x => x != n
  let next := ((o.q.beam.filter fun b => !b.expanded && b.node != n && !(kept.contains b.node)).map BeamEnt.node).take count
  let o := { o with q := { o.q with prefetched := kept ++ next } }
  let o := if used then o.add 0x70 1 else o
  if next.isEmpty then o else o.add 0x68 next.length

/-- The slots of a record, in order (R89): answers whether the visited set was full. -/
def ShardWork.slots (e : QEnv) (o : ShardWork) : List Nat → ShardWork × Bool
  | [] => (o, false)
  | n :: t =>
    if o.q.visited.contains n ∨ e.c.used n = false then o.slots e t
    else if o.q.visited.length ≥ 65536 then (o, true)
    else (({ o with q := { o.q with visited := n :: o.q.visited } }).scoreNode e n true false false).slots e t

/-- One turn of R89's loop. A full visited set ends it without the check of R116 (log 130, DESIGN CHOICE). -/
def ShardWork.expand (e : QEnv) (o : ShardWork) : ShardWork :=
  match bestUnexpanded o.q.beam with
  | none => o.stopExpand e 0
  | some b =>
    let lim := e.r.expandLimit
    if lim.1 ≠ 0 ∧ o.q.expanded ≥ lim.1 then o.stopExpand e lim.2
    else
      let marked : List BeamEnt := o.q.beam.map fun x => if x.node = b.node then { x with expanded := true } else x
      let o := (o.prefetch b.node e.r.prefetch).add 0x60 1
      let o := { o with q := { o.q with beam := marked, expanded := o.q.expanded + 1 } }
      let key := e.c.key 6 b.node
      let bad := e.c.poisoned key (adjBytes e.c.defn.degree)
      let o := if bad then o.saw key else o
      let r := o.slots e (if bad then [] else e.c.neighbours b.node)
      let inBeam := r.1.q.prefetched.filter fun n => r.1.q.beam.any fun x => x.node == n
      let o := { r.1 with q := { r.1.q with prefetched := inBeam } }
      if r.2 then o.stopExpand e 3 else o.afterExpand e

/-! ## Flat scan (R96, R97) -/

/-- Tier page of a shard that holds the codes of a node: by the shard-local index (R64). -/
def Coll.codePage (c : Coll) (sq8 : Bool) (n : Nat) : Nat := n / c.defn.shards * c.defn.recSize (if sq8 then 3 else 4) / pageSize

/-- The next node of some ranges that belongs to a shard. -/
def nextInShard (shards shard : Nat) : List (Nat × Nat) → Option Nat
  | [] => none
  | (first, count) :: t =>
    let n := first + (shard + shards - first % shards) % shards
    if n < first + count then some n else nextInShard shards shard t

/-- The ranges without nodes below n. -/
def dropBelow (n : Nat) (l : List (Nat × Nat)) : List (Nat × Nat) :=
  (l.map fun r => (max r.1 n, r.1 + r.2 - max r.1 n)).filter fun r => decide (0 < r.2)

/-- Nodes of a shard's page in the ranges, in ascending order, and the first node past the page. -/
def Coll.pageNodes (c : Coll) (sq8 : Bool) (shard page : Nat) (ranges : List (Nat × Nat)) : List Nat × Nat :=
  let size := c.defn.recSize (if sq8 then 3 else 4)
  let lo := cdiv (page * pageSize) size * c.defn.shards
  let hi := cdiv ((page + 1) * pageSize) size * c.defn.shards
  (((ranges.map fun r => (List.range (min (r.1 + r.2) hi - max r.1 lo)).map fun i => max r.1 lo + i).flatten).filter fun n =>
    n % c.defn.shards == shard, hi)

/-- Scores one page's nodes whose USED bit is 1 (R96). A stack's bytes count every slot of the ranges in the page, free ones too
(log 129, DESIGN CHOICE). -/
def ShardWork.scanPage (e : QEnv) (o : ShardWork) (page : Nat) (byStack : Bool) : ShardWork :=
  let p := e.c.pageNodes e.sq8 o.q.shard page o.q.ranges
  let o := (p.1.filter fun n => e.c.used n).foldl (fun (o : ShardWork) n =>
    let o := if o.q.porchView.contains n then { o with q := { o.q with visited := n :: o.q.visited } } else o
    o.scoreNode e n false false byStack) o
  let bytes := p.1.length * e.c.defn.recSize (if e.sq8 then 3 else 4)
  let o := if byStack then { o with q := { o.q with stackBytes := o.q.stackBytes + bytes } } else o
  { o with q := { o.q with ranges := dropBelow p.2 o.q.ranges, handed := none } }

/-- The region of a compute stack that holds a page of a part of a shard (R301, R302). (log 45, DEDUCED) -/
def Coll.regionOf (c : Coll) (part shard page : Nat) : Option Nat := (c.frameOf part shard page).bind FrameAt.region

/-- Operations queued or running on a compute stack. -/
def State.stkQueue (s : State) (stack : Nat) : List StkOp := s.stkOps.filter fun o => o.stack == stack

def State.handoffMax (s : State) (stack : Nat) : Nat := bits (s.reg (stkReg (3 * stack) 0x1000)) 10 0

/-- Where a page may be handed off: the open region that holds it (R97). (log 45, DEDUCED) -/
def State.handoffRegion (s : State) (e : QEnv) (q : ShardQ) (page : Nat) : Option Nat :=
  if !(e.r.useStacks || q.scan) then none
  else
    match e.c.regionOf (if e.sq8 then 3 else 4) q.shard page with
    | some k => if (s.region k).st = .opened then some k else none
    | none => none

end Sys2Proof.Machine
end

