-- ==== Sys2Proof/Machine/Search.lean ====
section
/-!
DEFINITION. Meanings of the search commands (04, 05) up to Join: admission of searches and scans with their checks and the TC0
envelope, slot grants, Seed, Expand, the flat scan, stack handoffs, merge passes and refine reads.
-/
namespace Sys2Proof.Machine
open Sys2Proof

/-! ## Sources -/

/-- What the two sources of a descriptor gave. -/
inductive TwoRes where
  | ok (a b : Bytes)
  | stop (st : Option Status) (n : Option Note)
deriving DecidableEq, Repr

/-- R80: whether the bytes of an inline source beyond its length are 0 in its last entry. -/
def padOk (cont : Bytes) (off n : Nat) : Bool := zeroAt cont (off + n) (128 * entriesOf n - n)

/-- Reads two sources of a descriptor, in ring order when they are inline. -/
def State.readTwo (s : State) (f : Flight) (k1 a1 n1 : Nat) (d1 : Dma) (k2 a2 n2 : Nat) (d2 : Dma) : State × TwoRes :=
  let off := if k1 = 2 then 128 * entriesOf n1 else 0
  let r := s.readSrc f k1 a1 n1 d1 0
  match r.2 with
  | .stop st n => (r.1, .stop st n)
  | .bytes a =>
    let q := r.1.readSrc f k2 a2 n2 d2 off
    match q.2 with
    | .stop st n => (q.1, .stop st n)
    | .bytes b =>
      if (k1 = 2 ∧ padOk f.cont 0 n1 = false) ∨ (k2 = 2 ∧ padOk f.cont off n2 = false) then (q.1, .stop (some .invalid) none)
      else (q.1, .ok a b)

/-! ## Field checks (R76 to R83, R108, R110) -/

/-- Whether a source field and its address are allowed: 64-byte aligned, 0 when inline. -/
def srcOk (kind addr : Nat) : Bool := decide (kind ≤ 2) && aligned64 addr && (kind != 2 || addr == 0)

/-- Size of the results and the statistics record (R81, R128). -/
def searchBytes (k : Nat) (stats : Bool) : Nat := if stats then roundUp (16 * k) 64 + 64 else 16 * k

/-- BEAM, BEAM_MAX, SEEDS and PREFETCH of a graph search (Tables 04-3, 07-3). -/
def beamOk (raw : Bytes) : Bool :=
  let beam := fld raw 24 2
  let top := fld raw 26 2
  (beam == 0 || inside 16 4096 beam) && (top == 0 || inside (if beam = 0 then 64 else beam) 4096 top)
    && decide (fld raw 28 1 ≤ 64) && decide (fld raw 29 1 ≤ 8)

/-- R83 and R110: REFINE against the encoding, and the Mantel length. -/
def refineOk (d : CollDef) (sq8 : Bool) (k refine : Nat) : Bool :=
  (if sq8 then refine == 0 else refine == 0 || decide (k ≤ refine)) && decide (mantelLen d sq8 k refine ≤ 1048576)

/-- Whether Score uses SQ8 codes for a descriptor body (R93). -/
def rawSq8 (d : CollDef) (flat : Bool) (raw : Bytes) : Bool := !d.sq4 || (flat && bit (fld raw 60 1) 1)

/-- Fields of Table 04-3 that differ between the opcodes. -/
def modeOk (flat : Bool) (raw : Bytes) (d : CollDef) : Bool :=
  if flat then
    zeroAt raw 24 6 && zeroAt raw 52 4 && decide (fld raw 60 1 < 8) && decide (fld raw 61 1 ≤ 2) && inside 1 4096 (fld raw 62 2)
      && (if fld raw 61 1 = 0 then decide (fld raw 62 2 ≤ 5) && zeroAt raw (88 + 8 * fld raw 62 2) (40 - 8 * fld raw 62 2)
          else aligned64 (fld raw 72 8) && zeroAt raw 88 40)
  else beamOk raw && (fld raw 60 1 == 0 || fld raw 60 1 == 4) && zeroAt raw 61 3 && zeroAt raw 72 8 && zeroAt raw 88 40
    && d.degree != 0

/-- Every field of Table 04-3 (R76, R77, R81, R83). -/
def searchFieldsOk (flat : Bool) (raw : Bytes) (d : CollDef) : Bool :=
  let k := fld raw 16 4
  let n := fld raw 56 1
  inside 1 1048576 k && decide (fld raw 30 1 ≤ 2) && srcOk (fld raw 31 1) (fld raw 32 8) && aligned64 (fld raw 40 8)
    && decide (searchBytes k (bit (fld raw 60 1) 2) ≤ fld raw 48 4) && decide (n ≤ 32) && fld raw 58 2 == 16 * n
    && srcOk (fld raw 57 1) (fld raw 64 8) && (n != 0 || (fld raw 57 1 == 0 && zeroAt raw 64 8)) && zeroAt raw 80 8
    && refineOk d (rawSq8 d flat raw) k (fld raw 20 4) && modeOk flat raw d

/-- What a collection's state refuses a search, an update or attention with (R65, R131). -/
def Coll.refusal (c : Coll) : Option Status :=
  match c.st with
  | .building => some .busy
  | .opening => some .busy
  | .draining => some .invalid
  | _ => none

/-- The ranges of a list (R79). (log 46, DEDUCED) -/
def rangesOf (n : Nat) (bs : Bytes) : List (Nat × Nat) := (chunks 8 n (slice bs 0 (8 * n))).map fun b => (fld b 0 4, fld b 4 4)

/-- R79: ascending, not overlapping, not empty, within the capacity. (log 46, DEDUCED) -/
def rangesOk (capacity : Nat) : Nat → List (Nat × Nat) → Bool
  | _, [] => true
  | lo, (first, count) :: t =>
    decide (lo ≤ first) && decide (1 ≤ count) && decide (first + count ≤ capacity) && rangesOk capacity (first + count) t

/-! ## Admission (R82, R84, R428, R449) -/

/-- Shards of a new request, one on each die of the collection. -/
def Coll.newShards (c : Coll) (ranges : List (Nat × Nat)) : List ShardQ :=
  (List.range c.defn.shards).map fun i => { shard := i, die := c.die i, pipe := 0, ranges }

/-- The request of a search or scan body. -/
def searchReq (flat : Bool) (raw : Bytes) (fid wing key cls : Nat) (c : Coll) (query : List Word32) (clauses : List Clause)
    (ranges : List (Nat × Nat)) : Req :=
  let d := c.defn
  let L := mantelLen d (rawSq8 d flat raw) (fld raw 16 4) (fld raw 20 4)
  let opts := fld raw 60 1
  { fid, opcode := if flat then 0x101 else 0x100, wing, key, cls, version := c.version, k := fld raw 16 4, refine := fld raw 20 4
    beam := fld raw 24 2, beamMax := fld raw 26 2, seeds := fld raw 28 1, prefetch := fld raw 29 1, maxExpand := fld raw 52 4
    useStacks := bit opts 0, scanSq8 := bit opts 1, stats := bit opts 2, clauses, ranges, segs := cdiv (min L 4096) 256
    searches := [{ query, shards := c.newShards ranges }] }

/-- R428: a TC0 descriptor inside the envelope is bound-eligible, one outside runs as TC1. Answers with the class it runs in. -/
def State.envelope (s : State) (f : Flight) (within : Bool) (bound : Nat) : State × Nat :=
  if f.cls ≠ 0 then (s, f.cls)
  else if within then ((s.modFlight f.fid fun g => { g with bound := some bound }).bump (wngReg f.wing 0x2840), 0)
  else ((s.modFlight f.fid fun g => { g with cls := 1 }).bump (wngReg f.wing 0x2848), 1)

/-- Refine reads of a search, as the envelope counts them (R98, R428). -/
def refineReads (d : CollDef) (k refine : Nat) : Nat :=
  if d.sq4 then d.shards * cdiv (if refine = 0 then k else refine) d.shards else 0

/-- Bound of a search in cycles (Table 17-4). -/
def searchBound (d : CollDef) : Nat := if d.sq8Cellar then 2700000 else 1350000

/-- Effective BEAM_MAX of a body (R428). -/
def rawBeamTop (raw : Bytes) : Nat :=
  if fld raw 26 2 ≠ 0 then fld raw 26 2 else if fld raw 24 2 ≠ 0 then fld raw 24 2 else 64

/-- Table 17-4 for GRAPH_SEARCH. -/
def graphWithin (raw : Bytes) (d : CollDef) : Bool :=
  decide (fld raw 16 4 ≤ 256) && decide (rawBeamTop raw ≤ 512) && decide (refineReads d (fld raw 16 4) (fld raw 20 4) ≤ 64)
    && decide (fld raw 56 1 ≤ 8)

/-- R449: the FANOUT messages of an admitted graph search; answers with the parts that Join awaits. -/
def State.fanOut (s : State) (f : Flight) (cls : Nat) (body : Bytes) : State × List PartWait :=
  if cls = 0 then (s, [])
  else
    (s.fanPorts f.wing (hHandle f.raw) cls).foldl (fun acc x =>
      let r := acc.1.sendFanout f cls x.1 x.2 body
      (r.1, acc.2 ++ [{ port := x.1, tag := r.2 }])) (s, [])

/-- Admits a search whose checks have passed. -/
def State.admitSearch (s : State) (flat : Bool) (f : Flight) (c : Coll) (q b : Bytes) (clauses : List Clause)
    (ranges : List (Nat × Nat)) : State :=
  let query := fmtVec (f.u 30 1) c.defn.dim q
  let e := (s.admitNow f.fid).envelope f (!flat && graphWithin f.raw c.defn) (searchBound c.defn)
  let g := { f with cls := e.2 }
  let p := if flat then (e.1, []) else e.1.fanOut g e.2 (slice f.raw 16 112 ++ q ++ b)
  let r := searchReq flat f.raw f.fid f.wing f.obj e.2 c query clauses ranges
  { p.1 with reqs := p.1.reqs ++ [{ r with parts := p.2 }] }

/-- The ranges of a flat scan, inline or from their source (R79). -/
def State.readRanges (s : State) (flat : Bool) (f : Flight) (d : Dma) : State × SrcRes :=
  if !flat then (s, .bytes [])
  else if f.u 61 1 = 0 then (s, .bytes (slice f.raw 88 40))
  else s.readSrc f (f.u 61 1 - 1) (f.u 72 8) (8 * f.u 62 2) d 0

/-- GRAPH_SEARCH and FLAT_SCAN: the checks and admission (R76 to R83). -/
def State.search (s : State) (flat : Bool) (f : Flight) (query filt ranges : Dma) : State :=
  match s.collOf f with
  | none => s.fixSt f.fid .invalid
  | some c =>
    if !(searchFieldsOk flat f.raw c.defn) then s.fixSt f.fid .invalid
    else
      match c.refusal with
      | some st => s.fixSt f.fid st
      | none =>
        let qn := c.defn.dim * fmtBytes (f.u 30 1)
        let r := s.readTwo f (f.u 31 1) (f.u 32 8) qn query (f.u 57 1) (f.u 64 8) (f.u 58 2) filt
        match r.2 with
        | .stop st n => r.1.stopAt f.fid st n
        | .ok q b =>
          let bs := chunks 16 (f.u 56 1) b
          let t := r.1.readRanges flat f ranges
          match t.2 with
          | .stop st n => t.1.stopAt f.fid st n
          | .bytes rb =>
            let rs := if flat then rangesOf (f.u 62 2) rb else []
            if !(allFinite (fmtVec (f.u 30 1) c.defn.dim q)) || !(filterOk c.defn.attrWords bs)
                || !(rangesOk c.defn.capacity 0 rs) then t.1.fixSt f.fid .invalid
            else t.1.admitSearch flat f c q b (bs.map clauseOf) rs

/-- GRAPH_SEARCH (R77). -/
def execGraphSearch (fid : Nat) (query filt : Dma) (s : State) : Host.Outcome State Fault Refusal :=
  work s (match s.ready? fid 0x100 with
    | some f => s.search false f query filt (.ok [])
    | none => s)

/-- FLAT_SCAN (R96). -/
def execFlatScan (fid : Nat) (query filt ranges : Dma) (s : State) : Host.Outcome State Fault Refusal :=
  work s (match s.ready? fid 0x101 with
    | some f => s.search true f query filt ranges
    | none => s)

/-! ## Slot grant (R84 to R87) -/

def State.modReq (s : State) (fid : Nat) (g : Req → Req) : State :=
  { s with reqs := s.reqs.map fun r => if r.fid = fid then g r else r }

/-- Cycles since the doorbell of a request was observed; 0 for one that came over Bruvia. -/
def State.sinceDoorbell (s : State) (fid : Nat) : Nat :=
  match s.flight? fid with
  | some f => s.cyc - f.dbCyc
  | none => 0

/-- Whether a node lies in some ranges. -/
def inRangeList (l : List (Nat × Nat)) (n : Nat) : Bool := l.any fun r => decide (r.1 ≤ n) && decide (n < r.1 + r.2)

/-- Porch entries that a shard will score: visible at its grant, and in its ranges for a scan (R147). -/
def Req.porchView (r : Req) (c : Coll) (shard : Nat) : List Nat :=
  let l := c.porchVisible r.version shard
  if r.opcode = 0x101 then l.filter (inRangeList r.ranges) else l

/-- A shard once its slot is granted. -/
def ShardQ.granted (q : ShardQ) (r : Req) (c : Option Coll) (pick : Nat × Bool) : ShardQ :=
  { q with
    pipe := pick.1, reserved := pick.2, ph := if r.opcode = 0x101 then .scanning else .granted
    porchView := match c with
      | some c => r.porchView c q.shard
      | none => []
    porchDead := match c with
      | some c => (r.porchView c q.shard).filter fun n => c.dead r.version n
      | none => [] }

/-- The collection a request reads. -/
def State.reqColl (s : State) (r : Req) : Option Coll :=
  if r.opcode = 0x100 ∨ r.opcode = 0x101 ∨ r.opcode = 0x300 then tfind s.colls r.key else none

/-- A search at handoff: slots taken, the query scaled in a COSINE collection (R54). -/
def Search.granted (x : Search) (r : Req) (c : Option Coll) (l : List (Nat × Bool)) : Search :=
  let cosine := match c with
    | some c => c.defn.metric == 2
    | none => false
  { x with
    query := if cosine then fUnit x.query else x.query
    shards := (x.shards.zip l).map fun p => p.1.granted r c p.2 }

/-! ## Steps of one shard -/

/-- A shard of a search in progress. -/
def State.shardOf (s : State) (fid i k : Nat) : Option (Req × Search × ShardQ) :=
  match s.req? fid with
  | none => none
  | some r =>
    if r.waiting then none
    else
      match r.searches[i]? with
      | none => none
      | some x => (x.shards[k]?).map fun q => (r, x, q)

def State.setShard (s : State) (fid i k : Nat) (q : ShardQ) : State :=
  s.modReq fid fun r => { r with searches := r.searches.modify i fun x => { x with shards := x.shards.set k q } }

/-- The environment of a shard's work. -/
def envOf (c : Coll) (r : Req) (x : Search) : QEnv :=
  let sq8 := useSq8 c.defn r
  { c, r, query := x.query, sq8, L := mantelLen c.defn sq8 r.k r.refine }

/-- Poison met by a request that goes on (R498). -/
def State.reqPoison (s : State) (fid : Nat) (n : Note) : State :=
  (s.poisonSeen fid n).modReq fid fun r => { r with flags := r.flags ||| flagPoisonSeen }

/-- A request takes a slower path (R289). -/
def State.degrade (s : State) (fid : Nat) : State :=
  (s.modFlight fid fun f => { f with degraded := true }).modReq fid fun r => { r with flags := r.flags ||| flagDegraded }

/-- Merge-area bytes in use on a Hall die: the runs written there. (log 16, DEDUCED) -/
def State.mergeUsed (s : State) (die : Nat) : Nat :=
  sumNat (s.reqs.map fun r => sumNat (r.searches.map fun x => sumNat ((x.shards.filter fun q => q.die == die).map fun q =>
    sumNat ((q.runs.filter fun m => !m.floor).map fun m => 16 * m.cands.length))))

/-- Merge-area bytes of a Hall die (log 16, DEDUCED). -/
def State.mergeArea (s : State) : Nat := profMergeBricks s.prof / 4 * 4718592

/-- Whether runs of n entries fit the merge area of a die (R115, log 16, DEDUCED). -/
def State.mergeFits (s : State) (die n : Nat) : Bool := decide (s.mergeUsed die + 16 * n ≤ s.mergeArea)

/-- Places runs one after another in what is left of a merge area, each that does not fit in Floor (R115). (log 16, DEDUCED) -/
def settleRuns (area : Nat) : Nat → List MantelRun → List MantelRun
  | _, [] => []
  | used, m :: t =>
    let n := 16 * m.cands.length
    if used + n ≤ area then { m with floor := false } :: settleRuns area (used + n) t
    else { m with floor := true } :: settleRuns area used t

/-- A shard whose work has written runs from number `old` on: where they lie, those in Floor counted, with DEGRADED (R115). -/
def State.placeRuns (s : State) (fid i k old : Nat) (q : ShardQ) : State :=
  let new := settleRuns s.mergeArea (s.mergeUsed q.die) (q.runs.drop old)
  let floors := (new.filter MantelRun.floor).length
  let t := s.setShard fid i k { q with runs := q.runs.take old ++ new }
  if floors = 0 then t else (t.bumpBy (spReg q.pipe 0x100) floors).degrade fid

/-- A request that ends without results: its descriptor completes, or its failing part goes back (R450). -/
def State.endReq (s : State) (r : Req) (st : Status) (n : Option Note) : State :=
  match r.fromPort with
  | none => s.stopAt r.fid st n
  | some (p, q) =>
    let s := s.dropWork r.fid
    let s := { s with reqs := s.reqs.filter fun x => x.fid != r.fid }
    s.respond p q 0x101 (natLe 0 1 ++ natLe st.code 1 ++ natLe r.flags 1 ++ natLe 1 1) [] true

/-- Name of an internal page read as a tier access: beyond every tier page. -/
def internalPage (i node : Nat) : Nat := 2 ^ 60 + i * 2 ^ 36 + node

/-- Tags of a descriptor's reads of internal pages: a refine read, the reads of a shard's step, those of attention. -/
def refineTag (i node : Nat) : Nat := 4 * (i * 2 ^ 36 + node) + 1
def shardTag (i k : Nat) : Nat := 4 * (i * 16 + k) + 2
def attendTag (part : Nat) : Nat := 4 * part + 3

/-- One refine read begins: in Floor, or through the Cellar window (R99, R279, R287). -/
def State.askRefine (s : State) (r : Req) (c : Coll) (i n : Nat) : State :=
  if c.defn.sq8Cellar then
    (s.winTouch r.wing r.cls 3 c [n]).winAsk r.wing r.fid r.cls (refineTag i n) true (c.winAddr 3 n) (c.defn.recSize 3)
  else
    let a : Access := { id := s.nextId, wing := r.wing, fid := some r.fid, page := internalPage i n, cause := 0, issued := s.cyc
                        tag := refineTag i n }
    { s with accesses := s.accesses ++ [a], nextId := s.nextId + 1 }

/-- The refine reads of a shard begin (R98). -/
def State.issueRefine (s : State) (r : Req) (c : Coll) (i : Nat) (q : ShardQ) : State :=
  q.refineWait.foldl (fun (s : State) n => s.askRefine r c i n) s

/-- Applies a shard's work: counters, poison, the shard itself with the runs it wrote, and what its next phase begins. `old`: the shard
before. -/
def State.applyShard (s : State) (r : Req) (c : Coll) (i k : Nat) (old : ShardQ) (o : ShardWork) : State :=
  let s := o.bumps.foldl (fun s b => s.bumpBy (spReg o.q.pipe b.1) b.2) s
  let s := match o.poison with
    | some key => s.reqPoison r.fid (c.noteAt (r.key % 65536) key)
    | none => s
  let s := s.placeRuns r.fid i k old.runs.length o.q
  if o.q.ph = .refining ∧ old.ph ≠ .refining then s.issueRefine r c i o.q else s

/-- Whether a Floor record of a part lies in a region whose accesses wait (R297, R420). -/
def State.recordShut (s : State) (c : Coll) (part n : Nat) : Bool :=
  match c.regionOf part (n % c.defn.shards) (n / c.defn.shards * c.defn.recSize part / pageSize) with
  | some k => s.floorShut k
  | none => false

/-- The same once Score has the codes and attributes that it reads, in Floor (R297) or through the Cellar window: until then the step
waits, and a read that fails ends the request (R93, R287, R350). -/
def State.scoreStep (s : State) (r : Req) (c : Coll) (i k : Nat) (old : ShardQ) (o : ShardWork) : State :=
  if o.reads.any fun n => s.recordShut c (if useSq8 c.defn r then 3 else 4) n || (!r.clauses.isEmpty && s.recordShut c 7 n) then s else
  let q := s.winRead r.wing r.fid r.cls (shardTag i k) 3 c (if useSq8 c.defn r then o.reads.reverse else [])
  match q.2 with
  | .wait => q.1
  | .failed => q.1.endReq r .mediaError none
  | .here => q.1.applyShard r c i k old o

/-- Runs one piece of a shard's work in a phase. -/
def State.shardStep (s : State) (fid i k : Nat) (ph : ShardPh) (g : QEnv → ShardWork → ShardWork) : State :=
  match s.shardOf fid i k with
  | some (r, x, q) =>
    if q.ph ≠ ph then s
    else
      match s.reqColl r with
      | some c => s.scoreStep r c i k q (g (envOf c r x) { q })
      | none => s
  | none => s

/-- SEED (R88). -/
def execSeedShard (fid search shard : Nat) (s : State) : Host.Outcome State Fault Refusal :=
  work s (s.shardStep fid search shard .granted fun e o => o.seed e)

/-- EXPAND_STEP (R89). -/
def execExpandStep (fid search shard : Nat) (s : State) : Host.Outcome State Fault Refusal :=
  work s (s.shardStep fid search shard .expanding fun e o => o.expand e)

/-! ## Flat scan and handoff (R96, R97, R118, R315) -/

/-- The page a scan looks at next. -/
def scanNext (e : QEnv) (q : ShardQ) : Option Nat :=
  (nextInShard e.c.defn.shards q.shard q.ranges).map fun n => e.c.codePage e.sq8 n

/-- A page scanned, and the end of the scan when it was the last. -/
def ShardWork.scanned (e : QEnv) (o : ShardWork) (page : Nat) (byStack : Bool) : ShardWork :=
  let o := o.scanPage e page byStack
  if (scanNext e o.q).isNone then o.finish e 4 else o

/-- The threshold sent with a page: the worst score of a full Mantel, -infinity when that is NaN (R97, R111); R115's above 4,096 entries. -/
def ShardQ.threshold (q : ShardQ) (L : Nat) : Option Word32 :=
  let worst := if L ≤ runLen then (if q.mantel.length < L then none else q.mantel.getLast?.map Cand.score) else q.bar
  worst.map fun x => if fIsNan x then 0xFF800000 else x

/-- Code bytes of the part of a page that a scan reads. -/
def pageBytes (e : QEnv) (q : ShardQ) (page : Nat) : Nat :=
  (e.c.pageNodes e.sq8 q.shard page q.ranges).1.length * e.c.defn.recSize (if e.sq8 then 3 else 4)

/-- Hands a page to the compute stack of region k, with the threshold (R97). -/
def State.handOff (s : State) (r : Req) (e : QEnv) (i sh : Nat) (q : ShardQ) (page k : Nat) : State :=
  let st := regionStack k
  let op : StkOp := { id := s.nextId, stack := st, fid := some r.fid, opcode := 0, wing := r.wing, cls := r.cls, regions := [k]
                      thresh := q.threshold e.L }
  let s := { s with stkOps := s.stkOps ++ [op], nextId := s.nextId + 1 }
  ((s.bump (stkReg (3 * st) 0x1090)).bumpBy (spReg q.pipe 0x98) (pageBytes e q page)).setShard r.fid i sh { q with handed := some (op.id, page) }

/-- One page of a flat scan. -/
def State.scanStep (s : State) (r : Req) (c : Coll) (x : Search) (i sh : Nat) (q : ShardQ) : State :=
  let e := envOf c r x
  match scanNext e q with
  | none => s.scoreStep r c i sh q (({ q } : ShardWork).finish e 4)
  | some page =>
    match s.handoffRegion e q page with
    | none => s.scoreStep r c i sh q (({ q } : ShardWork).scanned e page false)
    | some k =>
      if (s.stkQueue (regionStack k)).length < s.handoffMax (regionStack k) then s.handOff r e i sh q page k
      else (s.bump (stkReg (3 * regionStack k) 0x1098)).applyShard r c i sh q (({ q } : ShardWork).scanned e page false)

/-- FLAT_SCAN_PAGE (R97). -/
def execFlatScanPage (fid search shard : Nat) (s : State) : Host.Outcome State Fault Refusal :=
  work s (match s.shardOf fid search shard with
    | some (r, x, q) =>
      if q.ph ≠ .scanning ∨ q.handed.isSome then s
      else
        match s.reqColl r with
        | some c => s.scanStep r c x search shard q
        | none => s
    | none => s)

/-- Whether codes of a page are poisoned (R298, R498). -/
def pagePoisoned (e : QEnv) (q : ShardQ) (page : Nat) : Bool :=
  (e.c.pageNodes e.sq8 q.shard page q.ranges).1.any fun n => e.c.codePoison e.sq8 n

/-- Scores that the stack returns for a page: at or above the threshold (R97), in a fallback only of nodes that pass (R118). -/
def stackReturns (e : QEnv) (q : ShardQ) (op : StkOp) (page : Nat) : Nat :=
  ((e.c.pageNodes e.sq8 q.shard page q.ranges).1.filter fun n => e.c.used n
    && (!q.scan || (!(e.c.dead e.r.version n) && e.c.filter n e.r.clauses)) && match op.thresh with
      | some t => fle t (e.c.score e.sq8 e.query n)
      | none => true).length

/-- Bytes of a page's last records that lie in the next page, when another bank unit holds that: they cross the bus (R293). -/
def pageCross (e : QEnv) (q : ShardQ) (page : Nat) : Nat :=
  let part := if e.sq8 then 3 else 4
  let size := e.c.defn.recSize part
  let unit := fun j => (e.c.regionOf part q.shard j).map fun k => k % 64
  if unit page = unit (page + 1) then 0
  else sumNat ((e.c.pageNodes e.sq8 q.shard page q.ranges).1.map fun n => (n / e.c.defn.shards + 1) * size - (page + 1) * pageSize)

/-- The stack's answer for a page: its scores, or, when it did not run the part, a scan by Score. -/
def State.handoffDone (s : State) (r : Req) (c : Coll) (x : Search) (i sh : Nat) (q : ShardQ) (op : StkOp) (page : Nat) : State :=
  let e := envOf c r x
  let byStack := !op.refused && !(pagePoisoned e q page)
  let s := s.dropOps fun y => y.id == op.id
  let st := stkReg (3 * op.stack)
  let s := if byStack then
    (((s.bumpBy (st 0x1048) (pageBytes e q page)).bumpBy (st 0x1050) (stackReturns e q op page)).bumpBy (st 0x1068) (pageCross e q page)).bump
      (st 0x1040) else s
  s.applyShard r c i sh q (({ q := { q with handed := none } } : ShardWork).scanned e page byStack)

/-- STACK_HANDOFF_RESULT (R97, R298). -/
def execStackHandoffResult (fid search shard : Nat) (s : State) : Host.Outcome State Fault Refusal :=
  work s (match s.shardOf fid search shard with
    | some (r, x, q) =>
      match q.handed, s.reqColl r with
      | some (id, page), some c =>
        match s.stkOps.find? fun o => o.id == id with
        | some op => if op.running then s.handoffDone r c x search shard q op page else s
        | none => s
      | _, _ => s
    | none => s)

/-- One merge pass (R115): the first 16 runs at most become one, ties in encounter order, cut to the L best; with L entries its last
score is the threshold. -/
def ShardQ.mergePass (q : ShardQ) (L : Nat) : ShardQ :=
  let l := (sortBy (fun (a b : Cand) => ranksAbove a.score b.score) ((q.runs.take 16).map MantelRun.cands).flatten).take L
  { q with
    runs := { floor := false, cands := l } :: q.runs.drop 16
    bar := if l.length < L then q.bar else l.getLast?.map Cand.score }

/-- Where the run of a merge pass is written once those it combined are gone (R115). (log 16, DEDUCED) -/
def State.placeMerged (s : State) (fid i k : Nat) (q : ShardQ) : State :=
  let t := s.setShard fid i k { q with runs := q.runs.drop 1 }
  let m := settleRuns t.mergeArea (t.mergeUsed q.die) (q.runs.take 1)
  let u := s.setShard fid i k { q with runs := m ++ q.runs.drop 1 }
  if m.any MantelRun.floor then (u.bump (spReg q.pipe 0x100)).degrade fid else u

/-- A merge pass of a shard; the list of a shard that has stopped goes on when one run is left. -/
def State.mergeStep (s : State) (r : Req) (c : Coll) (e : QEnv) (i k : Nat) (q : ShardQ) : State :=
  let m := q.mergePass e.L
  let s := s.bump (spReg q.pipe 0xF8)
  match q.ph, m.runs with
  | .listed, [x] =>
    let o := ({ q := { m with mantel := x.cands, runs := [] } } : ShardWork).toRefine e
    s.applyShard r c i k q o
  | _, _ => s.placeMerged r.fid i k m

/-- MANTEL_MERGE_PASS (R115): up to 16 of a shard's runs become one. (log 16, DEDUCED) -/
def execMantelMergePass (fid search shard : Nat) (s : State) : Host.Outcome State Fault Refusal :=
  work s (match s.shardOf fid search shard with
    | some (r, x, q) =>
      match s.reqColl r with
      | some c => if 2 ≤ q.runs.length then s.mergeStep r c (envOf c r x) search shard q else s
      | none => s
    | none => s)

/-! ## Refine (R98, R99, R112) -/

/-- A list rescored with SQ8 codes, sorted stably, cut to K. -/
def Coll.refine (c : Coll) (query : List Word32) (k : Nat) (l : List Cand) : List Cand :=
  (sortBy (fun (a b : Cand) => ranksAbove a.score b.score)
    (l.map fun x => { x with score := c.score true query x.node, sq8 := true })).take k

/-- A refine read that returned its record. -/
def ShardQ.refineGot (q : ShardQ) (c : Coll) (query : List Word32) (k node : Nat) (miss : Bool) : ShardQ :=
  let left := q.refineWait.filter fun n => n != node
  let q := if c.defn.sq8Cellar then { q with refCellar := q.refCellar + 1, miss := q.miss + b2n miss }
    else { q with refFloor := q.refFloor + 1 }
  if left.isEmpty then { q with refineWait := [], ph := .accepted, mantel := c.refine query k q.mantel }
  else { q with refineWait := left }

/-- A refine read whose bytes are there. -/
def State.refineCame (s : State) (r : Req) (x : Search) (q : ShardQ) (i k node : Nat) (c : Coll) (miss : Bool) : State :=
  if c.codePoison true node then s.endReq r .poisoned (some (c.noteAt (r.key % 65536) (c.key 3 node)))
  else
    let q := q.refineGot c x.query r.k node miss
    (s.bump (spReg q.pipe (if c.defn.sq8Cellar then 0xA8 else 0xA0))).setShard r.fid i k q

/-- A read that finds its record uncorrectable: its first line is poisoned and recorded (R495, R502). -/
def State.foundBad (s : State) (r : Req) (c : Coll) (node : Nat) : State :=
  let n := c.noteAt (r.key % 65536) (c.key 3 node)
  let s := s.modColl r.key fun c => { c with bad := insertNew c.bad (c.key 3 node / 64) }
  s.wingRecord r.wing 1 1 n.addr n.kind n.unit n.detail

/-- REFINE_READ_RETURN (R98, R99): a read that still waits for a fill, for flash or for a sealed region stays outstanding. -/
def State.refineReturn (s : State) (r : Req) (x : Search) (q : ShardQ) (i k node : Nat) (res : ReadRes) (c : Coll) : State :=
  if s.recordShut c 3 node then s else
  let tag := refineTag i node
  let miss := (s.tagged r.fid tag).any Access.miss
  let t := s.winState r.fid tag
  match t.2 with
  | .wait => t.1
  | .failed => t.1.endReq r .mediaError none
  | .here =>
    match res with
    | .poisoned => (t.1.foundBad r c node).endReq r .poisoned (some (c.noteAt (r.key % 65536) (c.key 3 node)))
    | .ok => t.1.refineCame r x q i k node c miss

def execRefineReadReturn (fid search shard node : Nat) (res : ReadRes) (s : State) : Host.Outcome State Fault Refusal :=
  work s (match s.shardOf fid search shard with
    | some (r, x, q) =>
      match s.reqColl r with
      | some c => if q.ph = .refining ∧ q.refineWait.contains node then s.refineReturn r x q search shard node res c else s
      | none => s
    | none => s)

end Sys2Proof.Machine
end

