-- ==== Sys2Proof/Machine/Attend.lean ====
section
/-!
DEFINITION. Attention (07): admission of MEM_ATTEND and KV_ATTEND, what Blend and Emit do for them once Join has every list.
-/
namespace Sys2Proof.Machine
open Sys2Proof

/-- FP32, finite and greater than 0. -/
def scaleOk (x : Nat) : Bool :=
  let a : Word32 := BitVec.ofNat 32 x
  fIsFin a && flt f0 a

/-- A local source and its address (Tables 07-3, 07-5). (log 47, DEDUCED) -/
def localOk (n kind addr : Nat) : Bool := decide (n ≤ 1024) && srcOk kind addr && (n != 0 || (kind == 0 && addr == 0))

/-! ## MEM_ATTEND (R164 to R173) -/

/-- Bytes of a value row (R168). -/
def valRow (f : Flight) : Nat := roundUp (f.u 84 2 * (if f.u 86 1 = 0 then 2 else 1)) 64

/-- Size of the results of a MEM_ATTEND (R172): every key list starts at a 64-byte boundary, and the gap behind each but the last is
written with zeros (log 134, DESIGN CHOICE). -/
def memBytes (f : Flight) : Nat :=
  let nq := f.u 53 1 * f.u 52 1
  nq * attnRec (f.u 84 2) (f.u 55 1) + (if bit (f.u 63 1) 1 then (nq - 1) * roundUp (16 * f.u 16 4) 64 + 16 * f.u 16 4 else 0)

/-- Value fields of Table 07-3. -/
def memValuesOk (f : Flight) (d : CollDef) : Bool :=
  let vsrc := f.u 54 1
  inside 64 4096 (f.u 84 2) && f.u 84 2 % 64 == 0 && decide (1 ≤ f.u 80 4) && decide (f.u 86 1 ≤ 1) && aligned64 (f.u 64 8) && decide (f.u 72 8 < 2 ^ 48)
    && (if vsrc = 0 then d.bf16 && f.u 64 8 == 0 && f.u 84 2 == d.dim && f.u 86 1 == 0
        else vsrc == 1 && decide (f.u 72 8 + f.u 80 4 ≤ 0xFFFFFFFFFFFF))
    && (if f.u 86 1 = 1 then scaleOk (f.u 88 4) else f.u 88 4 == 0)

/-- Every field of Table 07-3. (log 47, DEDUCED) -/
def memOk (f : Flight) (d : CollDef) : Bool :=
  let k := f.u 16 4
  inside 1 4096 k && refineOk d (!d.sq4) k (f.u 20 4) && beamOk f.raw && d.degree != 0 && decide (f.u 30 1 ≤ 2)
    && srcOk (f.u 31 1) (f.u 32 8) && aligned64 (f.u 40 8) && decide (memBytes f ≤ f.u 48 4) && inside 1 64 (f.u 52 1)
    && inside 1 16 (f.u 53 1) && decide (f.u 55 1 ≤ 1) && scaleOk (f.u 56 4) && localOk (f.u 60 2) (f.u 62 1) (f.u 92 8)
    && decide (f.u 63 1 < 4) && (bit (f.u 63 1) 0 || decide (f.u 53 1 * f.u 52 1 ≤ 64)) && memValuesOk f d
    && f.zero [(87, 1), (100, 28)]

/-- Query vectors of n × D elements. -/
def queriesOf (q n d : Nat) (bs : Bytes) : List (List Word32) := (List.range n).map fun i => fmtVec q d (bs.drop (i * d * fmtBytes q))

/-- Distinct queries, in order of their first appearance (R166). -/
def distinct : List (List Word32) → List (List Word32)
  | [] => []
  | x :: t => x :: (distinct t).filter fun y => y != x

/-- Table 17-4 for MEM_ATTEND. -/
def State.memWithin (s : State) (f : Flight) (d : CollDef) : Bool :=
  let vals := if f.u 54 1 = 0 then !d.bf16Cellar else
    (pagesOf (f.u 64 8) (f.u 80 4 * valRow f)).all fun p => match s.rangeAt f.wing p with
      | some r => r.tier == 1
      | none => false
  (f.u 53 1 * f.u 52 1 == 1 || (bit (f.u 63 1) 0 && f.u 52 1 == 1)) && decide (f.u 16 4 ≤ 256) && decide (rawBeamTop f.raw ≤ 512)
    && decide (refineReads d (f.u 16 4) (f.u 20 4) ≤ 64) && vals

/-- The request of a MEM_ATTEND. -/
def memReq (f : Flight) (c : Coll) (cls : Nat) (queries : List (List Word32)) (locals : Bytes) : Req :=
  let searched := if bit (f.u 63 1) 0 then queries.take (f.u 52 1) else distinct queries
  { fid := f.fid, opcode := 0x300, wing := f.wing, key := f.obj, cls, version := c.version, k := f.u 16 4, refine := f.u 20 4
    beam := f.u 24 2, beamMax := f.u 26 2, seeds := f.u 28 1, prefetch := f.u 29 1, queries, locals
    segs := cdiv (f.u 16 4) 256 * searched.length
    searches := searched.map fun q => { query := q, shards := c.newShards [] } }

/-- The local block of a MEM_ATTEND. -/
def memLocal (f : Flight) (d : CollDef) (bs : Bytes) : LocalBlock :=
  { n := f.u 60 2, heads := f.u 52 1, d := d.dim, dv := f.u 84 2, q := f.u 30 1, bytes := bs }

/-- MEM_ATTEND: checks and admission. -/
def State.memAttend (s : State) (f : Flight) (c : Coll) (query loc : Dma) : State :=
  let d := c.defn
  let nq := f.u 53 1 * f.u 52 1
  let n := nq * d.dim * fmtBytes (f.u 30 1)
  let ln := if f.u 60 2 = 0 then 0 else localBytes (f.u 60 2) (f.u 52 1) d.dim (f.u 84 2) (f.u 30 1)
  let vals := f.u 80 4 * valRow f
  if f.u 54 1 = 1 ∧ (s.inRanges f.wing (f.u 64 8) vals = false ∨ s.freedUnder { fid := some f.fid } f.wing (f.u 64 8) vals = true) then
    s.fixSt f.fid .invalid
  else
    let r := s.readTwo f (f.u 31 1) (f.u 32 8) n query (f.u 62 1) (f.u 92 8) ln loc
    match r.2 with
    | .stop st n => r.1.stopAt f.fid st n
    | .ok q b =>
      let qs := queriesOf (f.u 30 1) nq d.dim q
      if !(qs.all allFinite) || !((memLocal f d b).ok (f.u 53 1)) then r.1.fixSt f.fid .invalid
      else
        let e := (r.1.admitNow f.fid).envelope f (r.1.memWithin f d) (searchBound d)
        { e.1 with reqs := e.1.reqs ++ [memReq f c e.2 qs b] }

def execMemAttend (fid : Nat) (query loc : Dma) (s : State) : Host.Outcome State Fault Refusal :=
  work s (match s.ready? fid 0x300 with
    | some f =>
      match s.collOf f with
      | none => s.fixSt fid .invalid
      | some c =>
        if !(memOk f c.defn) then s.fixSt fid .invalid
        else
          match c.refusal with
          | some st => s.fixSt fid st
          | none => s.memAttend f c query loc
    | none => s)

/-- The value row of a key, as FP32 elements (R168); none when the key lies outside the value table (R169). -/
def State.memValue (s : State) (f : Flight) (c : Coll) (x : Cand) : Option (State × Option (List Word32) × Option (Option Status × Note)) :=
  if f.u 54 1 = 0 then
    let key := c.key 5 x.node
    if c.poisoned key (2 * c.defn.dim) then some (s, none, some (some .poisoned, c.noteAt (hHandle f.raw) key))
    else some (s, some (fmtVec 1 c.defn.dim (getBytes c.mem key (2 * c.defn.dim))), none)
  else if x.vid < f.u 72 8 ∨ f.u 72 8 + f.u 80 4 ≤ x.vid then none
  else
    let r := s.readRange { fid := some f.fid } f.wing (f.u 64 8 + (x.vid - f.u 72 8) * valRow f) (valRow f)
    match r.2 with
    | .stop st n => some (r.1, none, some (st, n.getD {}))
    | .bytes b =>
      let dv := f.u 84 2
      let scale : Word32 := BitVec.ofNat 32 (f.u 88 4)
      some (r.1, some (if f.u 86 1 = 0 then fmtVec 1 dv b else (slice b 0 dv).map fun y => fmul (fOf e4m3 y.toNat) scale), none)

/-- Rows read for a request: each distinct row once, by vector ID, or what stopped it. -/
structure Rows where
  vals : Tab (List Word32) := []
  stop : Option (Option Status × Note) := none
deriving DecidableEq, Repr

/-- Reads the value rows of some keys, each once (R168). -/
def State.memRows (s : State) (f : Flight) (c : Coll) (l : List Cand) : State × Rows :=
  l.foldl (fun acc x =>
    if (tfind acc.2.vals x.vid).isSome ∨ acc.2.stop.isSome then acc
    else
      match acc.1.memValue f c x with
      | none => acc
      | some (t, some v, _) => (t, { acc.2 with vals := tput acc.2.vals x.vid v })
      | some (t, none, e) => (t, { acc.2 with stop := e })) (s, {})

/-- A key list as candidate query q scores it: its own scores under SHARE (R166). -/
def memKeys (c : Coll) (share : Bool) (q : List Word32) (l : List Cand) : List Cand :=
  if share then l.map fun x => { x with score := c.score true (if c.defn.metric = 2 then fUnit q else q) x.node }
  else l

/-- One query's blend: its merged list, then its local keys (R171). Answers with the state, the local keys and the keys left out. -/
def memBlend (f : Flight) (c : Coll) (rows : Rows) (locals : Bytes) (q : List Word32) (l : List Cand) (cand head : Nat) :
    BlendSt × Nat × Nat :=
  let scale : Word32 := BitVec.ofNat 32 (f.u 56 4)
  let st := l.foldl (fun (st : BlendSt) x => match tfind rows.vals x.vid with
    | some v => st.key scale x.score v
    | none => st) (BlendSt.empty (f.u 84 2))
  let lb := memLocal f c.defn locals
  let qn := if c.defn.metric = 2 then fUnit q else q
  (lb.blend c.defn.metric scale qn cand head st, (lb.seen cand).length, (l.filter fun x => (tfind rows.vals x.vid).isNone).length)

/-- What a MEM_ATTEND reads through the Cellar window: codes that it scores again, then BF16 values (R166, R168). -/
def State.attendReads (s : State) (r : Req) (f : Flight) (c : Coll) (l : List Cand) : State × WinRes :=
  let nodes := (l.map Cand.node).foldl insertAsc []
  let a := s.winRead f.wing f.fid r.cls (attendTag 3) 3 c (if bit (f.u 63 1) 0 then nodes else [])
  match a.2 with
  | .here => a.1.winRead f.wing f.fid r.cls (attendTag 5) 5 c (if f.u 54 1 = 0 then nodes else [])
  | .wait => a
  | .failed => a

/-- Results of a MEM_ATTEND once every search is joined (R172, R173). -/
def State.memFinish (s : State) (r : Req) (f : Flight) (c : Coll) (js : List Joined) : State :=
  let share := bit (f.u 63 1) 0
  let heads := f.u 52 1
  let listOf := fun (i : Nat) =>
    let k := if share then i % heads else ((distinct r.queries).findIdx? fun q => q == r.queries.getD i []).getD 0
    ((js[k]?).map Joined.kept).getD []
  let poison := if share then (((List.range r.queries.length).map listOf).flatten.find? fun x => c.codePoison true x.node) else none
  match poison with
  | some x => s.stopAt f.fid (some .poisoned) (some (c.noteAt (hHandle f.raw) (c.key 3 x.node)))
  | none =>
    let rr := s.memRows f c (js.map Joined.kept).flatten
    match rr.2.stop with
    | some (st, n) => rr.1.stopAt f.fid st (some n)
    | none =>
      let outs := r.queries.zipIdx.map fun p =>
        let l := memKeys c share p.1 (listOf p.2)
        (memBlend f c rr.2 r.locals p.1 l (p.2 / heads) (p.2 % heads), l)
      let recs := (outs.zipIdx.map fun o => o.1.1.1.record (s.fresh + o.2) (f.u 55 1) o.1.1.2.1 o.1.1.2.2).flatten
      let k := f.u 16 4
      let lists := if bit (f.u 63 1) 1 then
        (outs.map fun o => slice (resultRecords k o.2) 0 (roundUp (16 * k) 64)).flatten.take (memBytes f - recs.length) else []
      let keys := sumNat (outs.map fun o => o.1.1.n)
      let t := { rr.1 with fresh := rr.1.fresh + outs.length }
      let t := (t.bumpBy (spReg r.host 0x128) outs.length).bumpBy (spReg r.host 0x130) keys
      let t := t.result f 0 (recs ++ lists)
      let short := js.any fun j => decide (j.kept.length < k)
      let t := if short then t.bump (spReg r.host 0x120) else t
      let ties := sumNat (js.map Joined.ties)
      t.fix f.fid { status := if short then .short else .ok, flags := if js.any Joined.past then flagTie else 0
                    count := outs.length, result := pack32 js.length ties }

/-! ## KV_ATTEND (R186 to R189) -/

/-- Fields of Table 07-5, but for the layer's length. -/
def kvFields (f : Flight) (e : Sess) : Bool :=
  let nq := f.u 60 1 * e.hkv * e.group
  decide (f.u 16 2 < e.layers) && decide (f.u 18 1 ≤ 2) && srcOk (f.u 19 1) (f.u 32 8) && decide (f.u 20 4 ≤ f.u 24 4)
    && decide (f.u 28 4 ≤ 4096) && aligned64 (f.u 40 8)
    && decide (nq * attnRec e.dh (f.u 59 1) ≤ f.u 48 4) && scaleOk (f.u 52 4) && localOk (f.u 56 2) (f.u 58 1) (f.u 64 8)
    && decide (f.u 59 1 ≤ 1) && inside 1 16 (f.u 60 1) && f.zero [(61, 3), (72, 56)]

/-- Fields of Table 07-5. -/
def kvOk (f : Flight) (e : Sess) : Bool := kvFields f e && decide (f.u 24 4 ≤ e.len (f.u 16 2))

/-- The local block of a KV_ATTEND. -/
def kvLocal (f : Flight) (e : Sess) (bs : Bytes) : LocalBlock :=
  { n := f.u 56 2, heads := e.hkv, d := e.dh, dv := e.dh, q := f.u 18 1, bytes := bs }

/-- Shards of a session's request. -/
def Sess.newShards (e : Sess) : List ShardQ := (List.range e.shards).map fun i => { shard := i, die := e.die i, pipe := 0 }

/-- R184: prefetch of the next layers over the request's range, at its admission. -/
def State.lookahead (s : State) (f : Flight) (e : Sess) : State :=
  let names := ((List.range e.lookahead).map fun i => e.namesOf ((f.u 16 2 + 1 + i) % e.layers) (f.u 20 4) (f.u 24 4)).flatten
  (s.prefetchAll f.obj f.cls names 0x50).1

/-- KV_ATTEND: checks and admission. -/
def State.kvAttend (s : State) (f : Flight) (e : Sess) (query loc : Dma) : State :=
  if !(kvOk f e) then s.fixSt f.fid .invalid
  else
    let q := f.u 18 1
    let nq := f.u 60 1 * e.hkv * e.group
    let ln := if f.u 56 2 = 0 then 0 else localBytes (f.u 56 2) e.hkv e.dh e.dh q
    let r := s.readTwo f (f.u 19 1) (f.u 32 8) (nq * e.dh * fmtBytes q) query (f.u 58 1) (f.u 64 8) ln loc
    match r.2 with
    | .stop st n => r.1.stopAt f.fid st n
    | .ok a b =>
      let qs := queriesOf q nq e.dh a
      if !(qs.all allFinite) || !((kvLocal f e b).ok (f.u 60 1)) then r.1.fixSt f.fid .invalid
      else
        let within := e.resident == 0 && decide (f.u 24 4 - f.u 20 4 ≤ 65536) && decide (f.u 28 4 ≤ 256)
        let t := if f.phase = .active then r.1 else r.1.admitNow f.fid
        let v := t.envelope f within 1350000
        let req : Req :=
          { fid := f.fid, opcode := 0x312, wing := f.wing, key := f.obj, cls := v.2, k := f.u 28 4, queries := qs, locals := b
            segs := cdiv (f.u 28 4) 256, searches := [{ query := [], shards := e.newShards }] }
        let t := { v.1 with reqs := v.1.reqs ++ [req] }
        if f.phase = .active then t else t.lookahead f e

def execKvAttend (fid : Nat) (query loc : Dma) (s : State) : Host.Outcome State Fault Refusal :=
  work s (match s.kvFlight fid 0x312 with
    | some f =>
      match s.sessOf f with
      | some e => s.kvTurn f e false (kvFields f e) (fun s => s.lookahead f e) fun s e => s.kvAttend f e query loc
      | none => s.fixSt fid .invalid
    | none => s)

/-- One spilled tier page is read for a granted KV_ATTEND: it ends a prefetch's hold (R185). -/
def State.kvRead (s : State) (r : Req) (e : Sess) (name from_ to_ : Nat) : State :=
  if !(e.spilled.contains name) then s
  else
    let s := if e.isHeld name then
      (s.modSess r.key fun e => { e with pref := e.pref.filter fun x => x.name != name }).bump (kvReg (e.die (kvShard name)) 0x60) else s
    s.kvFetch r.fid r.wing r.cls e name from_ to_

/-- The page reads of a granted KV_ATTEND. (log 48, DEDUCED) -/
def State.kvIssue (s : State) (r : Req) : State :=
  match s.flight? r.fid, tfind s.sessions r.key with
  | some f, some e => (e.namesOf (f.u 16 2) (f.u 20 4) (f.u 24 4)).foldl (fun s n => s.kvRead r e n (f.u 20 4) (f.u 24 4)) s
  | _, _ => s

/-- Every list of a request is taken: from here on it holds the slot that hosts Join only (R87). -/
def State.acceptAll (s : State) (fid : Nat) : State :=
  s.modReq fid fun r =>
    let done := fun (x : Search) => { x with shards := x.shards.map fun q => { q with ph := .accepted } }
    { r with searches := r.searches.map done }

/-- Stored positions of a shard in a range, ascending. -/
def Sess.positions (e : Sess) (shard from_ to_ : Nat) : List Nat :=
  ((List.range (to_ - from_)).map fun i => from_ + i).filter fun p => p / 64 % e.shards == shard

/-- Score of a stored key (R187). -/
def Sess.keyScore (e : Sess) (layer h : Nat) (q : List Word32) (pos : Nat) : Word32 := scoreVec 0 q (e.vec false layer pos h)

/-- Dense blend of some positions of one KV head, in the order given. -/
def Sess.blendAt (e : Sess) (layer h : Nat) (scale : Word32) (q : List Word32) (l : List Nat) : BlendSt :=
  l.foldl (fun st p => st.key scale (e.keyScore layer h q p) (e.vec true layer p h)) (BlendSt.empty e.dh)

/-- A Mantel list of positions, with what its insertions counted: candidates placed, cycles in chained lists (Tables 05-4, 05-6). -/
structure TopList where
  list : List Cand := []
  placed : Nat := 0
  chain : Nat := 0
deriving DecidableEq, Repr

/-- Inserts a stored key into a list of at most k (R111). -/
def TopList.insert (k : Nat) (t : TopList) (c : Cand) : TopList :=
  let r := mantelInsert k t.list c
  { list := r.1, placed := t.placed + b2n r.2, chain := t.chain + (if r.2 && decide (256 < k) then placedAt r.1 c / 256 + 1 else 0) }

/-- Top-k lists of one query, one for each shard (R189). -/
def Sess.topLists (e : Sess) (layer h from_ to_ k : Nat) (pipes : List Nat) (q : List Word32) : List TopList :=
  pipes.zipIdx.map fun p => (e.positions p.2 from_ to_).foldl (fun (l : TopList) pos =>
    l.insert k { score := e.keyScore layer h q pos, node := pos, vid := pos, sq8 := true, porch := false, source := p.1 }) {}

/-- KV head of query i (R187). -/
def kvHead (e : Sess) (i : Nat) : Nat := i % (e.hkv * e.group) / e.group

/-- The lists of every query of a KV_ATTEND with TOPK. -/
def kvLists (f : Flight) (e : Sess) (pipes : List Nat) (queries : List (List Word32)) : List (List TopList) :=
  queries.zipIdx.map fun p => e.topLists (f.u 16 2) (kvHead e p.2) (f.u 20 4) (f.u 24 4) (f.u 28 4) pipes p.1

/-- One query of a KV_ATTEND, with its lists under TOPK: its blended state and what Join did. -/
def kvQuery (f : Flight) (e : Sess) (free : Nat) (lists : List TopList) (locals : Bytes) (q : List Word32) (i : Nat) : BlendSt × Nat × Bool :=
  let per := e.hkv * e.group
  let h := kvHead e i
  let layer := f.u 16 2
  let scale : Word32 := BitVec.ofNat 32 (f.u 52 4)
  let lb := kvLocal f e locals
  let from_ := f.u 20 4
  let to_ := f.u 24 4
  if f.u 28 4 = 0 then
    let st := (List.range e.shards).foldl (fun (st : BlendSt) k => st.combine (e.blendAt layer h scale q (e.positions k from_ to_)))
      (BlendSt.empty e.dh)
    (lb.blend 0 scale q (i / per) h st, 0, false)
  else
    let j := joinCands free (f.u 28 4) false (lists.map TopList.list)
    let st := j.kept.foldl (fun (st : BlendSt) x => st.key scale x.score (e.vec true layer x.node h)) (BlendSt.empty e.dh)
    (lb.blend 0 scale q (i / per) h st, j.ties, j.past)

/-- KV pages of a shard that a range touches. -/
def Sess.pagesOfShard (e : Sess) (shard from_ to_ : Nat) : List Nat :=
  if to_ ≤ from_ then []
  else ((List.range (cdiv to_ 64 - from_ / 64)).map fun i => from_ / 64 + i).filter fun p => p % e.shards == shard

/-- The first poisoned line of a range of positions. -/
def Sess.rangePoison (e : Sess) (layer from_ to_ : Nat) : Option Nat :=
  ((List.range e.shards).map fun k => e.pagesOfShard k from_ to_).flatten.findSome? fun p => e.pagePoison layer p

/-- What a KV_ATTEND counts in the pipelines (Tables 05-6, 07-7): on each shard's the pages scanned, the stored keys blended there in dense
mode and what its lists took; on Join's the records, the keys blended there, the joins. -/
def State.countKv (s : State) (r : Req) (f : Flight) (e : Sess) (lists : List (List TopList)) (outs : List (BlendSt × Nat × Bool)) : State :=
  let from_ := f.u 20 4
  let to_ := f.u 24 4
  let dense := f.u 28 4 == 0
  let perShard := fun (k : Nat) => if dense then outs.length * (e.positions k from_ to_).length else 0
  let s := r.pipes.zipIdx.foldl (fun (s : State) p =>
    let o := spReg p.1
    let l := lists.filterMap fun x => x[p.2]?
    (((s.bumpBy (o 0x138) (e.pagesOfShard p.2 from_ to_).length).bumpBy (o 0x130) (perShard p.2)).bumpBy (o 0xE8)
      (sumNat (l.map TopList.placed))).bumpBy (o 0xF0) (sumNat (l.map TopList.chain))) s
  let keys := sumNat (outs.map fun o => o.1.n)
  let o := spReg r.host
  let s := (s.bumpBy (o 0x128) outs.length).bumpBy (o 0x130) (keys - sumNat ((List.range r.pipes.length).map perShard))
  if dense then s else (s.bumpBy (o 0x108) outs.length).bumpBy (o 0x118) (sumNat (outs.map fun o => o.2.1))

/-- Results of a KV_ATTEND (R187 to R189). -/
def State.kvFinish (s : State) (r : Req) (f : Flight) (e : Sess) : State :=
  let from_ := f.u 20 4
  let to_ := f.u 24 4
  match e.rangePoison (f.u 16 2) from_ to_ with
  | some k => s.stopAt f.fid (some .poisoned) (some (e.noteAt (hHandle f.raw) k))
  | none =>
    let k := f.u 28 4
    let per := if k = 0 then 0 else to_ - from_
    let lists := if k = 0 then [] else kvLists f e r.pipes r.queries
    let outs := r.queries.zipIdx.map fun p => kvQuery f e (s.fresh + p.2 * per) (lists.getD p.2 []) r.locals p.1 p.2
    let nloc := fun (i : Nat) => ((kvLocal f e r.locals).seen (i / (e.hkv * e.group))).length
    let free := s.fresh + outs.length * per
    let recs := (outs.zipIdx.map fun o => o.1.1.record (free + o.2) (f.u 59 1) (nloc o.2) 0).flatten
    let t := (({ s with fresh := free + outs.length }.countKv r f e lists outs).result f 0 recs)
    let short := k != 0 && decide (to_ - from_ < k)
    let t := if short then t.bump (spReg r.host 0x120) else t
    let stored := sumNat (outs.map fun o => o.1.n) - sumNat ((List.range outs.length).map nloc)
    t.fix f.fid { status := if short then .short else .ok, flags := if outs.any fun o => o.2.2 then flagTie else 0
                  count := outs.length, result := pack32 stored (sumNat (outs.map fun o => o.2.1)) }

end Sys2Proof.Machine
end

