-- ==== Sys2Proof/Machine/Ring.lean ====
section
/-!
DEFINITION. Ring attention (R190 to R192, R452): admission, the member's own block, pages that arrive on PREV, forwarding, the result;
and the KV block's counters for ring pages.
-/
namespace Sys2Proof.Machine
open Sys2Proof

/-- Fields of Table 07-6. Nothing in them rests on the layer's length. -/
def ringOk (f : Flight) (e : Sess) : Bool :=
  let n := f.u 22 1
  let nq := f.u 26 2 * e.hkv * e.group
  decide (f.u 16 2 < e.layers) && decide (f.u 18 1 ≤ 2) && decide (f.u 19 1 ≤ 1) && aligned64 (f.u 32 8) && inside 2 64 n
    && decide (f.u 23 1 < n) && decide (f.u 24 1 < 6) && decide (f.u 25 1 < 6) && (f.u 24 1 != f.u 25 1 || n == 2)
    && inside 1 4096 (f.u 26 2) && aligned64 (f.u 40 8) && decide (nq * attnRec e.dh (f.u 56 1) ≤ f.u 48 4) && scaleOk (f.u 52 4)
    && decide (f.u 56 1 ≤ 1) && decide (f.u 57 1 ≤ 1) && f.zero [(58, 70)]

/-- RING_ATTEND: checks and admission; it always runs outside the TC0 envelope (R428). (log 20, DEDUCED) -/
def State.ringAttend (s : State) (f : Flight) (e : Sess) (query : Dma) : State :=
  if !(ringOk f e) then s.fixSt f.fid .invalid
  else
    let nq := f.u 26 2 * e.hkv * e.group
    let r := s.readSrc f (f.u 19 1) (f.u 32 8) (nq * e.dh * fmtBytes (f.u 18 1)) query 0
    match r.2 with
    | .stop st n => r.1.stopAt f.fid st n
    | .bytes a =>
      let qs := queriesOf (f.u 18 1) nq e.dh a
      if !(qs.all allFinite) then r.1.fixSt f.fid .invalid
      else
        let t := if f.phase = .active then r.1 else r.1.admitNow f.fid
        let v := t.envelope f false 0
        let req : Req :=
          { fid := f.fid, opcode := 0x318, wing := f.wing, key := f.obj, cls := v.2, queries := qs, length := e.len (f.u 16 2)
            blends := List.replicate (2 * nq) (BlendSt.empty e.dh), searches := [{ query := [], shards := e.newShards }] }
        { v.1 with reqs := v.1.reqs ++ [req] }

def execRingAttend (fid : Nat) (query : Dma) (s : State) : Host.Outcome State Fault Refusal :=
  work s (match s.kvFlight fid 0x318 with
    | some f =>
      match s.sessOf f with
      | some e => s.kvTurn f e false (ringOk f e) id fun s e => s.ringAttend f e query
      | none => s.fixSt fid .invalid
    | none => s)

/-- Pages of a block of n tokens: a block without tokens travels as one page without bytes (log 20, DEDUCED). -/
def ringPages (n : Nat) : Nat := max 1 (cdiv n 64)

/-- Blends one page of a block into the states of the current step: the second half of `blends` (R191). -/
def blendPage (f : Flight) (e : Sess) (r : Req) (src : Sess) (layer page pageAt pos0 tokens : Nat) : Req :=
  let scale : Word32 := BitVec.ofNat 32 (f.u 52 4)
  let per := e.hkv * e.group
  let nq := r.queries.length
  let held := List.range (min 64 (tokens - 64 * page))
  let sees := fun (q i : Nat) => f.u 57 1 == 0 || decide (pos0 + 64 * page + i ≤ f.u 28 4 + q / per)
  let step := fun (q : Nat) (query : List Word32) (st : BlendSt) =>
    (held.filter (sees q)).foldl (fun (st : BlendSt) i =>
      let h := q % per / e.group
      st.key scale (src.keyScore layer h query (64 * pageAt + i)) (src.vec true layer (64 * pageAt + i) h)) st
  { r with blends := r.blends.take nq ++ ((r.queries.zip (r.blends.drop nq)).zipIdx.map fun p => step p.2 p.1.1 p.1.2) }

/-- Combines the states of a finished step into the result so far. -/
def Req.endStep (r : Req) (dh : Nat) : Req :=
  let nq := r.queries.length
  { r with
    ringStep := r.ringStep + 1, ringPage := 0
    blends := ((r.blends.take nq).zip (r.blends.drop nq)).map (fun p => p.1.combine p.2) ++ List.replicate nq (BlendSt.empty dh) }

/-- Remembers whose page a tag names, for a refusal (R448). -/
def State.noteRingTag (s : State) (p tag fid : Nat) : State :=
  let b := s.bp p
  s.setBp p { b with ringTags := (b.ringTags.filter fun x => (s.flight? x.2).isSome) ++ [(tag, fid)] }

/-- Sends one page of a block to NEXT in frames of at most 4,096 bytes (R452). -/
def State.sendRingPage (s : State) (f : Flight) (cls index step pos0 page tokens : Nat) (e : Sess) (bytes : Bytes) : State :=
  let p := f.u 25 1
  let t := s.takeTag p
  let parts := cutPayload 0 bytes (bytes.length / 4096 + 1)
  let lastOff := ((parts.getLast?).map Prod.fst).getD 0
  parts.foldl (fun (s : State) x =>
    s.sendFrame p { blankFrame with
      typ := 0x200, chan := cls, colour := f.colour, wing := f.wing, last := x.1 == lastOff, tag := t.2, deadline := s.usLeft f.fid
      args := argsOf (natLe (f.u 20 2) 2 ++ natLe index 1 ++ natLe step 1 ++ natLe (f.u 16 2) 2 ++ natLe e.hkv 1 ++ natLe e.kfmt 1
        ++ natLe e.dh 2 ++ natLe pos0 4 ++ natLe page 4 ++ natLe x.1 4 ++ natLe tokens 4)
      payload := x.2 }) (t.1.noteRingTag p t.2 f.fid)

/-- Keys blended into a request's states. -/
def Req.blended (r : Req) : Nat := sumNat (r.blends.map BlendSt.n)

/-- A page blended for a request, counted on a pipeline: the page scanned and the keys blended (Table 07-7; log 20, DEDUCED). -/
def State.countRingPage (s : State) (pipe old : Nat) (r : Req) (empty : Bool) : State :=
  (if empty then s else s.bump (spReg pipe 0x138)).bumpBy (spReg pipe 0x130) (r.blended - old)

/-- Whether a page of the member's own block is still awaited from the Cellar window, and whether its read failed (R185, R287). -/
def State.ownReads (s : State) (r : Req) (e : Sess) (layer page : Nat) : List Access :=
  let x := e.tierOf page
  (s.tagged r.fid kvTag).filter fun a => a.page == e.winPage (kvName layer x.1 x.2)

/-- Step 0: the member's own block is sent to NEXT and blended, page by page, as far as its spilled pages have come; `fuel` bounds the
pages (R191). -/
def State.ringOwn (s : State) (fid : Nat) : Nat → State
  | 0 => s
  | fuel + 1 =>
    match s.req? fid, s.flight? fid with
    | some r, some f =>
      match tfind s.sessions r.key with
      | none => s
      | some e =>
        let layer := f.u 16 2
        let p := r.ringPage
        let reads := s.ownReads r e layer p
        if r.waiting ∨ r.opcode ≠ 0x318 ∨ r.ringStep ≠ 0 ∨ reads.any s.winWaits = true then s
        else if reads.any Access.failed then s.fixSt fid .mediaError
        else
          let bytes := if r.length = 0 then [] else getBytes e.mem (kvPageKey layer p) e.pageBytes
          let s := s.sendRingPage f r.cls (f.u 23 1) 0 e.pos0 p r.length e bytes
          let q := blendPage f e r e layer p p e.pos0 r.length
          let s := s.countRingPage (r.pipes.getD (p % e.shards) r.host) r.blended q (r.length == 0)
          if ringPages r.length ≤ p + 1 then (s.modReq fid fun _ => q.endStep e.dh).untag fid kvTag
          else (s.modReq fid fun _ => { q with ringPage := p + 1 }).ringOwn fid fuel
    | _, _ => s

/-- A granted ring request: poison in its block ends it, its spilled pages are read, its first pages go out. -/
def State.ringStart (s : State) (r : Req) (f : Flight) (e : Sess) : State :=
  let layer := f.u 16 2
  match e.rangePoison layer 0 r.length with
  | some k => s.stopAt f.fid (some .poisoned) (some (e.noteAt (hHandle f.raw) k))
  | none =>
    let t := ((e.namesOf layer 0 r.length).filter fun n => e.spilled.contains n).foldl
      (fun (s : State) n => s.kvFetch r.fid r.wing r.cls e n 0 r.length) s
    t.ringOwn r.fid (ringPages r.length)

/-- Writes the results of a ring (R163, R190). Its query vectors, and so its records, stand token by token, head h of token t at index
t × HKV × GROUP + h (log 135, DESIGN CHOICE). -/
def State.ringEmit (s : State) (r : Req) (f : Flight) : State :=
  let nq := r.queries.length
  let outs := r.blends.take nq
  let recs := (outs.zipIdx.map fun o => o.1.record (s.fresh + o.2) (f.u 56 1) 0 0).flatten
  let t := { s.acceptAll r.fid with fresh := s.fresh + nq }
  ((t.bumpBy (spReg r.host 0x128) nq).result f 0 recs).fix f.fid { count := searchCount nq }

/-- The member whose block a request awaits. -/
def ringFrom (f : Flight) (r : Req) : Nat := (f.u 23 1 + f.u 22 1 - r.ringStep % f.u 22 1) % f.u 22 1

/-- Whether a held page is the next one a request awaits. -/
def ringNext (f : Flight) (r : Req) (x : RingPage) : Bool :=
  x.whole && x.wing == f.wing && x.ringId == f.u 20 2 && x.index == ringFrom f r && x.page == r.ringPage

/-- Takes one page that a request awaits: blended, forwarded while the step is below R - 1, and the step ended with the block.
(log 97, DEDUCED) -/
def State.ringTake (s : State) (r : Req) (f : Flight) (e : Sess) (x : RingPage) : State :=
  let bytes := getBytes x.bytes 0 e.pageBytes
  let src := { e with mem := putBytes [] 0 bytes }
  let s := if r.ringStep + 1 < f.u 22 1 then
    s.sendRingPage f r.cls x.index r.ringStep x.pos0 x.page x.tokens e (if x.tokens = 0 then [] else bytes) else s
  let q := { blendPage f e r src 0 x.page 0 x.pos0 x.tokens with ringPage := r.ringPage + 1 }
  let s := (s.countRingPage r.host r.blended q (x.tokens == 0)).modReq r.fid fun _ => if ringPages x.tokens ≤ x.page + 1 then q.endStep e.dh else q
  match s.req? r.fid with
  | some r => if r.ringStep = f.u 22 1 then s.ringEmit r f else s
  | none => s

/-- Whether a block's geometry is not the receiver's (R192). -/
def ringMismatch (f : Flight) (e : Sess) (x : RingPage) : Bool :=
  x.hkv != e.hkv || x.dh != e.dh || x.kfmt != e.kfmt || x.layer != f.u 16 2

/-- Pages of a port's buffer that a running request awaits, one after another; `fuel` bounds them. -/
def State.ringDrain (s : State) (fid : Nat) : Nat → State
  | 0 => s
  | fuel + 1 =>
    match s.req? fid, s.flight? fid with
    | some r, some f =>
      if r.waiting ∨ r.opcode ≠ 0x318 ∨ r.ringStep = 0 then s
      else
        let p := f.u 24 1
        match (s.bp p).ringBuf.find? (ringNext f r), tfind s.sessions r.key with
        | some x, some e =>
          let s := s.setBp p { s.bp p with ringBuf := eraseOne x (s.bp p).ringBuf }
          if ringMismatch f e x then s.fixSt fid .invalid else (s.ringTake r f e x).ringDrain fid fuel
        | _, _ => s
    | _, _ => s

/-- A ring request whose slots were granted. -/
def State.ringGranted (s : State) (fid : Nat) : State :=
  match s.req? fid, s.flight? fid with
  | some r, some f =>
    match tfind s.sessions r.key with
    | some e =>
      let t := s.ringStart r f e
      t.ringDrain fid (t.bp (f.u 24 1)).ringBuf.length
    | none => s
  | _, _ => s

/-- The running ring request that a frame is for. -/
def State.ringReq (s : State) (p wing ringId : Nat) : Option Req :=
  s.reqs.find? fun r => r.opcode == 0x318 && r.wing == wing && match s.flight? r.fid with
    | some f => f.u 24 1 == p && f.u 20 2 == ringId
    | none => false

/-- Ring requests that wait for pages of their own block go on (R191, R287). -/
def State.retryRings (s : State) : State :=
  (s.reqs.filter fun r => r.opcode == 0x318 && !r.waiting && r.ringStep == 0).foldl (fun s r =>
    let t := s.ringOwn r.fid (ringPages r.length)
    match t.flight? r.fid with
    | some f => t.ringDrain r.fid (t.bp (f.u 24 1)).ringBuf.length
    | none => t) s

/-- Hall die whose Floor reserve holds a port's ring buffer (log 20, DEDUCED). -/
def ringDie (p : Nat) : Nat := if p < 3 then 0 else 2

/-- A RING_BLOCK frame of a mapped wing (R452). (log 20, DEDUCED) -/
def State.ringBlock (s : State) (p w : Nat) (q : Frame) : State :=
  let a := fun o n => fld q.args (o - 24) n
  let same := fun (x : RingPage) => x.wing == w && x.ringId == a 24 2 && x.index == a 26 1 && x.page == a 38 4 && !x.whole
  let old := (s.bp p).ringBuf.find? same
  let base : RingPage := old.getD
    { port := p, wing := w, ringId := a 24 2, index := a 26 1, step := a 27 1, layer := a 28 2, hkv := a 30 1, kfmt := a 31 1, dh := a 32 2
      pos0 := a 34 4, page := a 38 4, tokens := a 46 4, bytes := [], whole := false }
  let x : RingPage := { base with bytes := putBytes base.bytes (a 42 4) q.payload, whole := q.last }
  let b := s.bp p
  let s := s.setBp p { b with ringBuf := (b.ringBuf.filter fun y => !(same y)) ++ [x] }
  match s.ringReq p w (a 24 2) with
  | some r =>
    let s := if q.last then s.bump (kvReg (r.host / 2) 0x70) else s
    s.ringDrain r.fid (s.bp p).ringBuf.length
  | none => if q.last then s.bump (kvReg (ringDie p) 0x70) else s

end Sys2Proof.Machine
end

