-- ==== Sys2Proof/Machine/Mem.lean ====
section
/-!
DEFINITION. CXL.mem (15) and the steps of the window cache (11): requests through host windows, bandwidth limits, the directory and its
snoops, port failure, fills, write-backs, cleaning and late accesses.
-/
namespace Sys2Proof.Machine
open Sys2Proof

/-! ## Answers -/

def zeroLine : Bytes := List.replicate 64 0

/-- Answers a read; one with poison is counted (Table 15-8). -/
def State.answerRead (s : State) (p tag : Nat) (bs : Bytes) (poison : Bool) : State :=
  (if poison then s.bump (hpReg p 0x78) else s).emit (.memResp p tag bs poison (s.port p).devload)

/-- Answers a write. -/
def State.answerWrite (s : State) (p tag : Nat) : State := s.emit (.memResp p tag [] false (s.port p).devload)

/-- Answers a request that reaches no memory: a read with zeros and poison; a write is discarded (R370, R383, R496). -/
def State.answerNone (s : State) (x : MemWait) : State :=
  if x.write.isSome then s.answerWrite x.port x.tag else s.answerRead x.port x.tag zeroLine true

/-! ## Serving a request -/

/-- A host access to an open region makes it HELD (R303). -/
def State.hostTouch (s : State) (w p : Nat) : State :=
  match s.pageRegion w p with
  | some k => if (s.region k).st = .opened then s.setRegion k { s.region k with held := true } else s
  | none => s

/-- Asks other hosts for a line that a port wants to read, or to own; with no entry for it in a full directory, takes back the line
whose grant is oldest. The second part says that the request must wait (R371, R372, R383). -/
def State.askFor (s : State) (p k : Nat) (own : Bool) : State × Bool :=
  if s.snoops.any fun x => x.line == k then (s, true)
  else
    match s.dirEnt? k with
    | some e =>
      let others := e.holders.filter fun q => q != p
      if own then (others.foldl (fun s q => s.sendSnoop q k true) s, !others.isEmpty)
      else
        match e.owner with
        | some q => if q = p then (s, false) else (s.sendSnoop q k false, true)
        | none => (s, false)
    | none =>
      if s.dir.length < dirSize then (s, false)
      else
        match oldestGrant s.dir with
        | some e =>
          if s.snoops.any fun x => x.line == e.line then (s, true)
          else ((e.holders.foldl (fun s q => s.sendSnoop q e.line true) s).bump 0x6040, true)
        | none => (s, false)

/-- The bytes a line write leaves in a line. -/
def lineOver (l : LineWrite) (old : Bytes) : Bytes := (l.data.zip old).map fun x => x.1.getD x.2

/-- Whether a line write covers the whole line. -/
def lineFull (l : LineWrite) : Bool := l.data.all Option.isSome

/-- Applies a line write (R280, R298, R380): a partial write leaves the line's poison, a write with poison sets it.
(log 74, DEDUCED) -/
def State.lineWrite (s : State) (w cls a : Nat) (l : LineWrite) : State :=
  (s.writePage w cls a (lineOver l (s.tierBytes w a 64)) (l.poison || (s.linePoisoned w a && !(lineFull l)))).1

/-- Whether a port must give a line of a window back at once: the window is being removed, or the port drained (R369, R381, R383). -/
def State.leaving (s : State) (p : Nat) (h : HostWin) : Bool :=
  (s.port p).st != .enabled || !((List.range 16).any fun i => s.hostWin p i == h)

/-- Grants a line of a SHARED window to a port (R371): not to one that has failed; one that must give it back is asked for it at once. -/
def State.grantIn (s : State) (p : Nat) (h : HostWin) (a : Nat) (own : Bool) : State :=
  if !h.shared || (s.port p).st == .failed then s
  else
    let t := s.grantLine p (lineKey h.wing a) own
    if t.leaving p h then t.sendSnoop p (lineKey h.wing a) true else t

def MemWait.who (x : MemWait) (h : HostWin) : Who := { mem := some (x.id, h.tc) }

/-- A read that can be served: its data and poison, counted, and the line granted to the port (R371, R380). -/
def State.serveRead (s : State) (x : MemWait) (h : HostWin) (a : Nat) : State :=
  let y := x.who h
  let s := (s.hostTouch h.wing (a / pageSize)).bumpBy (hpReg x.port 0x40) 64
  if s.failedRead y h.wing a 64 then (s.endAccess y h.wing a 64).answerRead x.port x.tag zeroLine true
  else
    let s := s.endAccess y h.wing a 64
    let s := s.grantIn x.port h a x.own
    s.answerRead x.port x.tag (s.tierBytes h.wing a 64) (s.linePoisoned h.wing a)

/-- A write that can be applied. (log 74, DEDUCED) -/
def State.serveWrite (s : State) (x : MemWait) (h : HostWin) (a : Nat) (l : LineWrite) : State :=
  let s := ((s.hostTouch h.wing (a / pageSize)).bumpBy (hpReg x.port 0x48) (l.data.filter Option.isSome).length).endAccess (x.who h) h.wing a 64
  let s := s.lineWrite h.wing h.tc a l
  let s := s.grantIn x.port h a true
  if (s.port x.port).st = .failed then s else s.answerWrite x.port x.tag

/-- Whether a write covers a line in part that only a neighbour holds: the line is read first (R275, R380). -/
def MemWait.needsLine (s : State) (x : MemWait) (w a : Nat) : Bool :=
  match x.write with
  | some l => !(lineFull l) && pageTier (a / pageSize) == 3 && !(s.page w (a / pageSize)).resident
  | none => true

/-- One try of a mapped request: served, or waiting for snoops, a fill, a seal or a lower tier (R279, R297, R371). A private window is gone
at once when it is removed (R369); a request to pages that are gone with it reaches no memory.
(log 71, DEDUCED) -/
def State.memTry (s : State) (x : MemWait) (h : HostWin) : State × Bool :=
  let w := h.wing
  let a := h.tierAddr x.dpa / 64 * 64
  let y := x.who h
  if s.inLost w a 64 || !(s.inRanges w a 64) then ((s.endAccess y w a 64).answerNone x, true)
  else
    let q := if h.shared then s.askFor x.port (lineKey w a) (x.own || x.write.isSome) else (s, false)
    let s := q.1
    let s := if s.issued y w a 64 then s
      else if x.write.isSome then s.injected w a 64 else (s.injected w a 64).readAccess w h.tc (a / pageSize)
    if q.2 || s.floorBusy w a 64 || s.fillingIn w a 64 || (x.needsLine s w a && s.farAway y w a 64) then
      (s.issue y w a 64 (x.needsLine s w a), false)
    else
      match x.write with
      | some l => (s.serveWrite x h a l, true)
      | none => (s.serveRead x h a, true)

/-- Whether a DPA lies in a window of the port that has been handed over (R383). (log 73, DEDUCED) -/
def State.deniedAt (s : State) (p dpa : Nat) : Bool :=
  (s.port p).denied.any fun w =>
    let h := s.hostWin p w
    decide (h.dpa ≤ dpa / pageSize) && decide (dpa / pageSize < h.dpa + h.pages)

/-- A request as it comes to G0: mapped through the window that is VALID then, or denied (R367, R370, R383). -/
def State.mapped (s : State) (x : MemWait) : MemWait :=
  { x with win := (s.winOfDpa x.port x.dpa).map (s.hostWin x.port), denied := s.deniedAt x.port x.dpa }

/-- A request starts: counted against the limit, tried in its window (R370, R374, R383). -/
def State.memStart (s : State) (x : MemWait) : State :=
  let p := s.port x.port
  let s := s.setPort x.port { p with count := p.count + 64, started := p.started + 64 }
  match x.win with
  | some h =>
    if h.shared != x.bi then (s.bump (hpReg x.port 0x70)).answerNone x
    else
      let r := s.memTry x h
      if r.2 then r.1 else { r.1 with memWaits := r.1.memWaits ++ [x] }
  | none => (if x.denied then s.bump (hpReg x.port 0x68) else s.bump (hpReg x.port 0x70)).answerNone x

/-! ## Bandwidth limits (R374 to R376) -/

/-- LIMIT of a port in units of 0.125 GB/s; values above 1,024 act as 1,024. -/
def State.bwLimit (s : State) (p : Nat) : Nat := min (bits (s.reg (hpReg p 0x18)) 10 0) 1024

/-- Bytes that may start in a window; none without a limit. (log 72, DEDUCED) -/
def State.bwBudget (s : State) (p : Nat) : Option Nat := if s.bwLimit p = 0 then none else some (125 * s.bwLimit p)

/-- Whether the next request of a port may start. (log 72, DEDUCED) -/
def State.bwOpen (s : State) (p : Nat) : Bool :=
  match s.bwBudget p with
  | some b => decide ((s.port p).count < b)
  | none => true

/-- Requests of a port held at G0. -/
def State.heldReqs (s : State) (p : Nat) : Nat := (s.port p).queue.length + (s.memWaits.filter fun x => x.port == p).length

/-- Overflow entries in use (R375). (log 72, DEDUCED) -/
def State.overflow (s : State) : Nat := ((List.range 8).map fun p => s.heldReqs p - 512).foldl (· + ·) 0

/-- Whether credits are withheld: the overflow is full and a port fills its own entries (R375). -/
def State.creditHeld (s : State) : Bool := decide (2048 ≤ s.overflow) && (List.range 8).any fun p => decide (512 ≤ s.heldReqs p)

/-- Starts waiting requests of a port, in arrival order; `fuel` bounds them. (log 73, DEDUCED) -/
def State.drainQueue (s : State) (p : Nat) : Nat → State
  | 0 => s
  | fuel + 1 =>
    match (s.port p).queue with
    | x :: t => if s.bwOpen p then ((s.setPort p { s.port p with queue := t }).memStart x).drainQueue p fuel else s
    | [] => s

/-- Notes that a port holds overflow entries (R375, Table 15-2). -/
def State.noteSpill (s : State) (p : Nat) : State :=
  if 512 < s.heldReqs p then s.setPort p { s.port p with spilled := true } else s

/-- Whether requests of a port reach G0: the link is up with CXL (R363), the port in service, credits are there. A write of a port that
failed in this very cycle is applied too (R379). -/
def State.memHeard (s : State) (x : MemWait) : Bool :=
  s.link.cxl && !s.creditHeld && ((s.port x.port).st == .enabled
    || ((s.port x.port).st == .failed && (s.port x.port).failCyc == some s.cyc && x.write.isSome))

/-- A CXL.mem request of a port: not of one that is out of service, nor while credits are withheld. (log 73, DEDUCED) -/
def State.memRequest (s : State) (x : MemWait) : State :=
  if s.err.fatal then s.answerNone x
  else if !(s.memHeard x) then s
  else
    let x := s.mapped x
    let s := { s with nextId := s.nextId + 1 }
    let p := s.port x.port
    (if p.queue.isEmpty && s.bwOpen x.port then s.memStart x
     else s.setPort x.port { p with queue := p.queue ++ [x], waited := true }).noteSpill x.port

/-- CXL_MEM_READ (R367). -/
def execCxlMemRead (port dpa tag : Nat) (own bi : Bool) (s : State) : Host.Outcome State Fault Refusal :=
  work s (s.memRequest { id := s.nextId, port, dpa, tag, own, write := none, bi })

/-- CXL_MEM_WRITE (R367). -/
def execCxlMemWrite (port dpa tag : Nat) (line : LineWrite) (bi : Bool) (s : State) : Host.Outcome State Fault Refusal :=
  work s (s.memRequest { id := s.nextId, port, dpa, tag, own := true, write := some line, bi })

/-- DevLoad of a window that closes (Table 15-2). -/
def State.devLoad (s : State) (p : Nat) : Nat :=
  let x := s.port p
  let budget := (s.bwBudget p).getD 16000
  if !x.queue.isEmpty || x.spilled then 3 else if x.waited then 2 else if budget ≤ 2 * x.started then 1 else 0

/-- HP_BW_WINDOW_END (R374): the count falls by the budget, DevLoad is that of the window that closed, waiting requests start.
(log 72, DEDUCED) -/
def execHpBwWindowEnd (port : Nat) (s : State) : Host.Outcome State Fault Refusal :=
  work s (
    let n := tget 0 s.bwTicks port
    if s.cyc / 1500 + 1 ≤ n then s
    else
      let s := { s with bwTicks := tset 0 s.bwTicks port (n + 1) }
      let x := s.port port
      let left := match s.bwBudget port with
        | some b => x.count - b
        | none => 0
      let s := s.setPort port { x with devload := s.devLoad port, count := left, started := 0, waited := false }
      let s := s.drainQueue port x.queue.length
      let y := s.port port
      s.setPort port { y with waited := !y.queue.isEmpty, spilled := decide (512 < s.heldReqs port) })

/-- A write to `HP_BW.LIMIT` acts at once: requests that may start now do (R374, R386). -/
def State.limitSet (s : State) (p : Nat) : State := s.drainQueue p (s.port p).queue.length

/-! ## Removal of windows (R369, R383) -/

/-- Whether a port holds a line of a window that is removed, has a snoop for one outstanding, or a request to it that waits
(R369, R383). (log 73, DEDUCED) -/
def State.holdsIn (s : State) (p : Nat) (h : HostWin) : Bool :=
  (s.dir.any fun e => e.holders.contains p && h.hasLine e.line) || (s.snoops.any fun x => x.port == p && h.hasLine x.line)
    || (h.shared && ((s.port p).queue ++ s.memWaits).any fun x => x.port == p && x.win == some { h with valid := true })

/-- Completes a hand-over whose removal has ended (R383). -/
def State.endHandover (s : State) (x : HandOver) : State :=
  let s := { s with handovers := s.handovers.filter fun y => y.fid != x.fid }
  s.fix x.fid { flags := if x.poison then flagPoisonSeen else 0, result := pack32 x.lines x.withData }

/-- Frees a window whose removal has ended. -/
def State.freeWin_ (s : State) (p w : Nat) : State :=
  let s := s.setPort p { s.port p with winBusy := (s.port p).winBusy.filter fun x => x != w }
  match s.handovers.find? fun x => x.moved && x.from_ == p && x.fromWin == w with
  | some x => s.endHandover x
  | none => s

/-- Frees every window under removal whose last line has been returned. -/
def State.endRemovals (s : State) : State :=
  allWins.foldl (fun s x =>
    if (s.port x.1).winBusy.contains x.2 && !(s.holdsIn x.1 (s.hostWin x.1 x.2)) then s.freeWin_ x.1 x.2 else s) s

/-- Back-invalidates every line of a window that its port holds. -/
def State.recallLines (s : State) (p : Nat) (h : HostWin) : State :=
  (s.dir.filter fun e => e.holders.contains p && h.hasLine e.line).foldl (fun s e => s.sendSnoop p e.line true) s

/-! ## What waited goes on -/

/-- Class of a waiting access: TC of its host window (Table 17-2). -/
def MemWait.cls (x : MemWait) : Nat := (x.win.map HostWin.tc).getD 7

/-- Tries every waiting access again, as the Floor controllers start them: the oldest of the highest class first (R420).
(log 71, DEDUCED) -/
def State.retryMem (s : State) : State :=
  (sortBy (fun (a b : MemWait) => decide (a.cls < b.cls)) s.memWaits).foldl (fun s x => match x.win with
    | some h =>
      let r := s.memTry x h
      if r.2 then { r.1 with memWaits := r.1.memWaits.filter fun y => y.id != x.id } else r.1
    | none => s) s

/-- Tries every waiting pin again (R272). -/
def State.retryPins (s : State) : State := s.pins.foldl (fun s x => s.pinStep x) s

/-! ## Snoop responses and port failure (R371 to R379) -/

/-- A line that comes back with data is written before anything else happens to it (R371). (log 75, DEDUCED) -/
def State.lineBack (s : State) (k : Nat) (data : Option Bytes) : State :=
  match data with
  | some bs => (s.writePage (k / 2 ^ 46) 7 (keyAddr k) (slice bs 0 64)).1
  | none => s

/-- Counts a line returned within a hand-over's removal. (log 75, DEDUCED) -/
def State.countBack (s : State) (p k : Nat) (data : Bool) : State :=
  { s with
    handovers := s.handovers.map fun x =>
      if x.moved && x.from_ == p && (s.hostWin p x.fromWin).hasLine k then
        { x with lines := x.lines + 1, withData := x.withData + b2n data }
      else x }

/-- A line is no longer poisoned. -/
def State.cleanLine (s : State) (k : Nat) : State :=
  { s with frmBad := s.frmBad.filter fun x => x != k, lowBad := s.lowBad.filter fun x => x != k }

/-- A response in the cycle in which its port failed is applied: the line is not poisoned by that failure (R379). -/
def State.lateResponse (s : State) (snoop : Nat) (data : Option Bytes) : State :=
  match ((List.range 8).map fun p => (s.port p).late.map fun x => (p, x)).flatten.find? fun x => x.2.1.id == snoop with
  | some (p, x) =>
    if (s.port p).failCyc ≠ some s.cyc then s
    else
      let s := s.setPort p { s.port p with late := (s.port p).late.filter fun y => y.1.id != snoop }
      let s := if data.isSome then (s.lineBack x.1.line data).bump (hpReg p 0x60) else if x.2 then s else s.cleanLine x.1.line
      s.retryMem
  | none => s

/-- BISNP_RESPONSE (R371, R369, R379). -/
def execBisnpResponse (snoop : Nat) (data : Option Bytes) (s : State) : Host.Outcome State Fault Refusal :=
  work s (match s.snoops.find? fun x => x.id == snoop with
    | some x =>
      let s := { s with snoops := s.snoops.filter fun y => y.id != snoop }
      let s := s.lineBack x.line data
      let s := if data.isSome then s.bump (hpReg x.port 0x60) else s
      let s := if x.inv then (s.countBack x.port x.line data.isSome).dropHolder x.port x.line else s.dropOwner x.line
      s.endRemovals.retryMem
    | none => s.lateResponse snoop data)

/-- Poisons the lines a failed port owned, with a record to each wing and a media event (R378, R502, R503). -/
def State.poisonOwned (s : State) (p : Nat) : State :=
  let ks := (s.dir.filter fun e => e.owner == some p).map DirEnt.line
  let s := ks.foldl (fun s k => ((s.poisonFar (k / 2 ^ 46) (keyAddr k)).mediaEvent (k / 2 ^ 46) (keyAddr k))) s
  let s := (List.range 16).foldl (fun s w =>
    let n := (ks.filter fun k => k / 2 ^ 46 == w).length
    if n = 0 then s else s.wingRecord w 4 2 0 5 p (natLe n 4)) s
  s.bumpBy (hpReg p 0x80) ks.length

/-- Removes a port from every line of the directory. -/
def State.forgetPort (s : State) (p : Nat) : State := (s.dir.map DirEnt.line).foldl (fun s k => s.dropHolder p k) s

/-- A running removal of a port that fails ends with poison (R383). -/
def spoilt (p : Nat) (y : HandOver) : HandOver := if y.moved ∧ y.from_ = p then { y with poison := true } else y

/-- A waiting write of a failed port goes on, and a line that the port owned stays poisoned (R378, R379). (log 75, DEDUCED) -/
def MemWait.afterFail (p : Nat) (owned : List Nat) (x : MemWait) : MemWait :=
  let mine := match x.win with
    | some h => x.port == p && owned.contains (lineKey h.wing (h.tierAddr x.dpa))
    | none => false
  { x with write := x.write.map fun l => { l with poison := l.poison || mine } }

/-- A port fails (R377 to R379): its lines are dropped, those it owned poisoned; of its requests that wait, only writes go on. -/
def State.failPort (s : State) (p cause : Nat) : State :=
  let x := s.port p
  if x.st = .disabled ∨ x.st = .failed then s
  else
    let owned := (s.dir.filter fun e => e.owner == some p).map DirEnt.line
    let late := (s.snoops.filter fun y => y.port == p).map fun y => (y, s.linePoisoned (y.line / 2 ^ 46) (keyAddr y.line))
    let s := (s.poisonOwned p).forgetPort p
    let gone := (s.memWaits.filter fun y => y.port == p && y.write.isNone).map fun y => y.id
    let s := { s with
      snoops := s.snoops.filter fun y => y.port != p
      memWaits := (s.memWaits.filter fun (y : MemWait) => y.port != p || y.write.isSome).map (MemWait.afterFail p owned)
      accesses := s.accesses.filter fun a => !(gone.any fun i => a.mem == some i)
      handovers := s.handovers.map (spoilt p) }
    let queue := (x.queue.filter fun y => y.write.isSome).map (MemWait.afterFail p owned)
    let s := (s.setPort p { x with st := .failed, cause, queue, failCyc := some s.cyc, late }).event 0x09 p
    s.endRemovals.retryMem

/-- BI_SNOOP_TIMEOUT (R373). (log 118, DEDUCED) -/
def execBiSnoopTimeout (snoop : Nat) (s : State) : Host.Outcome State Fault Refusal :=
  work s (match s.snoops.find? fun x => x.id == snoop with
    | some x =>
      if roundUp (x.sent + 1500000 * bits (s.reg (hpReg x.port 0x20)) 9 0) 1500 < s.cyc then s.failPort x.port 1 else s
    | none => s)

/-! ## Fills, write-backs, cleaning, late accesses (11) -/

/-- Units of a page. -/
def pageUnits (w p : Nat) : List Nat := unitsOf w (p * pageSize) pageSize

/-- PAGE_FILL_DONE (R279): every part of the page has come; what waited for it goes on. -/
def execPageFillDone (wing page : Nat) (s : State) : Host.Outcome State Fault Refusal :=
  work s (
    let e := s.page wing page
    if !e.filling || s.annexBusy wing page || s.flashBusy (pageUnits wing page) then s
    else ((s.setPage wing page { e with busy := false, filling := false, wrote := [] }).bump 0x3080).retryMem.retryPins.retryRings)

/-- WRITE_BACK_DONE (R283): the frame may be reused. -/
def execWriteBackDone (wing page : Nat) (s : State) : Host.Outcome State Fault Refusal :=
  work s (
    let e := s.page wing page
    if !e.busy || e.filling || s.annexBusy wing page || s.flashBusy (pageUnits wing page) then s
    else ((s.setPage wing page { e with busy := false }).bump 0x30A0).retryPins)

/-- BACKGROUND_CLEAN (R283): a dirty page whose age has reached CLEAN_BEATS is written back. -/
def execBackgroundClean (wing page : Nat) (s : State) : Host.Outcome State Fault Refusal :=
  work s (
    let e := s.page wing page
    let age := bits (s.reg 0x3000) 31 16
    if age ≠ 0 ∧ e.cached = true ∧ e.dirty = true ∧ e.busy = false ∧ age ≤ s.beat.beats - e.age then
      s.startWriteBack (pageKey wing page) 7
    else s)

/-- TIER_ACCESS_LATE (R287, R288). (log 117, DESIGN CHOICE) -/
def execTierAccessLate (access : Nat) (s : State) : Host.Outcome State Fault Refusal :=
  work s (match s.accesses.find? fun a => a.id == access with
    | some a => if a.stalled = false ∧ s.stillOut a = true ∧ s.cyc - a.issued > lateAfter a.cause then s.stallAccess a a.cause else s
    | none => s)

end Sys2Proof.Machine
end

