-- ==== Sys2Proof/Machine/Cellar.lean ====
section
/-!
DEFINITION. Meanings of the Cellar commands (14): discard, sync and commits, health record, shut-down, flash operations, garbage
collection, relocation, map segments and journal, and what the power-fail flush writes.
-/
namespace Sys2Proof.Machine
open Sys2Proof

/-! ## CEL_DISCARD (R347, R357) -/

/-- The Cellar range of a wing that holds all of [a, a + n) and is not being freed. -/
def State.cellarRange (s : State) (w a n : Nat) : Option Range :=
  match s.rangeAt w (a / pageSize) with
  | some r => if r.tier = 2 ∧ r.freeFrom = none ∧ a + n ≤ (r.base + r.pages) * pageSize then some r else none
  | none => none

/-- Zeros bytes of a table, and takes the poison of their lines. -/
def State.zeroBytes (s : State) (w a n : Nat) : State :=
  { s with
    frm := clearBytes s.frm (memKey w a) n
    low := clearBytes s.low (memKey w a) n
    frmBad := s.frmBad.filter fun k => !(lineIn w a n k)
    lowBad := s.lowBad.filter fun k => !(lineIn w a n k) }

/-- Units of cached pages among some units: their next write-back leaves them out (R347). -/
def State.cachedUnits (s : State) (w a n : Nat) : List Nat := (unitsOf w a n).filter fun u => (s.page w (unitAddr u / pageSize)).cached

/-- The discard of some units, in one cycle (R347). (log 69, DEDUCED) -/
def State.discardUnits (s : State) (w a n : Nat) : State :=
  let cached := s.cachedUnits w a n
  let s := (s.zeroBytes w a n).cel fun c =>
    let c := c.discard (unitKey w a) (unitKey w a + n / 16384)
    { c with excluded := cached.foldl insertNew c.excluded }
  s.bumpBy 0x4058 (n / 16384)

/-- CEL_DISCARD (R357). While a host holds a line of the units, it is taken back first (R371); without room in the journal it
waits (R344). (log 85, DEDUCED) -/
def State.celDiscard (s : State) (f : Flight) : State :=
  let a := f.u 24 8
  let n := f.u 20 4 * 16384
  if !(f.zero [(12, 4), (16, 4), (32, 96)]) || decide (f.u 20 4 = 0) || decide (a % 16384 ≠ 0) || (s.cellarRange f.wing a n).isNone then
    s.fixSt f.fid .invalid
  else
    match s.cellarStop with
    | some st => s.fixSt f.fid st
    | none =>
      if s.heldIn f.wing a n then s.askHolders f.wing a n
      else if !(s.cellar.room 1) then s
      else ((s.discardUnits f.wing a n).admitNow f.fid).fixOk f.fid 0 (f.u 20 4)

def execCelDiscard (fid : Nat) (s : State) : Host.Outcome State Fault Refusal :=
  work s (match s.ready? fid 0x800 with
    | some f => s.celDiscard f
    | none => s)

/-! ## CEL_SYNC and commits (R355, R358) -/

/-- Pages of a run. -/
def pageRun (base n : Nat) : List Nat := (List.range n).map fun i => base + i

/-- CEL_SYNC (R358): the pages dirty now start their write-back in the descriptor's class. While one of them is being filled, the sync waits
for it. (log 86, DEDUCED) -/
def State.celSync (s : State) (f : Flight) : State :=
  let a := f.u 24 8
  let n := f.u 20 4
  if !(f.zero [(12, 4), (16, 4), (32, 96)]) || decide (n = 0) || decide (a % pageSize ≠ 0) || (s.cellarRange f.wing a (n * pageSize)).isNone then
    s.fixSt f.fid .invalid
  else
    match s.cellarStop with
    | some st => s.fixSt f.fid st
    | none =>
      let dirty := (pageRun (a / pageSize) n).filter fun p => (s.page f.wing p).dirty
      if dirty.any fun p => (s.page f.wing p).filling then s
      else
        let s := dirty.foldl (fun s p => s.startWriteBack (pageKey f.wing p) f.cls) s
        let s := s.cel fun c => { c with syncs := c.syncs ++ [(f.fid, dirty)] }
        s.admitNow f.fid

def execCelSync (fid : Nat) (s : State) : Host.Outcome State Fault Refusal :=
  work s (match s.ready? fid 0x801 with
    | some f => s.celSync f
    | none => s)

/-- A commit record goes into the journal buffer (R355). -/
def State.commitRecord (s : State) : State := s.cel fun c => { c with journal := c.journal ++ [.commit] }

/-- The version whose content an open or a publish commits: versions rise in acceptance order. -/
def Flight.commits (f : Flight) : Nat := if hOpcode f.raw = 0x282 then 1 else f.u 20 4 + 1

/-- Whether an open or publish of a collection accepted earlier still waits for its commit (R158). -/
def State.earlierCommit (s : State) (f : Flight) : Bool :=
  s.flights.any fun g => decide (g.commits < f.commits) && g.obj == f.obj && g.phase == .active && g.admitCyc.isSome
    && (hOpcode g.raw == 0x210 || hOpcode g.raw == 0x282)

/-- Writes the durable mirror of a collection as of a version (R157, R158). -/
def State.commitColl (s : State) (key ver : Nat) : State :=
  match tfind s.colls key with
  | some c => { s with mirrors := tput s.mirrors key (c.mirrorAt ver) }
  | none => s

/-- The commit of an open or a publish: once its Cellar-placed records are in flash, its mirror and its completion (R158). A Cellar that takes no
writes ends it where some are not (R351, R352). -/
def State.commitVersion (s : State) (f : Flight) (ver result : Nat) : State :=
  if s.earlierCommit f then s
  else
    match tfind s.colls f.obj with
    | none => s.commitRecord.fixOk f.fid 0 result
    | some c =>
      let t := s.winClean f.wing f.cls c
      if t.2 then (t.1.commitRecord.commitColl f.obj ver).fixOk f.fid 0 result
      else
        match s.cellarStop with
        | some st => t.1.fixSt f.fid st
        | none => t.1

/-- The commit of a sync whose pages have been written. (log 86, DEDUCED) -/
def State.commitSync (s : State) (f : Flight) : State :=
  match s.cellar.syncs.find? fun x => x.1 == f.fid with
  | some x => if x.2.any fun p => s.flashOwes (pageUnits f.wing p) then s else s.commitRecord.fixOk f.fid 0 x.2.length
  | none => s

/-- CEL_COMMIT_DONE (R158, R355). -/
def execCelCommitDone (fid : Nat) (s : State) : Host.Outcome State Fault Refusal :=
  work s (match s.flight? fid with
    | some f =>
      if f.phase ≠ .active ∨ f.admitCyc = none ∨ s.cellar.room 1 = false then s
      else if hOpcode f.raw = 0x801 then s.commitSync f
      else if hOpcode f.raw = 0x210 then s.commitVersion f (f.u 20 4 + 1) (f.u 20 4 + 1)
      else if hOpcode f.raw = 0x282 then s.commitVersion f 1 0
      else s
    | none => s)

/-! ## CEL_HEALTH (R359) -/

def Cellar.sumPe (c : Cellar) : Nat := (c.service.map fun b => (c.block b).pe).foldl (· + ·) 0

/-- Mean programme/erase cycles of the blocks in service. -/
def Cellar.wearAvg (c : Cellar) : Nat := c.sumPe / c.service.length

def Cellar.wearMax (c : Cellar) : Nat := (c.service.map fun b => (c.block b).pe).foldl max 0

/-- A field of the health record of w bytes. -/
def Cellar.healthField (c : Cellar) (off w : Nat) : Bytes := natLe (tget 0 c.health off) w

/-- The temperature of hour h before the last completed one. -/
def Cellar.tempAt (c : Cellar) (h : Nat) : Nat := (c.temps[h]?).getD 0x8000

/-- The health record (Table 14-4). -/
def Cellar.record (c : Cellar) : Bytes :=
  natLe (sat c.spare 32) 4 ++ natLe (sat Config.spareBlocks 32) 4 ++ natLe (sat c.wearAvg 16) 2 ++ natLe (sat c.wearMax 16) 2
    ++ natLe (sat (c.wearAvg * 100 / 3000) 16) 2 ++ natLe 0 2
    ++ c.healthField 16 8 ++ c.healthField 24 8 ++ c.healthField 32 8 ++ c.healthField 40 8 ++ c.healthField 48 8
    ++ c.healthField 56 4 ++ c.healthField 60 4 ++ c.healthField 64 4 ++ c.healthField 68 4 ++ natLe 0 56
    ++ ((List.range 16).map fun i => c.healthField (128 + 8 * i) 8).flatten
    ++ ((List.range 2048).map fun h => natLe (c.tempAt h) 2).flatten

/-- CEL_HEALTH (R359). -/
def State.celHealth (s : State) (f : Flight) : State :=
  if !(f.zero [(12, 4), (16, 24), (48, 80)]) || !(aligned64 (f.u 40 8)) then s.fixSt f.fid .invalid
  else ((s.admitNow f.fid).result f 0 s.cellar.record).fixOk f.fid 4352 0

def execCelHealth (fid : Nat) (s : State) : Host.Outcome State Fault Refusal :=
  work s (match s.ready? fid 0x810 with
    | some f => s.celHealth f
    | none => s)

/-- A temperature in tenths of a degree as 16 bits. -/
def temp16 (t : Int) : Nat := (BitVec.ofInt 16 t).toNat

/-- TEMP_HISTORY_HOUR (R359): at the end of each powered hour since the mount. -/
def execTempHistoryHour (temp : Int) (s : State) : Host.Outcome State Fault Refusal :=
  work s (if s.cellar.st = .mounting ∨ s.cyc < roundUp (s.cellar.tempCyc + 3600 * 1500000000) 1500 then s
    else s.cel fun c => { c with temps := (temp16 temp :: c.temps).take 2048, tempCyc := s.cyc }.healthAdd 60 4 1)

/-! ## Shut-down (R352) -/

/-- Dirty pages that are durable, oldest AGE first (R284, R353). -/
def State.durableKeys (s : State) : List Nat :=
  let l := s.pages.filter fun e => e.2.dirty && s.durablePage (e.1 / 2 ^ 34) (e.1 % 2 ^ 34)
  (sortBy olderEnt l).map Prod.fst

/-- Starts the write-back of every durable page that is dirty. -/
def State.cleanDurable (s : State) (cls : Nat) : State :=
  s.durableKeys.foldl (fun s k => if (s.page (k / 2 ^ 34) (k % 2 ^ 34)).filling then s else s.startWriteBack k cls) s

/-- CEL_SHUTDOWN (R352): accepted while the Cellar is mounted. -/
def execCelShutdown (src : Nat) (s : State) : Host.Outcome State Fault Refusal :=
  guarded s (s.setupRefused src) fun s =>
    if s.cellar.st = .mounted ∨ s.cellar.st = .readOnly then (s.cleanDurable 7).cel fun c => { c with closing := true } else s

/-- Whether a program of new contents is under way. -/
def Cellar.writing (c : Cellar) : Bool := c.ops.any fun o => o.renews o.unit

/-- CEL_SHUTDOWN_COMPLETE (R352): with nothing left to write, the journal, the segments and the closing record are written.
(log 86, DEDUCED) -/
def execCelShutdownComplete (s : State) : Host.Outcome State Fault Refusal :=
  work s (
    if !s.cellar.closing then s
    else if s.durableKeys ≠ [] then s.cleanDurable 7
    else if s.cellar.writing then s
    else s.cel fun c => { c.settle s.cyc with closing := false, closed := true, cause := 0, st := .shutDown })

/-! ## Flash operations (R341, R342, R349, R350) -/

def FlashOp.onDie (o : FlashOp) (die : Nat) : Bool :=
  match o.block with
  | some b => Config.blockDie b == die
  | none => false

/-- Whether an operation may start: an erase only when nothing else wants its block (R349). -/
def Cellar.mayStart (c : Cellar) (o : FlashOp) : Bool :=
  !o.running && match o.block with
    | some b => !o.use.isErase || ((c.block b).valid.isEmpty && !(c.ops.any fun x => x.id != o.id && x.block == some b))
    | none => false

/-- The operation a flash die serves next: by class, then in arrival order, a TC0 read before others of its class (R341, R342). -/
def Cellar.nextOp (c : Cellar) (die : Nat) : Option FlashOp :=
  let l := c.ops.filter fun o => o.onDie die && c.mayStart o
  (List.range 8).findSome? fun k => match l.find? fun o => o.cls == k && k == 0 && o.use.isRead with
    | some o => some o
    | none => l.find? fun o => o.cls == k

/-- The operation a flash die has under way. -/
def Cellar.onNow (c : Cellar) (die : Nat) : Option FlashOp := c.ops.find? fun o => o.onDie die && o.running && !o.suspended

/-- Changes one operation. -/
def Cellar.modOp (c : Cellar) (id : Nat) (g : FlashOp → FlashOp) : Cellar := { c with ops := c.ops.map fun o => if o.id = id then g o else o }

def FlashOp.start (o : FlashOp) : FlashOp := { o with running := true }
def FlashOp.suspend (o : FlashOp) : FlashOp := { o with suspended := true }
def FlashOp.resume (o : FlashOp) : FlashOp := { o with suspended := false }

/-- An operation is over. -/
def Cellar.endOp (c : Cellar) (o : FlashOp) : Cellar := { c with ops := c.ops.filter fun x => x.id != o.id }

/-- A read is over: what it suspended on its die goes on (R342). -/
def Cellar.resumeDie (c : Cellar) (die : Nat) : Cellar := { c with ops := c.ops.map fun o => if o.onDie die then o.resume else o }

def FlashOp.chan (o : FlashOp) : Nat := blockChan (o.block.getD 0)

/-- Lines of a unit that no whole-line write has covered since, as addresses. -/
def openLines (u off : Nat) (wrote : List (Nat × Nat)) : List Nat :=
  let done := (wrote.map fun x => wholeLines (off + x.1) x.2).flatten
  ((List.range 256).map fun i => unitAddr u + 64 * i).filter fun a => !(done.contains a)

/-- Poisons lines where they are held, with a media event for each within a host window (R503). -/
def State.poisonLines (s : State) (w : Nat) (l : List Nat) : State :=
  l.foldl (fun s a => if isInternal (a / pageSize) then s.poisonInternal w a else (s.poisonLine w a).mediaEvent w a) s

/-- An answer of flash for an access: how many are still to come, and whether this one failed. -/
def answered (id : Nat) (failed : Bool) (a : Access) : Access :=
  if a.id = id then { a with left := a.left - 1, failed := a.failed || failed } else a

/-- What a flash read that failed leaves to what needed it (R350). (log 84, DEDUCED) -/
def State.readFailed (s : State) (o : FlashOp) : State :=
  let w := o.unit / 2 ^ 38
  match o.use with
  | .fill =>
    let p := unitAddr o.unit / pageSize
    if s.unitAt o.unit = some o.pu then s.poisonLines w (openLines o.unit (p * pageSize) (s.page w p).wrote) else s
  | .access id =>
    let t := match (s.accesses.find? fun a => a.id == id).bind Access.fid with
      | some fid => s.noteAt fid { kind := 2, unit := o.chan, addr := if isInternal (unitAddr o.unit / pageSize) then 0 else unitAddr o.unit }
      | none => s
    { t with accesses := t.accesses.map (answered id true) }
  | .mergeSrc wrote =>
    if o.stale then s
    else
      let l := openLines o.unit 0 wrote
      let t := if isInternal (unitAddr o.unit / pageSize) then s.poisonLines w l
        else { s with lowBad := (l.map (lineKey w)).foldl insertNew s.lowBad }
      t.flashWrite o.cls o.unit .write
  | _ => s

/-- What a flash read that came leaves. -/
def State.readCame (s : State) (o : FlashOp) : State :=
  match o.use with
  | .access id => { s with accesses := s.accesses.map (answered id false) }
  | .copySrc => if s.unitAt o.unit = some o.pu then s.flashWrite 7 o.unit (.copied o.pu) else s
  | .mergeSrc _ => if o.stale then s else s.flashWrite o.cls o.unit .write
  | _ => s

/-- A flash read of a unit ends without its data: counted, and its die goes on. -/
def State.failRead (s : State) (o : FlashOp) : State :=
  let s := (s.bump (chReg o.chan 0x68)).bump 0x4070
  let s := s.cel fun c => ((c.endOp o).resumeDie (Config.blockDie (o.block.getD 0))).healthAdd 16 8 1
  s.readFailed o

/-- Starts the next operation of a flash die, as R341 orders them; a TC0 read suspends a program or an erase (R342). Reads of a channel that
is offline end with MEDIA_ERROR (R506). -/
def State.issueFlash (s : State) (die : Nat) : State :=
  let c := s.cellar
  match c.nextOp die with
  | none => s
  | some o =>
    if c.chanDown.contains o.chan then s
    else if c.chanOff.contains o.chan then (if o.use.isRead then (s.failRead o).retryMem.retryRings else s)
    else
      match c.onNow die with
      | none => s.cel fun c => c.modOp o.id FlashOp.start
      | some r =>
        if o.cls = 0 ∧ o.use.isRead = true ∧ r.use.isRead = false then
          (s.cel fun c => (c.modOp r.id FlashOp.suspend).modOp o.id FlashOp.start).bump (chReg o.chan 0x58)
        else s

/-- FLASH_OP_ISSUE (R341, R342). -/
def execFlashOpIssue (die : Nat) (s : State) : Host.Outcome State Fault Refusal := work s (if s.err.fatal then s else s.issueFlash die)

/-- The histogram bin of a codeword's corrected bits (Table 14-4). -/
def corrBin (x : Nat) : Nat := min ((x + 7) / 8) 15

/-- Counts a read that came: reads of its block, corrected bits, window units (R349, R360, R361). -/
def State.countRead (s : State) (o : FlashOp) (corrected : List Nat) : State :=
  let limit := bits (s.reg 0x4008) 19 16
  let worn := corrected.any fun x => decide (limit ≤ corrBin x)
  let b := o.block.getD 0
  let s := (s.bumpBy (chReg o.chan 0x60) (corrected.foldl (· + ·) 0))
  let s := match o.use with
    | .fill => s.bump 0x4040
    | .access _ => s.bump 0x4040
    | _ => s
  s.cel fun c =>
    let x := c.block b
    corrected.foldl (fun c n => c.healthAdd (128 + 8 * corrBin n) 8 1) (c.setBlock b { x with worn := x.worn || worn })

/-- Whether an access waits on an operation: a read for itself, or for the fill of its page. -/
def Access.waitsOn (a : Access) (o : FlashOp) : Bool :=
  match o.use with
  | .access id => a.id == id
  | .fill => a.wing == o.unit / 2 ^ 38 && a.page == unitAddr o.unit / pageSize
  | _ => false

/-- Accesses whose read the Cellar die reports as retried stall under RETRY (Table 11-11), but not those that end in the same cycle (R288). -/
def State.retriedRead (s : State) (o : FlashOp) : State :=
  (s.accesses.filter fun a => a.waitsOn o && !a.stalled && s.winWaits a).foldl (fun s a => s.stallAccess a 4) s

/-- FLASH_READ_DONE (R349, R350): corrected bits by codeword of 2 KiB, or none where the read failed after its retries. -/
def execFlashReadDone (op : Nat) (corrected : Option (List Nat)) (retried : Bool) (s : State) : Host.Outcome State Fault Refusal :=
  work s (match s.cellar.ops.find? fun o => o.id == op && o.running && o.use.isRead with
    | some o =>
      let b := o.block.getD 0
      let s := (s.cel fun c => c.setBlock b { c.block b with reads := (c.block b).reads + 1 }).bump (chReg o.chan 0x40)
      let s := match corrected with
        | none => s.failRead o
        | some l => ((s.countRead o l).cel fun c => (c.endOp o).resumeDie (Config.blockDie b)).readCame o
      (if retried then s.retriedRead o else s).retryMem.retryRings
    | none => s)

/-- A program that lands: the map follows, unless a later write or a discard came first (R345). -/
def Cellar.land (c : Cellar) (o : FlashOp) : Cellar :=
  let c := c.endOp o
  match o.use with
  | .write => if o.stale then c else c.mapTo o.unit o.pu
  | .copied src => if tfind c.map o.unit = some src then c.mapTo o.unit o.pu else c
  | .segment k => c.checkpoint k
  | _ => c

/-- Units programmed are counted, in the register and in the health record (R359, R360). -/
def State.countUnits (s : State) (n : Nat) : State := (s.cel fun c => c.healthAdd 48 8 n).bumpBy 0x4050 n

/-- A program ends well. -/
def State.programmed (s : State) (o : FlashOp) : State :=
  let s := ((s.cel fun c => c.land o).countUnits 1).bump (chReg o.chan 0x48)
  if o.use = .write then (s.cel fun c => c.healthAdd 40 8 1).bump 0x4048 else s

/-- An erase ends well: the block is free (R348). -/
def State.erased (s : State) (o : FlashOp) (b : Nat) : State :=
  let pe := (s.cellar.block b).pe + 1
  let s := (s.cel fun c => ((c.endOp o).setBlock b { pe }).placeWaiting).bump (chReg o.chan 0x50)
  if o.use = .erase true then s.bump 0x4060 else s

/-- Whether spare blocks are below 0.5 % of the blocks in service (R351). -/
def Cellar.spareLow (c : Cellar) : Bool := decide (c.spare * 200 < c.service.length)

/-- Takes a spare block in place of a retired one; the last one used makes the Cellar read-only (R351). -/
def State.useSpare (s : State) : State :=
  let low := s.cellar.spareLow
  let left := s.cellar.spare
  let s := s.cel fun c => { c with spareUsed := c.spareUsed + min 1 left }
  let s := if s.cellar.spareLow && !low then s.event 0x07 0 else s
  if s.cellar.spare = 0 ∧ s.cellar.st = .mounted then (s.cel fun c => { c with st := .readOnly }).event 0x08 0 else s

/-- An operation that loses its place in a block. -/
def FlashOp.displaced (o : FlashOp) : FlashOp := { o with block := none, pu := 0, running := false, suspended := false }

/-- Queues copies of the valid units of a block in TC7 (R348 to R350). (log 84, DEDUCED) -/
def State.copyOut (s : State) (b : Nat) : State := (s.cellar.block b).valid.foldl (fun s u => s.flashRead 7 u .copySrc) s

/-- A program or erase fails: the block is retired, and its data is programmed again elsewhere (R350). -/
def State.retireBlock (s : State) (o : FlashOp) (b : Nat) : State :=
  let move := fun (x : FlashOp) => if x.block = some b ∧ x.use.isRead = false then x.displaced else x
  let s := s.cel fun c =>
    let c := if o.use.isErase then c.endOp o else c
    let c := c.setBlock b { c.block b with retired := true }
    ({ c with ops := c.ops.map move }.healthAdd 24 8 1)
  let s := (s.bump 0x4078).useSpare
  (s.cel Cellar.placeWaiting).copyOut b

/-- FLASH_PROGRAM_DONE (R343 to R345, R348, R350): a program that would change the map waits while it may not; a map checkpoint releases the
journal entries that it covers. (log 87, DEDUCED) -/
def execFlashProgramDone (op : Nat) (failed : Bool) (s : State) : Host.Outcome State Fault Refusal :=
  work s (match s.cellar.ops.find? fun o => o.id == op && o.running && !o.suspended && !o.use.isRead with
    | some o =>
      let b := o.block.getD 0
      if failed then s.retireBlock o b
      else if o.use.isErase then s.erased o b
      else if o.use.isSegment then (s.cel fun c => c.land o).bump (chReg o.chan 0x48)
      else if s.cellar.canMap o.unit then s.programmed o
      else s
    | none => s)

/-! ## Garbage collection and relocation (R348, R349) -/

/-- Whether a block can be emptied: in use, with no unit left to be programmed on its die, no erase under way for it, its channel in service. -/
def Cellar.canEmpty (c : Cellar) (b : Nat) : Bool :=
  let x := c.block b
  x.inUse && !x.retired && c.openBlock (blockChan b / 16) != some b && !(c.ops.any fun o => o.block == some b && o.use.isErase)
    && !(c.chanOff.contains (blockChan b)) && !(c.chanDown.contains (blockChan b))

/-- Of two blocks, the one with fewer valid units, the lower number on a tie. -/
def Cellar.emptier (c : Cellar) (a b : Nat) : Nat := if (c.block b).valid.length < (c.block a).valid.length then b else a

/-- A block of the flush reserve, filled by a flush, that garbage collection folds into the user area (R353). -/
def Cellar.foldBlock (c : Cellar) (die : Nat) : Option Nat :=
  (c.blocks.map Prod.fst).find? fun b => inReserve b && c.canEmpty b && blockChan b / 16 == die

/-- The block garbage collection takes on a Cellar die (R348): one of the flush reserve first (log 139, DEDUCED). -/
def Cellar.gcBlock (c : Cellar) (die : Nat) : Option Nat :=
  match c.foldBlock die with
  | some b => some b
  | none =>
    match c.service.filter fun b => c.canEmpty b && blockChan b / 16 == die with
    | [] => none
    | b :: t => some (t.foldl c.emptier b)

/-- Empties a block: its valid units are copied and it is erased, in TC7. (log 84, DEDUCED) -/
def State.emptyBlock (s : State) (b : Nat) (gc : Bool) : State := (s.copyOut b).flashPut 7 0 (some b) 0 (.erase gc)

/-- The block that garbage collection takes now: during the mount only one of the flush reserve, which the mount restores (R352). -/
def State.gcNow (s : State) (die : Nat) : Option Nat :=
  if s.cellar.st = .mounted then s.cellar.gcBlock die
  else if s.cellar.st = .mounting ∧ s.power.rails = .good ∧ s.boot.phase = phaseMount then s.cellar.foldBlock die
  else none

/-- GARBAGE_COLLECT (R348, R352, R353) of a Cellar die. (log 84, DEDUCED) (log 139, DEDUCED) -/
def execGarbageCollect (die : Nat) (s : State) : Host.Outcome State Fault Refusal :=
  work s (match s.gcNow die with
    | some b => s.emptyBlock b true
    | none => s)

/-- READ_RELOCATE (R349). (log 84, DEDUCED) -/
def execReadRelocate (block : Nat) (s : State) : Host.Outcome State Fault Refusal :=
  work s (
    let x := s.cellar.block block
    if s.cellar.st = .mounted ∧ s.cellar.canEmpty block = true
        ∧ (bits (s.reg 0x4008) 9 0 * 1000 ≤ x.reads ∨ x.worn = true) then
      ((s.emptyBlock block false).cel fun c => c.healthAdd 32 8 1).bump 0x4068
    else s)

/-! ## Map segments and journal (R343, R344) -/

/-- The dirty segment whose change is oldest, of those that are not being written. -/
def Cellar.nextSegment (c : Cellar) : Option Nat := c.dirtySegs.find? fun k => !(c.ops.any fun o => o.use == .segment k)

/-- MAP_SEGMENT_WRITE: the checkpoint of the segment whose change is oldest goes into the queue of the flash die that holds the system area's
block, in TC7 (R341, R343). (log 87, DEDUCED) -/
def execMapSegmentWrite (s : State) : Host.Outcome State Fault Refusal :=
  work s (match s.cellar.nextSegment with
    | some k => s.flashPut 7 0 (some s.cellar.systemBlock) 0 (.segment k)
    | none => s)

/-- The journal buffer is written. -/
def State.writeJournal (s : State) : State := s.cel fun c => c.writeJournal s.cyc

/-- Bytes in the journal buffer. -/
def Cellar.journalBytes (c : Cellar) : Nat := c.journal.length * Config.journalEntry

/-- JOURNAL_WRITE: 2 MiB have filled. (log 87, DEDUCED) -/
def execJournalWrite (s : State) : Host.Outcome State Fault Refusal :=
  work s (if 2097152 ≤ s.cellar.journalBytes then s.writeJournal else s)

/-- JOURNAL_FLUSH_TIMER: 10 ms have passed since the last write. (log 87, DEDUCED) -/
def execJournalFlushTimer (s : State) : Host.Outcome State Fault Refusal :=
  work s (if roundUp (s.cellar.journalCyc + 15000000) 1500 ≤ s.cyc then s.writeJournal else s)

/-- Seconds of the background schedule, 1 s to 72 hours (Table 02-3); the period is the implementation's (log 120, DESIGN CHOICE). -/
def backgroundSeconds : Nat := max 1 (min 259200 Config.backgroundSeconds)

/-- The cycle in which the background schedule next expires (R46): its period after its last run or after the Housekeeper's start,
whichever is later. (log 120, DESIGN CHOICE) -/
def State.backgroundAt (s : State) : Nat :=
  roundUp (max s.boot.hkFrom (s.cellar.bgFrom.getD 0) + 1500000000 * backgroundSeconds) 1500

/-- CELLAR_BACKGROUND_SCHEDULE (R46, R49): while the Housekeeper runs, the schedule's work starts once in each period.
(log 87, DEDUCED) (log 120, DESIGN CHOICE) -/
def execCellarBackgroundSchedule (s : State) : Host.Outcome State Fault Refusal :=
  work s (
    if s.cellar.st = .mounted ∧ s.boot.hkImage.isSome = true ∧ s.backgroundAt ≤ s.cyc then
      s.cel fun c => { c with bgFrom := some s.cyc, bgRuns := c.bgRuns + 1 }
    else s)

/-! ## What the power-fail flush writes (R353) -/

/-- Bytes of steps 2 and 3 of a flush: the journal buffer, at most 16 MiB, and the dirty segments. -/
def Cellar.logBytes (c : Cellar) : Nat := min c.journalBytes 16777216 + 262144 * c.dirtySegs.length

/-- Units whose new contents were on their way to flash: their source is still in its frame (R350). -/
def Cellar.unfinished (c : Cellar) : List Nat := (c.ops.filter fun o => o.renews o.unit).map fun o => o.unit

/-- Units that a flush writes of a durable page: all but the excluded ones (R347, R353). -/
def Cellar.flushOf (c : Cellar) (key : Nat) : List Nat :=
  (pageUnits (key / 2 ^ 34) (key % 2 ^ 34)).filter fun u => !(c.excluded.contains u)

/-- A unit is written to the flush reserve and mapped there (R353); without room in it, in the user area (log 139, DEDUCED). -/
def Cellar.flushUnit (c : Cellar) (u : Nat) : Cellar :=
  match c.placeReserve with
  | some (d, pu) => (d.supersede u).mapTo u pu
  | none => match c.place (unitDie u) with
    | some (d, _, pu) => (d.supersede u).mapTo u pu
    | none => c.supersede u

/-- Writes some units to the flush reserve. -/
def State.flushUnits (s : State) (us : List Nat) : State := (s.cel fun c => us.foldl Cellar.flushUnit c).countUnits us.length

/-- A durable page lands in flash, all but its excluded units. (log 86, DEDUCED) -/
def State.flushPage (s : State) (key : Nat) : State :=
  let w := key / 2 ^ 34
  let p := key % 2 ^ 34
  let s := (s.copyDown w p).flushUnits (s.cellar.flushOf key)
  s.setPage w p { s.page w p with dirty := false }

/-- Data that a flush writes in steps 2 to 4. -/
def State.flushBytes (s : State) : Nat :=
  let s' := s.durableKeys.foldl (fun (acc : Cellar × Nat) k =>
    ((s.cellar.flushOf k).foldl Cellar.supersede acc.1, acc.2 + (s.cellar.flushOf k).length)) (s.cellar, 0)
  s.cellar.logBytes + 16384 * (s'.2 + s'.1.unfinished.length)

/-- Steps 2 to 5 of the flush: journal and segments, durable pages, all to the flush reserve, and the closing record with its cause (R353).
(log 86, DEDUCED) -/
def State.flushCellar (s : State) (cause : Nat) : State :=
  let s := s.cel fun c => c.takeReserve ((c.logBytes + 16383) / 16384)
  let s := s.durableKeys.foldl State.flushPage s
  let s := s.flushUnits s.cellar.unfinished
  s.cel fun c => { c.settle s.cyc with ops := [], closed := true, cause }

/-- What the health record says of a power-fail flush: its duration and the data written, in whole units of 1 us and 2^20 bytes (R359)
(log 139, DEDUCED). -/
def Cellar.flushed (c : Cellar) (us bytes : Nat) : Cellar :=
  { c with health := tset 0 (tset 0 c.health 64 (sat us 32)) 68 (sat (bytes / 2 ^ 20) 32) }

end Sys2Proof.Machine
end

