-- ==== Sys2Proof/Machine/Brick.lean ====
section
/-!
DEFINITION. The brick (09): instruction fields and legality, registers, store, latches, faults and the end of a program, dispatch to
the engine queues, and the two frames in which a controller instruction and an engine instruction run.
-/
namespace Sys2Proof.Machine
open Sys2Proof

/-! ## Instruction fields (Table 09-3) -/

def insnClass (w : Nat) : Nat := bits w 63 60
def insnOp (w : Nat) : Nat := bits w 59 54
def insnWE (w : Nat) : Bool := bit w 53
def insnWL (w : Nat) : Nat := bits w 52 47
def insnSE (w : Nat) : Bool := bit w 46
def insnSL (w : Nat) : Nat := bits w 45 40
def insnD (w : Nat) : Nat := bits w 39 35
def insnA (w : Nat) : Nat := bits w 34 30
def insnB (w : Nat) : Nat := bits w 29 25
def insnImm (w : Nat) : Nat := bits w 24 0

/-- sext(IMM) as a 64-bit word. -/
def insnSext (w : Nat) : Word64 := BitVec.ofInt 64 (sext (insnImm w) 25)

/-- What an operation uses (Table 09-5): the largest D, A and B it may name (31 a scalar register, 15 a vector, 7 an accumulator, 0 an
operand it does not use) and its immediate bits. -/
structure OpUse where
  d : Nat
  a : Nat
  b : Nat
  imm : Nat
deriving DecidableEq, Repr

/-- The operations of Table 09-5 by class and OP. -/
def opUse (cls op : Nat) : Option OpUse :=
  match cls, op with
  | 0, 9 => some ⟨31, 31, 0, 0x1FFFFFF⟩
  | 0, 10 => some ⟨31, 31, 0, 0x1FFFFFF⟩
  | 0, o => if o ≤ 13 then some ⟨31, 31, 31, 0⟩ else none
  | 1, 0 => some ⟨31, 31, 0, 0x1FFFFFF⟩
  | 1, 1 => some ⟨0, 31, 31, 0x1FFFFFF⟩
  | 1, 2 => some ⟨31, 31, 0, 0x1FFFFFF⟩
  | 1, 3 => some ⟨0, 31, 31, 0x1FFFFFF⟩
  | 2, 0 => some ⟨0, 31, 0, 0x1FFFFFF⟩
  | 2, 1 => some ⟨0, 31, 0, 0x1FFFFFF⟩
  | 2, 2 => some ⟨31, 0, 0, 0x1FFFFFF⟩
  | 2, 3 => some ⟨0, 31, 0, 0⟩
  | 2, 4 => some ⟨0, 0, 0, 0⟩
  | 2, 5 => some ⟨0, 0, 0, 0⟩
  | 2, 6 => some ⟨31, 0, 0, 0⟩
  | 2, 7 => some ⟨31, 0, 0, 0⟩
  | 2, 8 => some ⟨0, 0, 0, 0⟩
  | 2, 9 => some ⟨0, 0, 0, 0x1FF⟩
  | 3, 0 => some ⟨0, 0, 0, 0x3F⟩
  | 3, 1 => some ⟨0, 0, 0, 0x3F⟩
  | 3, 2 => some ⟨31, 0, 0, 0x3F⟩
  | 3, 3 => some ⟨31, 0, 0, 0x3F⟩
  | 3, 4 => some ⟨0, 0, 0, 0x3FFF⟩
  | 4, 0 => some ⟨7, 31, 31, 0x3FF⟩
  | 4, 1 => some ⟨7, 31, 31, 0xFFF⟩
  | 4, 2 => some ⟨7, 31, 31, 0x3FF⟩
  | 4, 3 => some ⟨7, 0, 0, 0⟩
  | 4, 4 => some ⟨7, 31, 0, 0⟩
  | 5, 0 => some ⟨0, 31, 0, 1⟩
  | 5, 1 => some ⟨7, 31, 31, 0x3FF⟩
  | 5, 2 => some ⟨31, 31, 31, 0⟩
  | 5, 3 => some ⟨31, 31, 31, 0x3FFFF⟩
  | 5, 4 => some ⟨31, 31, 0, 0x3FFDF⟩
  | 5, 5 => some ⟨31, 31, 31, 7⟩
  | 5, 6 => some ⟨15, 31, 0, 0⟩
  | 5, 7 => some ⟨15, 31, 0, 0⟩
  | 5, 8 => some ⟨15, 15, 15, 0x3F⟩
  | 5, 9 => some ⟨31, 15, 0, 0⟩
  | 6, 0 => some ⟨31, 31, 31, 0⟩
  | 6, 1 => some ⟨31, 31, 31, 0⟩
  | 6, 2 => some ⟨0, 31, 0, 0⟩
  | 6, 3 => some ⟨31, 31, 31, 0⟩
  | 7, 0 => some ⟨31, 31, 31, 0x1FFF⟩
  | 7, 1 => some ⟨31, 0, 0, 3⟩
  | 7, 2 => some ⟨31, 31, 0, 3⟩
  | 7, 3 => some ⟨0, 0, 0, 3⟩
  | 7, 4 => some ⟨0, 0, 0, 0x1FF⟩
  | _, _ => none

/-- VOP functions and types (Table 09-6): EXP, RCP and RSQRT are FP32 and use no B. -/
def vopOk (w : Nat) : Bool :=
  let fn := bits (insnImm w) 3 0
  let ty := bits (insnImm w) 5 4
  if fn ≤ 5 then decide (ty ≤ 2) else decide (fn ≤ 8) && decide (ty = 0) && decide (insnB w = 0)

/-- Bits that depend on other bits: CBSET of the default codebook uses no A, VOP by function, PBIND unbinding names no latch. -/
def formOk (w : Nat) : Bool :=
  let c := insnClass w
  let o := insnOp w
  if c = 5 ∧ o = 0 then decide (insnImm w = 0) || decide (insnA w = 0)
  else if c = 5 ∧ o = 8 then vopOk w
  else if c = 7 ∧ o = 4 then bit (insnImm w) 8 || decide (bits (insnImm w) 7 2 = 0)
  else true

/-- Whether an instruction word is one of Table 09-5 with no unused bit set (R222). -/
def insnLegal (w : Nat) : Bool :=
  match opUse (insnClass w) (insnOp w) with
  | some u => decide (insnD w ≤ u.d) && decide (insnA w ≤ u.a) && decide (insnB w ≤ u.b) && decide (insnImm w &&& u.imm = insnImm w) && formOk w
  | none => false

/-! ## Faults (Table 09-8) -/

def fWatchdog : Nat := 1
def fIllegal : Nat := 2
def fStoreRange : Nat := 3
def fWindow : Nat := 4
def fPostWing : Nat := 5
def fLatchOvf : Nat := 6
def fScaleHdr : Nat := 7
def fPrivEntry : Nat := 8
def fMedia : Nat := 9
def fPoison : Nat := 10
def fStopped : Nat := 11

/-! ## Registers, accumulators, latches -/

/-- A scalar register; s0 reads 0 (Table 09-2). -/
def Ctx.sget (c : Ctx) (i : Nat) : Word64 := if i = 0 then 0 else tget 0 c.s i

/-- Writes a scalar register; a write to s0 is discarded (Table 09-2). -/
def Ctx.sput (c : Ctx) (i : Nat) (v : Word64) : Ctx := if i = 0 then c else { c with s := tset 0 c.s i v }

/-- The 512 bytes of a vector register. -/
def Ctx.vget (c : Ctx) (i : Nat) : Bytes := getBytes c.v (512 * i) 512

def Ctx.vput (c : Ctx) (i : Nat) (bs : Bytes) : Ctx := { c with v := putBytes c.v (512 * i) (slice bs 0 512) }

/-- Element (i, j) of accumulator a at index 16 i + j (Table 09-2). -/
def Ctx.aget (c : Ctx) (a i j : Nat) : Word32 := tget 0 c.acc (256 * a + 16 * i + j)

def Ctx.aput (c : Ctx) (a i j : Nat) (v : Word32) : Ctx := { c with acc := tset 0 c.acc (256 * a + 16 * i + j) v }

/-- Sets or clears bit n of the numeric status (Table 09-17). -/
def Ctx.numBit (c : Ctx) (n : Nat) (on : Bool) : Ctx := { c with num := setBits c.num n n (b2n on) }

/-- An instruction sets bit n of the numeric status in a cycle. -/
def Ctx.numSat (c : Ctx) (cyc n : Nat) : Ctx := { c.numBit n true with numAt := tset 0 c.numAt n (cyc + 1) }

/-- Clears the bits of the numeric status that a mask names. -/
def Ctx.numClear (c : Ctx) (m : Nat) : Ctx := { c with num := c.num - (c.num &&& m) }

/-- The bits of the numeric status set in a cycle: a write of 1 in that cycle leaves them set (R8). -/
def Ctx.numSetIn (c : Ctx) (cyc : Nat) : Nat := sumNat ((List.range 9).map fun n => if tget 0 c.numAt n = cyc + 1 then 2 ^ n else 0)

def Ctx.latchAt (c : Ctx) (n : Nat) : Latch := tget {} c.latch n

/-- Gives a latch a value. -/
def Ctx.setLatch (c : Ctx) (n v : Nat) : Ctx := { c with latch := tset {} c.latch n { c.latchAt n with value := v } }

/-- Takes one from a latch (R224). -/
def Ctx.takeLatch (c : Ctx) (n : Nat) : Ctx := c.setLatch n ((c.latchAt n).value - 1)

/-- Signals a latch, which keeps 255 (R225). -/
def Ctx.signal (c : Ctx) (n eng addr : Nat) : Ctx :=
  { c with latch := tset {} c.latch n { value := min ((c.latchAt n).value + 1) 255, eng, addr } }

/-- Whether a signal would take a latch above 255 (R225). -/
def Ctx.full (c : Ctx) (n : Nat) : Bool := decide (255 ≤ (c.latchAt n).value)

def Ctx.fifoAt (c : Ctx) (n : Nat) : Fifo := tget {} c.fifo n

def Ctx.queueOf (c : Ctx) (e : Nat) : List QEnt := tget [] c.queue e

def Ctx.setQueue (c : Ctx) (e : Nat) (q : List QEnt) : Ctx := { c with queue := tset [] c.queue e q }

/-- Whether every engine queue is empty, and with them every engine idle. -/
def Ctx.quiet (c : Ctx) : Bool := [1, 2, 3, 4].all fun e => (c.queueOf e).isEmpty

/-! ## Brick store -/

/-- An instruction that has started: it no longer waits on its latch (R224). -/
def QEnt.begun (q : QEnt) : QEnt := { q with word := q.word &&& ~~~(1#64 <<< 53) }

/-- The instruction at the head of an engine's queue has started. -/
def Ctx.startHead (c : Ctx) (e : Nat) : Ctx :=
  match c.queueOf e with
  | q :: t => c.setQueue e (q.begun :: t)
  | [] => c

/-- Bytes of a brick store (R218). -/
def storeBytes : Nat := 4718592

/-- Whether [a, a + n) lies in the program's store range. -/
def BrickEnt.holds (e : BrickEnt) (a n : Nat) : Bool := decide (e.base ≤ a) && decide (a + n ≤ e.base + e.bytes)

/-- Whether a line of [a, a + n) is poisoned. -/
def Brick.badIn (b : Brick) (a n : Nat) : Bool := b.bad.any fun k => decide (64 * k < a + n) && decide (a < 64 * k + 64)

/-- A brick, its program and its entry in the program's image, while the program runs on it, in a cycle. -/
structure Run where
  b : Nat
  key : Nat
  prog : Prog
  ent : BrickEnt
  br : Brick
  cyc : Nat := 0
deriving DecidableEq, Repr

/-- Reads store bytes for an engine: STORE_RANGE outside the range (Table 09-8), POISON on an uncorrectable line (R498). -/
def Run.load (r : Run) (a n : Nat) : Except Nat Bytes :=
  if n = 0 then .ok []
  else if !(r.ent.holds a n) then .error fStoreRange
  else if r.br.badIn a n then .error fPoison
  else .ok (getBytes r.br.store a n)

/-- Writes store bytes; poison clears where a whole line is written (R499). -/
def Brick.write (br : Brick) (a : Nat) (bs : Bytes) : Brick :=
  let whole := (wholeLines a bs.length).map fun x => x / 64
  { br with store := putBytes br.store a bs, bad := br.bad.filter fun k => !(whole.contains k) }

/-- Writes store bytes for an engine: STORE_RANGE outside the range. -/
def Run.save (r : Run) (a : Nat) (bs : Bytes) : Except Nat Run :=
  if bs = [] then .ok r
  else if !(r.ent.holds a bs.length) then .error fStoreRange
  else .ok { r with br := r.br.write a bs }

/-- Bytes of a scale history block (R212). -/
def histBytes (rows : Nat) : Nat := 64 * (1 + rows) + 64 * cdiv rows 16

/-- The scale history blocks of QUANT instructions that stand in the LUT engine's queue with no latch between them and the other engines
(R214). (log 140, DEDUCED) -/
def Brick.loose (br : Brick) : List (Nat × Nat) :=
  (((br.ctx.queueOf 2).takeWhile fun q => !(insnWE q.word.toNat)).filter fun q =>
    insnClass q.word.toNat == 5 && insnOp q.word.toNat == 3).map fun q =>
      (q.b.toNat, histBytes (min 64 (leNat (getBytes br.store (q.b.toNat + 4) 2))))

/-- Writes store bytes for another engine than the LUT engine: history blocks that it meets without order have no specified contents then
(R214). (log 140, DEDUCED) -/
def Brick.writeLoose (br : Brick) (a : Nat) (bs : Bytes) : Brick :=
  { br.write a bs with torn := br.torn ++ br.loose.filter fun x => decide (x.1 < a + bs.length) && decide (a < x.1 + x.2) }

/-- Writes store bytes for another engine than the LUT engine: STORE_RANGE outside the range. -/
def Run.put (r : Run) (a : Nat) (bs : Bytes) : Except Nat Run :=
  if bs = [] then .ok r
  else if !(r.ent.holds a bs.length) then .error fStoreRange
  else .ok { r with br := r.br.writeLoose a bs }

/-- Changes the registers of the brick. -/
def Run.mod (r : Run) (g : Ctx → Ctx) : Run := { r with br := { r.br with ctx := g r.br.ctx } }

def State.brick (s : State) (b : Nat) : Brick := tget {} s.bricks b
def State.setBrick (s : State) (b : Nat) (x : Brick) : State := { s with bricks := tset {} s.bricks b x }
def State.modProg (s : State) (key : Nat) (g : Prog → Prog) : State := { s with progs := tupd s.progs key g }

/-- Fills the history blocks that were written without order with free bytes (R214). (log 140, DEDUCED) -/
def State.tear (s : State) (b : Nat) : State :=
  (s.brick b).torn.foldl (fun s x =>
    { s.setBrick b { s.brick b with store := putBytes (s.brick b).store x.1 (s.freeBytes x.2) } with fresh := s.fresh + x.2 })
    (s.setBrick b { s.brick b with torn := [] })

/-- The program that runs on a brick: RUNNING, resident, not switching, the brick neither halted nor faulted, the module not
stopped (R496). -/
def State.run? (s : State) (b : Nat) : Option Run :=
  let br := s.brick b
  match br.prog with
  | none => none
  | some key =>
    match tfind s.progs key with
    | none => none
    | some p =>
      match p.bricks.find? fun e => e.brick == b with
      | none => none
      | some ent =>
        if p.st = .running ∧ p.resident ∧ br.st = .running ∧ s.err.fatal = false then some { b, key, prog := p, ent, br, cyc := s.cyc } else none

/-- The instruction word at the controller's pc. -/
def Run.word (r : Run) : Nat := leNat (getBytes r.br.store r.br.ctx.pc 8)

/-- The wing of a program. -/
def Run.wing (r : Run) : Nat := r.key / 65536

/-! ## Waiting on latches (R224, R225) -/

/-- The latches that an engine waits on: the controller by the instruction at pc, another engine by the head of its queue. -/
def Run.waits (r : Run) (e : Nat) : List Nat :=
  if e = 0 then
    if r.ent.holds r.br.ctx.pc 8 ∧ insnLegal r.word ∧ insnClass r.word < 4 then
      if insnWE r.word && !r.br.ctx.begun then [insnWL r.word]
      else if insnClass r.word = 3 ∧ insnOp r.word = 1 then [bits (insnImm r.word) 5 0]
      else []
    else []
  else
    match r.br.ctx.queueOf e with
    | q :: _ => if insnWE q.word.toNat && !(decide (e = 4) && r.br.ctx.sending) then [insnWL q.word.toNat] else []
    | [] => []

/-- Units of a latch that go to lower engine codes first (R225). -/
def Run.ahead (r : Run) (e l : Nat) : Nat := (((List.range e).map fun x => (r.waits x).filter fun y => y == l).flatten).length

/-- Whether engine e gets a unit of latch l now. -/
def Run.canTake (r : Run) (e l : Nat) : Bool := decide (r.ahead e l < (r.br.ctx.latchAt l).value)

/-! ## Faults and the end of a program (R233, R240) -/

/-- Whether a brick of a program has halted, resident or saved. -/
def State.brickHalted (s : State) (key : Nat) (p : Prog) (b : Nat) : Bool :=
  if p.resident ∧ (s.brick b).prog = some key then (s.brick b).ctx.halted else (tget {} p.saved b).halted

/-- The part of a Mover write that an abandoned MPUT has written is left unspecified (R233). (log 140, DEDUCED) -/
def State.abandonPut (s : State) (b : Nat) : State :=
  let c := (s.brick b).ctx
  match (s.brick b).prog, c.queueOf 3 with
  | some key, q :: _ =>
    if insnOp q.word.toNat = 1 ∧ 0 < c.moved then
      { s.tierPut (key / 65536) q.a.toNat (s.freeBytes c.moved) with fresh := s.fresh + c.moved }
    else s
  | _, _ => s

/-- A brick halts with a fault: its engines abandon what they do, a packet it was sending is not delivered (R233). -/
def State.haltBrick (s : State) (b code eng addr : Nat) : State :=
  let s := s.abandonPut b
  let br := s.brick b
  { s.setBrick b { br with
      st := .faulted, fault := code, fEngine := eng, fAddr := addr, ctx := { br.ctx with halted := true, sending := false } } with
    transit := s.transit.filter fun t => t.src != some b
    accesses := s.accesses.filter fun x => x.brick != some b }

/-- The module stops a brick of a program with STOPPED; the engine and address recorded are free (log 21, DESIGN CHOICE). -/
def State.stopBrick (s : State) (key b : Nat) : State :=
  match tfind s.progs key with
  | none => s
  | some p =>
    if s.brickHalted key p b then s
    else if p.resident then
      (s.haltBrick b fStopped (s.free % 5) (Config.freeNat (s.fresh + 1) % 2 ^ 23)).useFree.useFree
    else s.modProg key fun p => { p with saved := tput p.saved b { tget {} p.saved b with halted := true, sending := false } }

/-- Cycles a program has been resident since its start. (log 60, DEDUCED) -/
def Prog.resCycles (p : Prog) (now : Nat) : Nat := p.cycles + (if p.resident then now - p.since else 0)

/-- What PROG_WAIT carries once a program has ended (R240). -/
def Prog.endCpl (p : Prog) : Cpl :=
  match p.firstFault with
  | none => { status := .ok, result := p.cycles }
  | some (b, code, _) => { status := .aborted, result := b + 256 * code }

/-- DETAIL of a program fault (Table 21-4). -/
def progFaultDetail (handle code addr : Nat) : Bytes := natLe handle 4 ++ natLe code 1 ++ natLe 0 3 ++ natLe addr 4

/-- The first fault of a program that ends goes into its wing's error ring (R233, Table 21-4). -/
def State.tellFault (s : State) (key : Nat) (p : Prog) : State :=
  match p.firstFault with
  | none => s
  | some (b, code, addr) => s.wingRecord (key / 65536) 5 2 0 3 b (progFaultDetail (key % 65536) code addr)

/-- A program whose bricks have all halted ends, and every PROG_WAIT that waits completes (R240). (log 62, DEDUCED) -/
def State.endCheck (s : State) (key : Nat) : State :=
  match tfind s.progs key with
  | none => s
  | some p =>
    if p.st = .running ∧ (p.bricks.all fun e => s.brickHalted key p e.brick) = true then
      let p' := { p with st := .ended, cycles := p.resCycles s.cyc, since := s.cyc, waits := [] }
      p.waits.foldl (fun s fid => s.fix fid p'.endCpl) ((s.modProg key fun _ => p').tellFault key p)
    else s

/-- Whether a fault of brick b in cycle cyc is a program's first fault: the lowest brick ID's, of those of one cycle (R233). -/
def Prog.firstIs (p : Prog) (b cyc : Nat) : Bool :=
  match p.firstFault with
  | none => true
  | some x => p.failCyc == cyc && decide (b < x.1)

/-- The first fault of a program is kept (R233). -/
def State.noteFault (s : State) (key b code addr : Nat) : State :=
  s.modProg key fun p => if p.firstIs b s.cyc then { p with firstFault := some (b, code, addr), failCyc := s.cyc } else p

/-- A fault of a running brick (R233): it halts at once. The other bricks of its program are stopped when the cycle is over, since each may
fault in it as well (log 140, DEDUCED). -/
def State.brickFault (s : State) (b eng addr code : Nat) : State :=
  match (s.brick b).prog with
  | none => s
  | some key => ((s.haltBrick b code eng addr).noteFault key b code addr).endCheck key

/-- The module stops every brick of a program that had its first fault, and the program ends (R233). -/
def State.stopFailed (s : State) (key : Nat) (p : Prog) : State :=
  if p.st = .running ∧ p.firstFault.isSome = true then (p.bricks.foldl (fun s e => s.stopBrick key e.brick) s).endCheck key else s

/-- Stops what has to be stopped at the end of a cycle. -/
def State.stopAllFailed (s : State) : State := s.progs.foldl (fun s e => s.stopFailed e.1 e.2) s

/-! ## Dispatch (R222, R223) -/

/-- What the Mover and the Post ask of the scalar operands at dispatch: addresses and lengths in multiples of 64 bytes, a payload of
at most 4,096 bytes in multiples of 8, the unused bits of sA 0 (R222, R229). -/
def dispatchOk (c : Ctx) (w : Nat) : Bool :=
  let a := (c.sget (insnA w)).toNat
  let b := (c.sget (insnB w)).toNat
  let d := (c.sget (insnD w)).toNat
  if insnClass w = 6 then
    if insnOp w = 2 then decide (a % 64 = 0)
    else (decide (insnOp w = 3) || decide (a % 64 = 0)) && decide (b % 64 = 0) && decide (d % 64 = 0)
  else if insnClass w = 7 ∧ insnOp w = 0 then
    decide (insnImm w ≤ 4096) && decide (insnImm w % 8 = 0) && decide (bits a 15 10 = 0) && decide (bits a 31 24 = 0)
  else true

/-- An instruction as it enters an engine queue, with its scalar operands (log 22, DEDUCED). -/
def queued (c : Ctx) (w : Nat) : QEnt :=
  { word := BitVec.ofNat 64 w, addr := c.pc, a := c.sget (insnA w), b := c.sget (insnB w), d := c.sget (insnD w) }

/-- The pc after an instruction: 23 bits (Table 09-2). (log 58, DEDUCED) -/
def pcAfter (pc : Nat) : Nat := (pc + 8) % 2 ^ 23

/-- The controller fetches on: it faults on what it may not fetch, places engine instructions in their queues of 32, and stops at an
instruction of its own or a full queue. `fuel` bounds the instructions placed. (log 58, DEDUCED) -/
def State.advance (s : State) (b : Nat) : Nat → State
  | 0 => s
  | fuel + 1 =>
    match s.run? b with
    | none => s
    | some r =>
      let pc := r.br.ctx.pc
      let w := r.word
      let e := insnClass w - 3
      if pc % 8 ≠ 0 then s.brickFault b 0 pc fIllegal
      else if !(r.ent.holds pc 8) then s.brickFault b 0 pc fStoreRange
      else if r.br.badIn pc 8 then s.brickFault b 0 pc fPoison
      else if !(insnLegal w) then s.brickFault b 0 pc fIllegal
      else if insnClass w < 4 ∨ 32 ≤ (r.br.ctx.queueOf e).length then s
      else if !(dispatchOk r.br.ctx w) then s.brickFault b 0 pc fIllegal
      else
        let c := r.br.ctx
        let c := { c.setQueue e (c.queueOf e ++ [queued c w]) with pc := pcAfter pc }
        ((s.setBrick b { r.br with ctx := c }).bump (brkReg b 0x40)).advance b fuel

/-- After an instruction: the controller fetches on, and a program whose bricks have all halted ends. -/
def State.settle (s : State) (b : Nat) : State :=
  let t := (s.tear b).advance b 129
  match (t.brick b).prog with
  | some key => t.endCheck key
  | none => t

/-! ## One instruction -/

/-- What a controller instruction does: the brick after it and the next pc, a fault, or nothing while it waits. -/
inductive CtlRes where
  | next (r : Run) (pc : Nat)
  | fault (code : Nat)
  | hold
deriving DecidableEq, Repr

/-- Ends an instruction of engine e: signals SL where SE is set, LATCH_OVF when that goes above 255 (R224, R225). -/
def State.finishInsn (s : State) (b e w addr : Nat) : State :=
  let br := s.brick b
  if insnSE w then
    let s' := s.setBrick b { br with ctx := br.ctx.signal (insnSL w) e addr }
    if br.ctx.full (insnSL w) then s'.brickFault b e addr fLatchOvf else s'.settle b
  else s.settle b

/-- Runs the controller instruction at pc if it is this operation and may start (R222 to R224). -/
def State.control (s : State) (b cls op : Nat) (body : State → Run → Nat → CtlRes) : State :=
  match s.run? b with
  | none => s
  | some r =>
    let pc := r.br.ctx.pc
    let w := r.word
    let waits := insnWE w && !r.br.ctx.begun
    if !(r.ent.holds pc 8) || !(insnLegal w) || insnClass w != cls || insnOp w != op then s
    else if waits && !(r.canTake 0 (insnWL w)) then s
    else
      let r' := if waits then r.mod fun c => { c.takeLatch (insnWL w) with begun := true } else r
      match body s r' w with
      | .hold => s.setBrick b r'.br
      | .fault code => (s.setBrick b r'.br).brickFault b 0 pc code
      | .next x pc' =>
        ((s.setBrick b { x.br with ctx := { x.br.ctx with pc := pc', begun := false } }).bump (brkReg b 0x40)).finishInsn b 0 w pc

/-- What an engine instruction does: the state after it, a fault, it goes on (a PSEND under way), or it has started and waits. -/
inductive EngRes where
  | done (s : State)
  | fault (s : State) (code : Nat)
  | hold (s : State)
  | wait (s : State)
deriving DecidableEq, Repr

/-- The head of an engine's queue has completed (R223, R224). -/
def State.engineDone (s : State) (b e : Nat) (q : QEnt) : State :=
  let br := s.brick b
  let c := { br.ctx.setQueue e ((br.ctx.queueOf e).drop 1) with moved := if e = 3 then 0 else br.ctx.moved }
  (s.setBrick b { br with ctx := c }).finishInsn b e q.word.toNat q.addr

/-- Runs the head of an engine's queue if it is this operation and may start. -/
def State.engine (s : State) (b cls op : Nat) (body : State → Run → QEnt → EngRes) : State :=
  match s.run? b with
  | none => s
  | some r =>
    match r.br.ctx.queueOf (cls - 3) with
    | [] => s
    | q :: _ =>
      let w := q.word.toNat
      if insnClass w != cls || insnOp w != op || (decide (cls = 7) && r.br.ctx.sending) then s
      else if insnWE w && !(r.canTake (cls - 3) (insnWL w)) then s
      else
        let r' := if insnWE w then r.mod fun c => c.takeLatch (insnWL w) else r
        match body (s.setBrick b r'.br) r' q with
        | .hold t => t
        | .wait t => t.setBrick b { t.brick b with ctx := (t.brick b).ctx.startHead (cls - 3) }
        | .fault t code => t.brickFault b (cls - 3) q.addr code
        | .done t => t.engineDone b (cls - 3) q

/-- An engine instruction that changes nothing but its brick. -/
def onBrick (g : Run → QEnt → Except Nat Run) (s : State) (r : Run) (q : QEnt) : EngRes :=
  match g r q with
  | .ok x => .done (s.setBrick r.b x.br)
  | .error code => .fault s code

/-- An engine instruction whose cycles the spec does not give: at least one is counted, how many more is free (log 141, DESIGN CHOICE). -/
def onBrickWork (off : Nat) (g : Run → QEnt → Except Nat Run) (s : State) (r : Run) (q : QEnt) : EngRes :=
  match g r q with
  | .ok x => .done (((s.setBrick r.b x.br).bumpBy (brkReg r.b off) (s.free + 1)).useFree)
  | .error code => .fault s code

/-- Counts engine cycles and keeps the brick. (log 60, DEDUCED) -/
def onBrickFor (off cycles : Nat) (g : Run → QEnt → Except Nat Run) (s : State) (r : Run) (q : QEnt) : EngRes :=
  match g r q with
  | .ok x => .done ((s.setBrick r.b x.br).bumpBy (brkReg r.b off) cycles)
  | .error code => .fault s code

end Sys2Proof.Machine
end

