-- ==== Sys2Proof/Machine/BrickMat.lean ====
section
/-!
DEFINITION. Meanings of the matrix engine's instructions (08, 09): INT8, FP8 and BF16 products into accumulators, and accumulator
moves.
-/
namespace Sys2Proof.Machine
open Sys2Proof

/-! ## Products (Table 09-5, R204 to R206) -/

/-- The shape of a product: rows M, reduction length, whether it adds to the accumulator. -/
structure Shape where
  rows : Nat
  len : Nat
  acc : Bool
deriving DecidableEq, Repr

/-- The shape field that MAT and LUT products share. -/
def shapeOf (w : Nat) : Shape :=
  { rows := bits (insnImm w) 3 0 + 1, len := 32 * (bits (insnImm w) 8 4 + 1), acc := bit (insnImm w) 9 }

/-- Products of an operation: M rows by 16 columns by the reduction length. -/
def Shape.products (x : Shape) : Nat := x.rows * 16 * x.len

/-- A signed byte. -/
def int8 (b : Byte) : Int := b.toInt

/-- Elements of a run of bytes in a format of n bytes. -/
def elems (f : Fmt) (n count : Nat) (bs : Bytes) : List Val := (chunks n count bs).map fun x => f.decode (leNat x)

/-- The INT32 range. -/
def int32Lo : Int := -2147483648

def int32Hi : Int := 2147483647

/-- Clamps to a range. -/
def clampInt (lo hi x : Int) : Int := max lo (min hi x)

/-- Adds an exact sum to an INT32 accumulator element, saturating; the flag says whether it saturated (R204, R206).
(log 54, DEDUCED) -/
def satAcc (old : Word32) (sum : Int) : Word32 × Bool :=
  let x := old.toInt + sum
  (BitVec.ofInt 32 (clampInt int32Lo int32Hi x), decide (x < int32Lo) || decide (int32Hi < x))

/-- Writes a product's rows: `cell` gives each element from its old value (0 when the accumulator is overwritten) and says whether it
saturated. Overwriting clears the saturation flag, saturating sets it, other rows keep their values. (log 54, DEDUCED) -/
def Ctx.product (c : Ctx) (cyc a : Nat) (x : Shape) (cell : Nat → Nat → Word32 → Word32 × Bool) : Ctx :=
  let c := if x.acc then c else c.numBit a false
  let ij := (List.range x.rows).flatMap fun i => (List.range 16).map fun j => (i, j)
  ij.foldl (fun c p =>
    let r := cell p.1 p.2 (if x.acc then c.aget a p.1 p.2 else 0)
    let c := c.aput a p.1 p.2 r.1
    if r.2 then c.numSat cyc a else c) c

/-- Exact dot product of integers. -/
def dotInt (x y : List Int) : Int := ((x.zip y).map fun p => p.1 * p.2).foldl (· + ·) 0

/-- A dot product added to an FP32 accumulator in groups of 32, each summed exactly and added with one rounding (R205). `fuel` bounds
the groups. (log 54, DEDUCED) -/
def dotGroups : Nat → Word32 → List (Val × Val) → Word32
  | 0, acc, _ => acc
  | fuel + 1, acc, l =>
    match l with
    | [] => acc
    | _ => dotGroups fuel (fround ((fval acc).add (valSum ((l.take 32).map fun p => p.1.mul p.2)))) (l.drop 32)

/-- MMA8: INT8 activations at sA by INT8 weights at sB. (log 54, DEDUCED) -/
def mma8 (r : Run) (q : QEnt) : Except Nat Run :=
  let w := q.word.toNat
  let x := shapeOf w
  match r.load q.a.toNat (x.rows * x.len), r.load q.b.toNat (16 * x.len) with
  | .ok act, .ok wei =>
    let row := fun i => ((act.drop (i * x.len)).take x.len).map int8
    let col := fun j => ((wei.drop (j * x.len)).take x.len).map int8
    .ok (r.mod fun c => c.product r.cyc (insnD w) x fun i j old => satAcc old (dotInt (row i) (col j)))
  | .error e, _ => .error e
  | _, .error e => .error e

/-- A floating-point product: activations of one format, weights of another, n bytes an element (R205). (log 54, DEDUCED) -/
def mmaFp (fa fw : Fmt) (n : Nat) (r : Run) (q : QEnt) : Except Nat Run :=
  let w := q.word.toNat
  let x := shapeOf w
  match r.load q.a.toNat (n * x.rows * x.len), r.load q.b.toNat (16 * n * x.len) with
  | .ok act, .ok wei =>
    let row := fun i => elems fa n x.len (act.drop (n * i * x.len))
    let col := fun j => elems fw n x.len (wei.drop (n * j * x.len))
    .ok (r.mod fun c => c.product r.cyc (insnD w) x fun i j old => (dotGroups 32 old ((row i).zip (col j)), false))
  | .error e, _ => .error e
  | _, .error e => .error e

/-- FP8 format by its bit of IMM: 1 E5M2, 0 E4M3. -/
def fp8Of (w i : Nat) : Fmt := if bit (insnImm w) i then e5m2 else e4m3

/-- MMA8 (R204). -/
def execOpMma8 (brick : Nat) (s : State) : Host.Outcome State Fault Refusal :=
  work s (s.engine brick 4 0 fun s r q =>
    onBrickFor 0x48 (cdiv (shapeOf q.word.toNat).products 256) mma8 s r q)

/-- MMAF8 (R205). -/
def execOpMmaf8 (brick : Nat) (s : State) : Host.Outcome State Fault Refusal :=
  work s (s.engine brick 4 1 fun s r q =>
    onBrickFor 0x48 (cdiv (shapeOf q.word.toNat).products 256) (mmaFp (fp8Of q.word.toNat 10) (fp8Of q.word.toNat 11) 1) s r q)

/-- MMAB (R205). -/
def execOpMmab (brick : Nat) (s : State) : Host.Outcome State Fault Refusal :=
  work s (s.engine brick 4 2 fun s r q =>
    onBrickFor 0x48 (cdiv (shapeOf q.word.toNat).products 64) (mmaFp bf16 bf16 2) s r q)

/-! ## Accumulators -/

/-- Clears an accumulator and its saturation flag. -/
def Ctx.azero (c : Ctx) (a : Nat) : Ctx :=
  { c with acc := tkeep c.acc fun k => k / 256 != a }.numBit a false

/-- The 1 KiB of an accumulator, element (i, j) at index 16 i + j. -/
def Ctx.accBytes (c : Ctx) (a : Nat) : Bytes := ((List.range 256).map fun k => natLe (tget 0 c.acc (256 * a + k)).toNat 4).flatten

/-- AZERO. -/
def execOpAzero (brick : Nat) (s : State) : Host.Outcome State Fault Refusal :=
  work s (s.engine brick 4 3 (onBrickWork 0x48 fun r q => .ok (r.mod fun c => c.azero (insnD q.word.toNat))))

/-- AST. -/
def execOpAst (brick : Nat) (s : State) : Host.Outcome State Fault Refusal :=
  work s (s.engine brick 4 4 (onBrickWork 0x48 fun r q => r.put q.a.toNat (r.br.ctx.accBytes (insnD q.word.toNat))))

end Sys2Proof.Machine
end

