-- ==== Sys2Proof/Machine/BrickLut.lean ====
section
/-!
DEFINITION. Meanings of the LUT engine's instructions (08, 09): look-up products, dequantisation, quantisation under a scale history
block or a privileged entry, rescale, and the vector operations of Table 09-6.
-/
namespace Sys2Proof.Machine
open Sys2Proof

/-! ## Codebook and look-up products (R207 to R209) -/

/-- The value a 4-bit code stands for: two's complement under the default codebook (R207). -/
def codeValue (cb : Option Bytes) (c : Nat) : Int :=
  match cb with
  | some bs => int8 (bs.getD c 0)
  | none => if c < 8 then (c : Int) else (c : Int) - 16

/-- Code i of packed bytes (R208). -/
def nibble (bs : Bytes) (i : Nat) : Nat := (bs.getD (i / 2) 0).toNat / (if i % 2 = 0 then 1 else 16) % 16

/-- CBSET: 16 bytes at sA, or the default codebook. -/
def cbset (r : Run) (q : QEnt) : Except Nat Run :=
  if bit (insnImm q.word.toNat) 0 then .ok (r.mod fun c => { c with codebook := none })
  else
    match r.load q.a.toNat 16 with
    | .ok bs => .ok (r.mod fun c => { c with codebook := some bs })
    | .error e => .error e

/-- LDOT: INT8 activations at sA by 4-bit codes at sB through the codebook. -/
def ldot (r : Run) (q : QEnt) : Except Nat Run :=
  let w := q.word.toNat
  let x := shapeOf w
  match r.load q.a.toNat (x.rows * x.len), r.load q.b.toNat (8 * x.len) with
  | .ok act, .ok wei =>
    let row := fun i => ((act.drop (i * x.len)).take x.len).map int8
    let col := fun j => (List.range x.len).map fun k => codeValue r.br.ctx.codebook (nibble (wei.drop (j * x.len / 2)) k)
    .ok (r.mod fun c => c.product r.cyc (insnD w) x fun i j old => satAcc old (dotInt (row i) (col j)))
  | .error e, _ => .error e
  | _, .error e => .error e

/-- CBSET (R207). -/
def execOpCbset (brick : Nat) (s : State) : Host.Outcome State Fault Refusal := work s (s.engine brick 5 0 (onBrickWork 0x50 cbset))

/-- LDOT (R209). -/
def execOpLdot (brick : Nat) (s : State) : Host.Outcome State Fault Refusal :=
  work s (s.engine brick 5 1 fun s r q => onBrickFor 0x50 (cdiv (shapeOf q.word.toNat).products 512) ldot s r q)

/-! ## Dequantisation (R210) -/

/-- Whether a DEQ control block is in range, its reserved bytes 0. -/
def deqOk (b : Bytes) : Bool :=
  (fld b 8 1 == 4 || fld b 8 1 == 8) && decide (fld b 9 1 ≤ 2) && decide (fld b 10 1 ≤ 2) && inside 1 4096 (fld b 12 4)
    && zeroAt b 11 1 && zeroAt b 16 16

/-- Bytes of a value-table entry: 0 E4M3, 1 BF16, 2 FP32. -/
def tblBytes (f : Nat) : Nat := if f = 0 then 1 else if f = 1 then 2 else 4

def tblFmt (f : Nat) : Fmt := if f = 0 then e4m3 else if f = 1 then bf16 else fp32

/-- An FP32 result in an output format: 0 FP32, 1 BF16, 2 E4M3. -/
def deqOut (f : Nat) (y : Word32) : Bytes :=
  if f = 0 then natLe y.toNat 4 else if f = 1 then natLe (fTo bf16 y) 2 else natLe (fTo e4m3 y) 1

/-- DEQ: codes at sA to sD under the control block at sB; a block out of range is ILLEGAL. -/
def deq (r : Run) (q : QEnt) : Except Nat Run :=
  match r.load q.b.toNat 32 with
  | .error e => .error e
  | .ok b =>
    if !(deqOk b) then .error fIllegal
    else
      let n := fld b 12 4
      let wide := fld b 8 1 == 8
      let tf := fld b 9 1
      let tb := tblBytes tf
      let scale : Word32 := BitVec.ofNat 32 (fld b 4 4)
      match r.load (fld b 0 4) (tb * (if wide then 256 else 16)), r.load q.a.toNat (if wide then n else cdiv n 2) with
      | .ok tbl, .ok codes =>
        let code := fun i => if wide then (codes.getD i 0).toNat else nibble codes i
        let out := fun i => deqOut (fld b 10 1) (fmul (fOf (tblFmt tf) (fld tbl (tb * code i) tb)) scale)
        r.save q.d.toNat ((List.range n).map out).flatten
      | .error e, _ => .error e
      | _, .error e => .error e

/-- DEQ (R210). -/
def execOpDeq (brick : Nat) (s : State) : Host.Outcome State Fault Refusal := work s (s.engine brick 5 2 (onBrickWork 0x50 deq))

/-! ## Quantisation (R211 to R215) -/

/-- QMAX of a target as FP32 (Table 08-5). -/
def qmaxF (t : Nat) : Word32 := fOfInt (if t = 0 then 127 else if t = 1 then 7 else if t = 2 then 448 else 57344)

/-- Two's complement of an integer in 8 or 4 bits. -/
def intCode (i : Int) (t : Nat) : Nat := (i % (if t = 0 then 256 else 16)).toNat

/-- A quantised element: its code, whether it counts as saturated, whether it is a NaN (R213). -/
def quantElem (t : Nat) (s x : Word32) : Nat × Bool × Bool :=
  let y := fdiv x s
  let hi : Int := if t = 0 then 127 else 7
  if t ≤ 1 then (intCode (fToInt (-hi) hi y) t, !(fIsNan x) && (fIsInf x || fClamps (-hi) hi y), fIsNan x)
  else
    let f := if t = 2 then e4m3 else e5m2
    (fTo f y, !(fIsNan x) && (fIsInf x || f.saturated (fval y)), fIsNan x)

/-- The elements as stored: bytes, or two 4-bit codes to a byte (R208); the unused half of a last byte is free (log 23, DESIGN CHOICE). -/
def packCodes (free t : Nat) (l : List Nat) : Bytes :=
  if t = 1 then
    (List.range (cdiv l.length 2)).map fun i =>
      BitVec.ofNat 8 (l.getD (2 * i) 0 + 16 * (if 2 * i + 1 < l.length then l.getD (2 * i + 1) 0 else Config.freeNat free % 16))
  else l.map fun c => BitVec.ofNat 8 c

/-- Quantises a row with scale s: packed codes, elements saturated, NaN elements. -/
def quantRow (free t : Nat) (s : Word32) (x : List Word32) : Bytes × Nat × Nat :=
  let l := x.map (quantElem t s)
  (packCodes free t (l.map Prod.fst), (l.filter fun e => e.2.1).length, (l.filter fun e => e.2.2).length)

/-- Largest magnitude among the finite elements, 0 when there are none (R213). -/
def rowAmax (x : List Word32) : Word32 := x.foldl (fun m a => if fIsFin a && flt m (fabs a) then fabs a else m) f0

def fmax (a b : Word32) : Word32 := if flt a b then b else a

/-- Whether a scale history block header is in range, its reserved bytes 0 (R212). -/
def histOk (h : Bytes) : Bool :=
  inside 1 16 (fld h 0 1) && decide (fld h 1 1 < fld h 0 1) && decide (fld h 2 1 ≤ fld h 0 1) && decide (fld h 3 1 ≤ 3)
    && inside 1 64 (fld h 4 2) && zeroAt h 6 2 && zeroAt h 24 40

/-- The FP32 value at an offset. -/
def f32At (b : Bytes) (off : Nat) : Word32 := BitVec.ofNat 32 (fld b off 4)

/-- Replaces bytes at an offset. -/
def patch (b : Bytes) (off : Nat) (x : Bytes) : Bytes := b.take off ++ x ++ b.drop (off + x.length)

/-- m of R213 for row r: from the completed slots, or in a cold start from the row itself. -/
def histScaleMax (b : Bytes) (row : Nat) (am : Word32) : Word32 :=
  let n := fld b 0 1
  let pos := fld b 1 1
  let fill := fld b 2 1
  let work := f32At b (64 * (1 + fld b 4 2) + 4 * row)
  if fill = 0 then (if bit (fld b 16 8) row then fmax work am else am)
  else ((List.range fill).map fun k => f32At b (64 * (1 + row) + 4 * ((pos + 16 * n - 1 - k) % n))).foldl fmax f0

/-- The block after row r is quantised (R213): counters, working area, DONE, and the step's end when every row is done. -/
def histAfter (b : Bytes) (row : Nat) (am : Word32) (satN nanN : Nat) : Bytes :=
  let n := fld b 0 1
  let pos := fld b 1 1
  let rows := fld b 4 2
  let done := fld b 16 8
  let wOff := fun r => 64 * (1 + rows) + 4 * r
  let work := if bit done row then fmax (f32At b (wOff row)) am else am
  let b := patch b 8 (natLe (sat (fld b 8 4 + satN) 32) 4)
  let b := patch b 12 (natLe (sat (fld b 12 4 + nanN) 32) 4)
  let b := patch b (wOff row) (natLe work.toNat 4)
  let done := done ||| 2 ^ row
  if (List.range rows).all (fun r => bit done r) then
    let b := (List.range rows).foldl (fun b r => patch b (64 * (1 + r) + 4 * pos) (slice b (wOff r) 4)) b
    let b := patch b 1 (natLe ((pos + 1) % n) 1)
    let b := patch b 2 (natLe (min (fld b 2 1 + 1) n) 1)
    patch b 16 (natLe 0 8)
  else patch b 16 (natLe done 8)

/-- Stores a quantised row: the scale at sD, the elements from sD + 64. -/
def Run.saveRow (r : Run) (d : Nat) (s : Word32) (codes : Bytes) : Except Nat Run :=
  match r.save d (natLe s.toNat 4) with
  | .ok r => r.save (d + 64) codes
  | .error e => .error e

/-- s of R213: m / QMAX, 1.0 when m is 0. -/
def scaleOfMax (t : Nat) (m : Word32) : Word32 := if flt f0 m then fdiv m (qmaxF t) else f1

/-- QUANT: IMM[17:6] FP32 elements at sA as row IMM[5:0] under the block at sB. -/
def quant (free : Nat) (r : Run) (q : QEnt) : Except Nat Run :=
  let imm := insnImm q.word.toNat
  let row := bits imm 5 0
  let n := bits imm 17 6
  match r.load q.b.toNat 64, r.load q.a.toNat (4 * n) with
  | .ok h, .ok xs =>
    if !(histOk h) || decide (fld h 4 2 ≤ row) then .error fScaleHdr
    else
      match r.load q.b.toNat (histBytes (fld h 4 2)) with
      | .error e => .error e
      | .ok b =>
        let t := fld h 3 1
        let x := fmtVec 0 n xs
        let am := rowAmax x
        let s := scaleOfMax t (histScaleMax b row am)
        let y := quantRow free t s x
        match r.saveRow q.d.toNat s y.1 with
        | .ok r => r.save q.b.toNat (histAfter b row am y.2.1 y.2.2)
        | .error e => .error e
  | .error e, _ => .error e
  | _, .error e => .error e

/-- Whether a privileged scale entry is in range (Table 08-7). -/
def privOk (e : Bytes) : Bool := fIsFin (f32At e 0) && flt f0 (f32At e 0) && decide (fld e 4 1 ≤ 3) && zeroAt e 5 3

/-- QPRIV: IMM[17:6] FP32 elements at sA under privileged entry IMM[4:0] (R215). -/
def qpriv (free : Nat) (r : Run) (q : QEnt) : Except Nat Run :=
  let imm := insnImm q.word.toNat
  let i := bits imm 4 0
  let n := bits imm 17 6
  if r.prog.priv ≤ i then .error fPrivEntry
  else
    match r.load (r.ent.pscale + 16 * i) 16, r.load q.a.toNat (4 * n) with
    | .ok e, .ok xs =>
      if !(privOk e) then .error fPrivEntry
      else
        let s := f32At e 0
        let y := quantRow free (fld e 4 1) s (fmtVec 0 n xs)
        let e := patch e 8 (natLe (sat (fld e 8 4 + y.2.1) 32) 4 ++ natLe (sat (fld e 12 4 + y.2.2) 32) 4)
        match r.saveRow q.d.toNat s y.1 with
        | .ok r => r.save (r.ent.pscale + 16 * i) e
        | .error e => .error e
    | .error e, _ => .error e
    | _, .error e => .error e

/-- QUANT (R213). -/
def execOpQuant (brick : Nat) (s : State) : Host.Outcome State Fault Refusal :=
  work s (s.engine brick 5 3 fun s r q => onBrickWork 0x50 (quant s.fresh) s.useFree r q)

/-- QPRIV (R215). -/
def execOpQpriv (brick : Nat) (s : State) : Host.Outcome State Fault Refusal :=
  work s (s.engine brick 5 4 fun s r q => onBrickWork 0x50 (qpriv s.fresh) s.useFree r q)

/-! ## Rescale (R216, R217) -/

/-- Whether a rescale entry is in range (Table 08-8). -/
def rescaleOk (e : Bytes) : Bool := !(zeroAt e 0 4) && decide (fld e 4 1 ≤ 63) && decide (fld e 5 1 ≤ 3) && zeroAt e 6 2

/-- One rescaled element: its bytes, and whether an integer output clamped (R217). (log 24, DEDUCED) -/
def rescaleElem (e : Bytes) (acc s : Word32) : Bytes × Bool :=
  let p := acc.toInt * sext (fld e 0 4) 32
  let shift := fld e 4 1
  let o := fld e 5 1
  if o = 0 then (natLe (fmul (fOfScaled p shift) s).toNat 4, false)
  else
    let n := if o = 1 then 1 else if o = 2 then 2 else 4
    let hi : Int := (2 ^ (8 * n - 1) : Nat) - 1
    let lo : Int := -(2 ^ (8 * n - 1) : Nat)
    let v := intOfScaled p shift
    (natLe ((clampInt lo hi v) % (2 ^ (8 * n) : Nat)).toNat n, decide (v < lo) || decide (hi < v))

/-- RESCALE: accumulator IMM[2:0] through 16 entries at sA with 16 row scales at sB, row after row to sD (log 24, DEDUCED). -/
def rescale (r : Run) (q : QEnt) : Except Nat Run :=
  let a := bits (insnImm q.word.toNat) 2 0
  match r.load q.a.toNat 128, r.load q.b.toNat 64 with
  | .ok es, .ok ss =>
    let entry := fun j => slice es (8 * j) 8
    if !((List.range 16).all fun j => rescaleOk (entry j)) then .error fIllegal
    else
      let cells := (List.range 256).map fun k => rescaleElem (entry (k % 16)) (r.br.ctx.aget a (k / 16) (k % 16)) (f32At ss (4 * (k / 16)))
      match r.save q.d.toNat (cells.map Prod.fst).flatten with
      | .ok r => .ok (if cells.any Prod.snd then r.mod fun c => c.numSat r.cyc 8 else r)
      | .error e => .error e
  | .error e, _ => .error e
  | _, .error e => .error e

/-- RESCALE (R217). -/
def execOpRescale (brick : Nat) (s : State) : Host.Outcome State Fault Refusal := work s (s.engine brick 5 5 (onBrickWork 0x50 rescale))

/-! ## Vectors (Table 09-6) -/

/-- VLD: vD = 512 bytes at sA. -/
def vld (r : Run) (q : QEnt) : Except Nat Run :=
  match r.load q.a.toNat 512 with
  | .ok bs => .ok (r.mod fun c => c.vput (insnD q.word.toNat) bs)
  | .error e => .error e

/-- VLD. -/
def execOpVld (brick : Nat) (s : State) : Host.Outcome State Fault Refusal := work s (s.engine brick 5 6 (onBrickWork 0x50 vld))

/-- VST. -/
def execOpVst (brick : Nat) (s : State) : Host.Outcome State Fault Refusal :=
  work s (s.engine brick 5 7 (onBrickWork 0x50 fun r q => r.save q.a.toNat (r.br.ctx.vget (insnD q.word.toNat))))

/-- Reciprocal square root: exact at 0, infinities, negative numbers and NaN, elsewhere free within its bound (log 5, DESIGN CHOICE). -/
def frsqrt (a : Word32) : Word32 :=
  match fval a with
  | .nan => fround .nan
  | .inf neg => if neg then fround .nan else f0
  | .fin neg m e =>
    if m = 0 then fround (.inf neg) else if neg then fround .nan else fWithin2 (rsqrtVal m e) (Config.rsqrtF32 a)

/-- The larger (or smaller) of two elements: a NaN gives the canonical NaN; which of two equal ones is free (log 3, DESIGN CHOICE). -/
def pickFp (f : Fmt) (larger pickA : Bool) (a b : Nat) : Nat :=
  let x := f.decode a
  let y := f.decode b
  if x = .nan ∨ y = .nan then f.nanBits
  else if x.lt y then (if larger then b else a)
  else if y.lt x then (if larger then a else b)
  else if pickA then a else b

/-- An element of a floating-point VOP; codes 6 to 8 are FP32 only. (log 3, DESIGN CHOICE) -/
def vopFp (f : Fmt) (fn : Nat) (pickA : Bool) (a b d : Nat) : Nat :=
  if fn = 0 then f.round ((f.decode a).add (f.decode b))
  else if fn = 1 then f.round ((f.decode a).add (f.decode b).neg)
  else if fn = 2 then f.round ((f.decode a).mul (f.decode b))
  else if fn = 3 then pickFp f true pickA a b
  else if fn = 4 then pickFp f false pickA a b
  else if fn = 5 then f.round (((f.decode a).mul (f.decode b)).add (f.decode d))
  else if fn = 6 then (fexp (BitVec.ofNat 32 a)).toNat
  else if fn = 7 then (fdiv f1 (BitVec.ofNat 32 a)).toNat
  else (frsqrt (BitVec.ofNat 32 a)).toNat

/-- An element of an INT32 VOP, modulo 2^32. -/
def vopInt (fn : Nat) (a b d : Word32) : Word32 :=
  if fn = 0 then a + b else if fn = 1 then a - b else if fn = 2 then a * b
  else if fn = 3 then (if a.slt b then b else a) else if fn = 4 then (if b.slt a then b else a) else a * b + d

/-- VOP on the bytes of three vectors. -/
def vopBytes (fn ty : Nat) (pickA : Bool) (a b d : Bytes) : Bytes :=
  let n := if ty = 1 then 2 else 4
  ((List.range (512 / n)).map fun i =>
    let x := fld a (n * i) n
    let y := fld b (n * i) n
    let z := fld d (n * i) n
    natLe (if ty = 0 then vopFp fp32 fn pickA x y z else if ty = 1 then vopFp bf16 fn pickA x y z
      else (vopInt fn (BitVec.ofNat 32 x) (BitVec.ofNat 32 y) (BitVec.ofNat 32 z)).toNat) n).flatten

/-- VOP: vD = op(vA, vB). -/
def vop (pickA : Bool) (r : Run) (q : QEnt) : Except Nat Run :=
  let w := q.word.toNat
  let c := r.br.ctx
  let imm := insnImm w
  .ok (r.mod fun c' => c'.vput (insnD w)
    (vopBytes (bits imm 3 0) (bits imm 5 4) pickA (c.vget (insnA w)) (c.vget (insnB w)) (c.vget (insnD w))))

/-- VOP (Table 09-6). -/
def execOpVop (brick : Nat) (s : State) : Host.Outcome State Fault Refusal :=
  work s (s.engine brick 5 8 fun s r q => onBrickWork 0x50 (vop (s.free % 2 == 0)) s.useFree r q)

/-- VRED: sD[31:0] = the reduction of 128 FP32 elements (R200). -/
def vred (r : Run) (q : QEnt) : Except Nat Run :=
  let w := q.word.toNat
  let y := fReduce (fmtVec 0 128 (r.br.ctx.vget (insnA w)))
  .ok (r.mod fun c => c.sput (insnD w) (BitVec.ofNat 64 y.toNat))

/-- VRED (R200). -/
def execOpVred (brick : Nat) (s : State) : Host.Outcome State Fault Refusal := work s (s.engine brick 5 9 (onBrickWork 0x50 vred))

end Sys2Proof.Machine
end

