-- ==== Sys2Proof/Machine/Stack.lean ====
section
/-!
DEFINITION. Compute stacks (12): opening and sealing regions, the operations of the units with their checks at dispatch, slices and
refreshes of bank units, the flush contract.
-/
namespace Sys2Proof.Machine
open Sys2Proof

/-! ## Regions that a descriptor names (R295 to R302) -/

/-- Regions OPEN or OPENING in compute stack i. -/
def State.openRegions (s : State) (i : Nat) : Nat :=
  (s.regions.filter fun e => regionStack e.1 == i && (e.2.st == .opened || e.2.st == .opening)).length

/-- The regions of a descriptor of KIND 0: whole regions of one region range (R299, R301). -/
def State.spanRegions (s : State) (f : Flight) : Option (List Nat) :=
  let n := f.u 20 4
  let a := f.u 24 8
  if hHandle f.raw ≠ 0 ∨ n = 0 ∨ a % 2097152 ≠ 0 then none
  else
    match s.rangeOver f.wing a (8 * n) with
    | none => none
    | some r =>
      let first := (a / pageSize - r.base) / 8
      let l := (r.regions.drop first).take n
      if r.tier = 1 ∧ l.length = n then some l else none

/-- The regions of a descriptor of KIND 1: every one that holds a page of the part (R301). (log 45, DEDUCED) -/
def Coll.partRegions (c : Coll) (part : Nat) : List Nat :=
  (((List.range c.defn.shards).map fun sh => (List.range (c.defn.partPages part)).filterMap fun j => c.regionOf part sh j).flatten).foldl
    insertNew []

/-- Fields that STK_OPEN and STK_SEAL share (R301). -/
def regionFieldsOk (f : Flight) (sealing : Bool) : Bool :=
  let kind := f.u 16 1
  let part := f.u 18 1
  f.zero [(19, 1), (32, 96)] && decide (kind ≤ 1) && decide (f.u 17 1 ≤ 1) && (f.u 17 1 == 0 || (!sealing && kind == 1))
    && (if kind = 0 then part == 0 else (part == 3 || part == 4 || part == 7) && f.u 20 4 == 0 && f.u 24 8 == 0)

/-- The collection of a KIND 1 descriptor: ACTIVE or BUILDING, with the part (R301); a CLOSING one counts as named wrongly
(log 127, DESIGN CHOICE). -/
def State.partColl (s : State) (f : Flight) : Option Coll :=
  if hHandle f.raw < 4096 then
    match tfind s.colls f.obj with
    | some c => if (c.st = .active ∨ c.st = .building) ∧ c.defn.has (f.u 18 1) = true then some c else none
    | none => none
  else none

/-- The regions a descriptor names, or none when it names them wrongly. -/
def State.namedRegions (s : State) (f : Flight) : Option (List Nat) :=
  if f.u 16 1 = 0 then s.spanRegions f else (s.partColl f).map fun c => c.partRegions (f.u 18 1)

/-- Whether a region is between two states: opens and seals of it wait. (log 79, DEDUCED) -/
def State.regionMoving (s : State) (k : Nat) : Bool := (s.region k).st == .opening || (s.region k).st == .sealing

/-! ## MOVE (R301) -/

/-- Floor pages of a part on each shard. -/
def Coll.floorPages (c : Coll) (part : Nat) : Nat := if c.defn.inCellar part then 0 else c.defn.partPages part

/-- Replaces frames from place i on. -/
def putFrames (l : List FrameAt) (i : Nat) (new : List FrameAt) : List FrameAt := l.take i ++ new ++ l.drop (i + new.length)

/-- Moves the pages of one shard's part into whole free regions of its die's compute stack. (log 30, DEDUCED) -/
def State.moveShard (s : State) (key part sh : Nat) : Option (State × Nat) :=
  match tfind s.colls key with
  | none => none
  | some c =>
    let n := c.floorPages part
    if n = 0 ∨ tget [] c.regions (part * 8 + sh) ≠ [] then some (s, 0)
    else
      match s.freeRegions (key / 65536) (c.die sh) (cdiv n 8), c.defn.frameAt part sh 0 with
      | some l, some i =>
        let new := (List.range n).map fun j => regionFrame (key / 65536) (l.getD (j / 8) 0) (j % 8)
        let put := s.giveFrames ((c.frames.drop i).take n)
        some ({ put with frames := put.frames ++ new }.modColl key fun c =>
          { c with regions := tset [] c.regions (part * 8 + sh) l, frames := putFrames c.frames i new }, n)
      | _, _ => none

/-- Moves every shard's pages of a part, or nothing. -/
def State.moveShards (s : State) (key part : Nat) : List Nat → Option (State × Nat)
  | [] => some (s, 0)
  | sh :: t =>
    match s.moveShard key part sh with
    | some (s1, n) =>
      match s1.moveShards key part t with
      | some (s2, m) => some (s2, n + m)
      | none => none
    | none => none

/-- Moves the part of a descriptor with MOVE; none when regions or the open limit do not suffice. -/
def State.movePart (s : State) (f : Flight) : Option (State × Nat) :=
  if f.u 17 1 = 0 then some (s, 0)
  else
    match s.partColl f with
    | none => none
    | some c => s.moveShards f.obj (f.u 18 1) (List.range c.defn.shards)

/-! ## STK_OPEN (R295, R296, R301, R302) -/

/-- Whether the open limit leaves room for some regions in every stack (R295). -/
def State.openRoom (s : State) (ks : List Nat) : Bool :=
  (List.range 4).all fun i => decide (s.openRegions i + (ks.filter fun k => regionStack k == i).length ≤ profOpenMax s.prof)

/-- Whether every frame of some regions is free or held by a wing, so that it may open them (R299). -/
def State.ownsFrames (s : State) (w : Nat) (ks : List Nat) : Bool :=
  s.poolFrames.all fun x => x.wing == w || match x.region with
    | some k => !(ks.contains k)
    | none => true

/-- STK_OPEN: guarded regions begin their check pass; regions that hold another wing's page do not open (R299). (log 79, DEDUCED) -/
def State.stkOpen (s : State) (f : Flight) : State :=
  if !(regionFieldsOk f false) then s.fixSt f.fid .invalid
  else
    match s.namedRegions f with
    | none => s.fixSt f.fid .invalid
    | some ks0 =>
      if ks0.any s.regionMoving then s
      else
        match s.movePart f with
        | none => s.fixSt f.fid .noResource
        | some (t, moved) =>
          let ks := (t.namedRegions f).getD []
          let shut := ks.filter fun k => (t.region k).st == .guarded
          if !(t.openRoom shut) || !(t.ownsFrames f.wing shut) then s.fixSt f.fid .noResource
          else
            let r : Region := { st := .opening, internal := decide (f.u 16 1 = 1), wing := f.wing }
            let job : RegionJob := { fid := f.fid, sealing := false, left := shut, changed := shut.length, moved }
            let t := shut.foldl (fun s k => s.setRegion k r) t
            { (t.admitNow f.fid) with regionJobs := t.regionJobs ++ [job] }

def execStkOpen (fid : Nat) (s : State) : Host.Outcome State Fault Refusal :=
  work s (match s.ready? fid 0x700 with
    | some f => s.stkOpen f
    | none => s)

/-! ## Rows of embedding tables (R321, R322) -/

/-- Stored bytes of a row, before rounding (Table 13-3). -/
def embStored (fmt w : Nat) : Nat := if fmt = 1 then 2 * w else if fmt = 2 then w + 4 else 4 * w

/-- RB of a table. -/
def Emb.rb (e : Emb) : Nat := roundUp (embStored e.fmt e.width) 64

/-- Rows a tier page holds. -/
def Emb.q (e : Emb) : Nat := pageSize / e.rb

/-- Tier page of a slot. -/
def Emb.slotPage (e : Emb) (slot : Nat) : Nat := slot / e.q

/-- Region of a slot in a table with UPDATE. -/
def Emb.slotRegion (e : Emb) (slot : Nat) : Option Nat := e.regions[e.slotPage slot / 8]?

/-! ## Poison in regions (R296, R298) -/

/-- The region that holds a line of a collection's part, by its key. -/
def Coll.lineRegion (c : Coll) (line : Nat) : Option Nat :=
  let part := 64 * line / 2 ^ 48
  let size := c.defn.recSize part
  let n := 64 * line % 2 ^ 48 / size
  c.regionOf part (n % c.defn.shards) (n / c.defn.shards * size / pageSize)

/-- Poisoned lines in a region. -/
def State.regionBad (s : State) (k : Nat) : Nat :=
  (s.frmBad.filter fun x => s.pageRegion (x / 2 ^ 46) (keyAddr x / pageSize) == some k).length
    + sumNat (s.colls.map fun e => (e.2.bad.filter fun x => e.2.lineRegion x == some k).length)
    + sumNat (s.embs.map fun e => (e.2.bad.filter fun x => e.2.slotRegion (64 * x / e.2.rb) == some k).length)

/-- A line that the check pass could not correct is poisoned and recorded (R495, R502). (log 77, DEDUCED) -/
def State.checkFound (s : State) (f : Flight) (line : Nat) : State :=
  let s := s.bump 0x2048
  if f.u 16 1 = 0 then
    let a := f.u 24 8 + 64 * line
    (s.poisonLine f.wing a).lineRecord f.wing a
  else
    match s.partColl f with
    | some c =>
      let k := partKey (f.u 18 1) (64 * line)
      (s.modColl f.obj fun c => { c with bad := insertNew c.bad (k / 64) }).wingRecord f.wing 1 1 0 1 0
        ((c.noteAt (hHandle f.raw) k).detail)
    | none => s

/-- Whether the check pass of an open meets poison in a region that it checks (R296). -/
def State.openPoisoned (s : State) (ks : List Nat) : Bool := ks.any fun k => s.regionBad k != 0

/-- Some regions become OPEN together (R296); one that holds pages of a Floor range starts HELD (R302). -/
def State.openAll (s : State) (ks : List Nat) : State :=
  ks.foldl (fun s k =>
    (s.setRegion k { s.region k with st := .opened, held := s.holdsRange k }).bump (stkReg (3 * regionStack k) 0x1080)) s

/-- Some regions are GUARDED again. -/
def State.guardAll (s : State) (ks : List Nat) : State := ks.foldl (fun s k => s.setRegion k {}) s

/-- The end of a check pass: the regions return to GUARDED, or all become OPEN together (R296). -/
def State.openEnd (s : State) (f : Flight) (j : RegionJob) (bad : Option Nat) : State :=
  let s := { s with regionJobs := s.regionJobs.filter fun x => x.fid != j.fid }
  let s := match bad with
    | some line => s.checkFound f line
    | none => s
  if bad.isSome || s.openPoisoned j.left then (s.guardAll j.left).fixSt f.fid .poisoned
  else (s.openAll j.left).fixOk f.fid 0 (pack32 j.changed j.moved)

/-! ## STK_SEAL (R297) -/

/-- STK_SEAL: OPEN regions become SEALING; with none the seal is done. (log 79, DEDUCED) -/
def State.stkSeal (s : State) (f : Flight) : State :=
  if !(regionFieldsOk f true) then s.fixSt f.fid .invalid
  else
    match s.namedRegions f with
    | none => s.fixSt f.fid .invalid
    | some ks =>
      if ks.any s.regionMoving then s
      else
        let l := ks.filter fun k => (s.region k).st == .opened
        let s := s.admitNow f.fid
        if l.isEmpty then s.fixOk f.fid 0 0
        else
          let job : RegionJob := { fid := f.fid, sealing := true, left := l, changed := l.length }
          let s := l.foldl (fun s k => s.setRegion k { s.region k with st := .sealing }) s
          { s with regionJobs := s.regionJobs ++ [job] }

def execStkSeal (fid : Nat) (s : State) : Host.Outcome State Fault Refusal :=
  work s (match s.ready? fid 0x701 with
    | some f => s.stkSeal f
    | none => s)

/-- Whether an operation that was dispatched on a region still runs. -/
def State.regionRuns (s : State) (k : Nat) : Bool := s.stkOps.any fun o => o.running && !o.refused && o.regions.contains k

/-! ## Operations: fields and operands (R307 to R312) -/

/-- Bytes of a bitmap of `n` records: whole lines (R309). -/
def bitmapBytes (n : Nat) : Nat := 64 * cdiv n 512

/-- The operands that the stack reads or writes in place, as (address, bytes). (log 78, DEDUCED) -/
def Flight.stkSpans (f : Flight) : List (Nat × Nat) :=
  let op := hOpcode f.raw
  let n := f.u 20 4
  let rec_ := f.u 18 2
  if op = 0x710 then [(f.u 32 8, n * rec_)]
  else if op = 0x711 then [(f.u 32 8, n * rec_), (f.u 40 8, bitmapBytes n)]
  else if op = 0x720 then [(f.u 40 8, rec_)]
  else if op = 0x721 then [(f.u 32 8, 4 * n)]
  else if op = 0x730 then [(f.u 32 8, n), (f.u 40 8, n)]
  else [(f.u 40 8, n)]

/-- Dimensions and table entries of a scan's code format. -/
def scanDim (f : Flight) : Nat := if f.u 16 1 = 0 then 2 * f.u 18 2 else f.u 18 2
def scanCodes (f : Flight) : Nat := if f.u 16 1 = 0 then 16 else 256

/-- AUX_BYTES that an operation's other fields call for (Table 12-5). (log 78, DEDUCED) -/
def auxBytes (f : Flight) : Nat :=
  let op := hOpcode f.raw
  if op = 0x710 then 4 * scanCodes f * scanDim f
  else if op = 0x711 then 16 * f.u 64 1
  else if op = 0x720 then 4 * f.u 20 4 else 0

/-- Fields of a compute operation (Tables 12-4, 12-5). (log 78, DEDUCED) -/
def stkFieldsOk (f : Flight) : Bool :=
  let op := hOpcode f.raw
  let fmt := f.u 16 1
  let rec_ := f.u 18 2
  let n := f.u 20 4
  f.zero [(12, 4), (65, 63)] && decide (f.u 17 1 ≤ 1) && f.u 56 4 == auxBytes f
    && (if op = 0x710 then
          decide (fmt ≤ 1) && inside 64 4096 (scanDim f) && scanDim f % 64 == 0 && f.zero [(28, 4), (64, 1)]
            && !(fIsNan (BitVec.ofNat 32 (f.u 24 4))) && decide (64 ≤ f.u 60 4) && f.u 60 4 % 8 == 0
        else
          f.u 60 4 == 0 &&
          (if op = 0x711 then
            f.zero [(16, 1), (24, 8)] && inside 4 64 rec_ && rec_ % 4 == 0 && inside 1 32 (f.u 64 1) && aligned64 (f.u 40 8)
          else if op = 0x720 then
            decide (fmt ≤ 1) && decide (64 ≤ rec_) && rec_ % 64 == 0 && inside 1 65536 n && f.zero [(25, 7), (64, 1)]
              && (if fmt = 1 then decide (f.u 24 1 ≤ 31) else f.u 24 1 == 0)
          else if op = 0x721 then
            decide (fmt ≤ 1) && decide (f.u 24 1 ≤ 2) && f.zero [(17, 3), (25, 7), (40, 16), (64, 1)]
          else if op = 0x730 then
            f.zero [(16, 4), (24, 8), (48, 8), (64, 1)] && n % 64 == 0 && aligned64 (f.u 40 8)
              && (decide (f.u 32 8 + n ≤ f.u 40 8) || decide (f.u 40 8 + n ≤ f.u 32 8))
          else f.zero [(16, 4), (32, 8), (48, 8), (64, 1)] && n % 64 == 0 && aligned64 (f.u 40 8)))

/-- The one compute stack whose Floor pages of the wing some operands all lie in. -/
def State.oneStack (s : State) (w : Nat) (spans : List (Nat × Nat)) : Option Nat :=
  let ps := (spans.map fun x => pagesOf x.1 (max x.2 1)).flatten
  match ps with
  | [] => none
  | p :: _ =>
    let i := (s.page w p).stack
    if isCompute i && ps.all fun q => pageTier q == 1 && (s.rangeAt w q).isSome && (s.page w q).stack == i then some (i / 3) else none

/-- Row address of update j of an add. -/
def addRow (f : Flight) (aux : Bytes) (j : Nat) : Nat := f.u 40 8 + fld aux (4 * j) 4 * f.u 18 2

/-- Admits a descriptor that is not admitted yet. -/
def State.admitOnce (s : State) (f : Flight) : State := if f.phase = .ready then s.admitNow f.fid else s

/-- Queues an operation on its stack (R313). -/
def State.enqueueOp (s : State) (f : Flight) (i : Nat) (aux rows : Bytes) : State :=
  let op : StkOp := { id := s.nextId, stack := i, fid := some f.fid, opcode := hOpcode f.raw, wing := f.wing, cls := f.cls, aux, rows }
  { (s.admitOnce f) with stkOps := s.stkOps ++ [op], nextId := s.nextId + 1 }

/-- The sources of an operation that SRC_KIND places, as (address, bytes): the AUX data, and the rows of an add (Table 12-5). -/
def Flight.stkInputs (f : Flight) : List (Nat × Nat) :=
  [(f.u 48 8, auxBytes f), (f.u 32 8, if hOpcode f.raw = 0x720 then f.u 20 4 * f.u 18 2 else 0)]

/-- Whether the sources that lie in tier ranges are Floor addresses of the wing (R307). -/
def State.inputsOk (s : State) (f : Flight) : Bool :=
  f.u 17 1 == 0 || f.stkInputs.all fun x => x.2 == 0 || (pagesOf x.1 x.2).all fun p => pageTier p == 1 && (s.rangeAt f.wing p).isSome

/-- A compute operation in Intake: fields, one compute stack, sources, room in its queue (R307, R313). A filter is checked under R108. One
that finds the queue full is admitted, so that its timeout runs, and waits for room. -/
def State.stkSubmit (s : State) (f : Flight) (rows aux : Dma) : State :=
  if !(stkFieldsOk f) then s.fixSt f.fid .invalid
  else
    match s.oneStack f.wing f.stkSpans with
    | none => s.fixSt f.fid .invalid
    | some i =>
      if (f.stkSpans.any fun x => s.freedUnder { fid := some f.fid } f.wing x.1 x.2) || !(s.inputsOk f) then s.fixSt f.fid .invalid
      else
        let a := s.readSrc f (f.u 17 1) (f.u 48 8) (auxBytes f) aux 0
        match a.2 with
        | .stop st n => a.1.stopAt f.fid st n
        | .bytes ab =>
          if hOpcode f.raw = 0x711 ∧ filterOk (f.u 18 2 / 4) (chunks 16 (f.u 64 1) ab) = false then a.1.fixSt f.fid .invalid
          else
            let r := a.1.readSrc f (f.u 17 1) (f.u 32 8) (if hOpcode f.raw = 0x720 then f.u 20 4 * f.u 18 2 else 0) rows 0
            match r.2 with
            | .stop st n => r.1.stopAt f.fid st n
            | .bytes rb => if 1024 ≤ (s.stkQueue i).length then r.1.admitOnce f else r.1.enqueueOp f i ab rb

/-- A compute operation that Intake checks now: a new one, or one that waits for room in its stack's queue. -/
def State.stkReady? (s : State) (fid op : Nat) : Option Flight :=
  match s.active? fid op with
  | some f => if s.stkOps.any fun o => o.fid == some fid then none else some f
  | none => s.ready? fid op

def execStkScan (fid : Nat) (aux : Dma) (s : State) : Host.Outcome State Fault Refusal :=
  work s (match s.stkReady? fid 0x710 with
    | some f => s.stkSubmit f (.ok []) aux
    | none => s)

def execStkBitmap (fid : Nat) (aux : Dma) (s : State) : Host.Outcome State Fault Refusal :=
  work s (match s.stkReady? fid 0x711 with
    | some f => s.stkSubmit f (.ok []) aux
    | none => s)

def execStkAdd (fid : Nat) (rows aux : Dma) (s : State) : Host.Outcome State Fault Refusal :=
  work s (match s.stkReady? fid 0x720 with
    | some f => s.stkSubmit f rows aux
    | none => s)

def execStkReduce (fid : Nat) (s : State) : Host.Outcome State Fault Refusal :=
  work s (match s.stkReady? fid 0x721 with
    | some f => s.stkSubmit f (.ok []) (.ok [])
    | none => s)

def execStkCopy (fid : Nat) (s : State) : Host.Outcome State Fault Refusal :=
  work s (match s.stkReady? fid 0x730 with
    | some f => s.stkSubmit f (.ok []) (.ok [])
    | none => s)

def execStkFill (fid : Nat) (s : State) : Host.Outcome State Fault Refusal :=
  work s (match s.stkReady? fid 0x731 with
    | some f => s.stkSubmit f (.ok []) (.ok [])
    | none => s)

/-! ## Dispatch (R304, R313) -/

/-- The operation a stack dispatches next: of the highest class, the earliest admitted. -/
def State.nextStkOp (s : State) (i : Nat) : Option StkOp :=
  ((s.stkQueue i).filter fun o => !o.running).foldl (fun best o => match best with
    | some b => if o.cls < b.cls then some o else some b
    | none => some o) none

/-- Regions that some operands touch; none stands for pages outside region ranges, which are never open (R299). -/
def State.touchedRegions (s : State) (w : Nat) (spans : List (Nat × Nat)) : List (Option Nat) :=
  ((spans.map fun x => pagesOf x.1 x.2).flatten).map fun p => s.pageRegion w p

/-- Whether a touched region is not OPEN. -/
def State.shut (s : State) (x : Option Nat) : Bool :=
  match x with
  | some k => (s.region k).st != .opened
  | none => true

/-- The spans of the rows of an add. -/
def addSpans (f : Flight) (aux : Bytes) : List (Nat × Nat) := (List.range (f.u 20 4)).map fun j => (addRow f aux j, f.u 18 2)

/-- Whether a row of an add would end outside the stack's open regions (R310). -/
def State.addOutside (s : State) (f : Flight) (i : Nat) (aux : Bytes) : Bool :=
  hOpcode f.raw == 0x720 && (addSpans f aux).any fun x =>
    s.oneStack f.wing [x] != some i || (s.touchedRegions f.wing [x]).any s.shut

/-- Starts an operation on its regions: each bank unit gets its part (R313). -/
def State.startOp (s : State) (o : StkOp) (ks : List Nat) : State :=
  let units := (ks.map fun k => k % 64).foldl insertNew []
  let s := { s with stkOps := s.stkOps.map fun x => if x.id = o.id then { x with running := true, regions := ks } else x }
  units.foldl (fun s u =>
    let key := o.stack * 64 + u
    let l := tget [] s.unitQ key
    if l.isEmpty then s.startSlice key [o.id] else { s with unitQ := tset [] s.unitQ key (l ++ [o.id]) }) s

/-- Fixes an operation's descriptor with a status, counted in the stack's block. -/
def State.refuseOp (s : State) (o : StkOp) (st : Status) (cnt : Nat) : State :=
  let s := s.dropOps fun x => x.id == o.id
  match o.fid with
  | some fid => (s.bump (stkReg (3 * o.stack) cnt)).fixSt fid st
  | none => s

/-- The dispatch check of a descriptor's operation (R304, R310). -/
def State.dispatchOp (s : State) (o : StkOp) (f : Flight) : State :=
  let base := s.touchedRegions f.wing f.stkSpans
  if base.any s.shut then s.refuseOp o .guardedRegion 0x1070
  else if s.addOutside f o.stack o.aux then
    (s.dropOps fun x => x.id == o.id).fixSt f.fid .invalid
  else
    let all := if o.opcode = 0x720 then base ++ s.touchedRegions f.wing (addSpans f o.aux) else base
    let ks := (all.filterMap id).foldl insertNew []
    if ks.any fun k => (s.region k).held then s.refuseOp o .hostHeld 0x1078 else s.startOp o ks

/-- The dispatch check of a handoff: a region that is no longer OPEN turns it back to Score (R97, R304). -/
def State.dispatchHandoff (s : State) (o : StkOp) : State :=
  if o.regions.all fun k => (s.region k).st == .opened then s.startOp o o.regions
  else { s with stkOps := s.stkOps.map fun x => if x.id = o.id then { x with running := true, refused := true } else x }

/-- STK_OP_DISPATCH (R304, R313). -/
def execStkOpDispatch (stack : Nat) (s : State) : Host.Outcome State Fault Refusal :=
  work s (
    if isCompute stack = false ∨ s.err.fatal then s
    else
      match s.nextStkOp (stack / 3) with
      | some o =>
        match o.fid.bind s.flight? with
        | some f => if 0x710 ≤ o.opcode then s.dispatchOp o f else s.dispatchHandoff o
        | none => s.startOp o o.regions
      | none => s)

/-! ## Slices and refreshes (R314, R316) -/

/-- BANK_SLICE_END (R314): an unfinished part waits for its turn. -/
def execBankSliceEnd (stack unit : Nat) (s : State) : Host.Outcome State Fault Refusal :=
  work s (
    let key := stack / 3 * 64 + unit
    match tget [] s.unitQ key with
    | cur :: rest => if isCompute stack && decide (unit < 64) then s.endSlice key (rest ++ [cur]) else s
    | [] => s)

/-- Slices that have lasted 1,800 ns end (R314). -/
def State.endSlices (s : State) : State :=
  (s.sliceEnd.filter fun e => decide (e.2 ≤ s.cyc)).foldl (fun s e => match tget [] s.unitQ e.1 with
    | cur :: rest => s.endSlice e.1 (rest ++ [cur])
    | [] => s) s

/-- Whether a bank unit's next refresh falls due: a period after the last one did (R316). (log 138, DEDUCED) -/
def State.refreshNow (s : State) (stack key : Nat) : Bool :=
  match tfind s.refreshAt key with
  | some a => decide (a + s.refreshPeriod stack ≤ s.cyc)
  | none => true

/-- A refresh that falls due (R316): run at once in an idle unit, else owed to the slice end; the eighth cuts the slice, which resumes
after every owed refresh. -/
def State.refreshFalls (s : State) (stack key : Nat) : State :=
  let owed := tget 0 s.debt key + 1
  let s := { s with debt := tset 0 s.debt key owed }
  if (tget [] s.unitQ key).isEmpty then s.runRefresh key owed
  else if owed < 8 then s
  else
    let s := s.runRefresh key owed
    let s := { s with sliceEnd := tset 0 s.sliceEnd key (tget 0 s.sliceEnd key + refreshCyc * owed) }
    (s.bump (stkReg stack 0x10B0)).bumpBy (stkReg stack 0x10B8) (refreshCyc * owed)

/-- REFRESH_DUE (R316). -/
def execRefreshDue (stack unit : Nat) (s : State) : Host.Outcome State Fault Refusal :=
  work s (
    let key := stack / 3 * 64 + unit
    if isCompute stack = false ∨ 64 ≤ unit ∨ s.refreshNow stack key = false then s
    else
      let at_ := match tfind s.refreshAt key with
        | some a => a + s.refreshPeriod stack
        | none => s.cyc
      { s with refreshAt := tput s.refreshAt key at_ }.refreshFalls stack key)

/-! ## Effects of operations (R308 to R312) -/

/-- Bytes of records of n bytes from address a that lie beyond the region in which the record begins: they cross the bus (R293, R308). -/
def crossBytes (a n count : Nat) : Nat :=
  ((List.range count).map fun i =>
    let x := a + i * n
    if n = 0 ∨ x / 2097152 = (x + n - 1) / 2097152 then 0 else (x + n) % 2097152).foldl (· + ·) 0

/-- Score of a record from the table: the reduction of its entries (R200, R203). -/
def tableScore (table : Bytes) (codes : Nat) (sq4 : Bool) (rec_ : Bytes) : Word32 :=
  let cs := if sq4 then (List.range (2 * rec_.length)).map fun i => nibble rec_ i else rec_.map BitVec.toNat
  fReduce (cs.zipIdx.map fun p => BitVec.ofNat 32 (fld table (4 * (p.2 * codes + p.1)) 4))

/-- STK_SCAN: pairs of passing records, in ascending record index (R308). -/
def State.scanEffect (s : State) (f : Flight) (o : StkOp) : State :=
  let n := f.u 20 4
  let rec_ := f.u 18 2
  let thresh : Word32 := BitVec.ofNat 32 (f.u 24 4)
  let hits := (List.range n).filterMap fun i =>
    let x := tableScore o.aux (scanCodes f) (f.u 16 1 == 0) (s.tierBytes f.wing (f.u 32 8 + i * rec_) rec_)
    if fle thresh x then some (i, x) else none
  let out := hits.take (f.u 60 4 / 8)
  let st := stkReg (3 * o.stack)
  let s := (s.bumpBy (st 0x1048) (n * rec_)).bumpBy (st 0x1050) out.length
  let s := s.bumpBy (st 0x1068) (crossBytes (f.u 32 8) rec_ n)
  let s := s.result f 0 ((out.map fun h => natLe h.1 4 ++ natLe h.2.toNat 4).flatten)
  s.fixOk f.fid 0 (pack32 out.length (sat hits.length 32))

/-- Eight flags as a byte. -/
def packBits (l : List Bool) : Bytes :=
  (List.range (cdiv l.length 8)).map fun i =>
    BitVec.ofNat 8 (((List.range 8).map fun j => if l.getD (8 * i + j) false then 2 ^ j else 0).foldl (· + ·) 0)

/-- Bytes of a bitmap that cross the bus: a line for each bank unit, other than the line's own, that computes bits of it (R293).
(log 137, DEDUCED) -/
def State.bitmapCross (s : State) (w src dst n rec_ : Nat) : Nat :=
  let unit := fun a => (s.pageRegion w (a / pageSize)).map fun k => k % 64
  sumNat ((List.range (cdiv n 512)).map fun j =>
    let us := (List.range (min 512 (n - 512 * j))).map fun i => unit (src + (512 * j + i) * rec_)
    64 * (us.eraseDups.filter fun u => u != unit (dst + 64 * j)).length)

/-- STK_BITMAP: a bit for each record (R309). -/
def State.bitmapEffect (s : State) (f : Flight) (o : StkOp) : State :=
  let n := f.u 20 4
  let rec_ := f.u 18 2
  let cs := (chunks 16 (f.u 64 1) o.aux).map clauseOf
  let pass := (List.range n).map fun i =>
    let b := s.tierBytes f.wing (f.u 32 8 + i * rec_) rec_
    filterPasses (fun w => BitVec.ofNat 32 (fld b (4 * w) 4)) cs
  let s := s.tierPut f.wing (f.u 40 8) (slice (packBits pass) 0 (bitmapBytes n))
  let s := s.bumpBy (stkReg (3 * o.stack) 0x1068)
    (crossBytes (f.u 32 8) rec_ n + s.bitmapCross f.wing (f.u 32 8) (f.u 40 8) n rec_)
  s.fixOk f.fid 0 (pass.filter fun b => b).length

/-- One element add: the new element and whether an FX32 add wrapped (R310). -/
def addElem (fx frac : Nat) (old v : Word32) : Word32 × Bool :=
  if fx = 0 then (fadd old v, false)
  else
    let scaled := (fval v).mul (.fin false 1 frac)
    let u : Int := match scaled with
      | .nan => 0
      | .inf neg => if neg then -2147483648 else 2147483647
      | .fin neg m e =>
        let r : Int := roundScaled m 1 e
        max (-2147483648) (min 2147483647 (if neg then -r else r))
    let sum := old.toInt + u
    (BitVec.ofInt 32 sum, decide (sum < -2147483648) || decide (2147483647 < sum))

/-- Adds a row of 32-bit elements to another: the new bytes, and how many adds wrapped. -/
def addRows (fx frac : Nat) (old v : Bytes) : Bytes × Nat :=
  let r := (List.range (old.length / 4)).map fun i => addElem fx frac (f32At old (4 * i)) (f32At v (4 * i))
  ((r.map fun x => natLe x.1.toNat 4).flatten, (r.filter fun x => x.2).length)

/-- A list in an order that nothing constrains (log 3, DESIGN CHOICE); `fuel` bounds its length. -/
def shuffled {α : Type} (free : Nat) : Nat → List α → List α
  | 0, l => l
  | fuel + 1, l =>
    let i := Config.freeNat free % l.length
    match l[i]? with
    | some x => x :: shuffled (free + 1) fuel (l.eraseIdx i)
    | none => l

/-- STK_ADD: every update is added to its row; the order of FP32 adds to one element is free (R310). -/
def State.addEffect (s : State) (f : Flight) (o : StkOp) : State :=
  let n := f.u 20 4
  let rec_ := f.u 18 2
  let one := fun (s : State) j =>
    let a := addRow f o.aux j
    let r := addRows (f.u 16 1) (f.u 24 1) (s.tierBytes f.wing a rec_) (slice o.rows (j * rec_) rec_)
    let bad := (List.range (rec_ / 64)).filter fun i => s.linePoisoned f.wing (a + 64 * i)
    let s := bad.foldl (fun s i => s.poisonLine f.wing (a + 64 * i)) (s.tierPut f.wing a r.1)
    (s.bumpBy (stkReg (3 * o.stack) 0x1058) (rec_ / 4)).bumpBy (stkReg (3 * o.stack) 0x1060) r.2
  let s := (shuffled s.fresh n (List.range n)).foldl one { s with fresh := s.fresh + n }
  s.fixOk f.fid 0 0

/-- Combines two elements of a reduction: SUM, MAX or MIN in FP32 or INT32; of two equal FP32 numbers either may stand (log 3, DESIGN CHOICE). -/
def redPair (fmt op : Nat) (pickA : Bool) (a b : Word32) : Word32 :=
  if fmt = 0 then
    (if op = 0 then fadd a b else BitVec.ofNat 32 (pickFp fp32 (op == 1) pickA a.toNat b.toNat))
  else vopInt (if op = 0 then 0 else op + 2) a b 0

/-- The reduction of one region's share: SUM in FP32 under R200, the others pair by pair (R311). -/
def redShare (fmt op : Nat) (pickA : Bool) (l : List Word32) : Word32 :=
  if fmt = 0 ∧ op = 0 then fReduce (l ++ List.replicate (roundUp l.length 64 - l.length) f0)
  else match l with
    | [] => 0
    | x :: t => t.foldl (redPair fmt op pickA) x

/-- Cuts n elements from address a where regions meet: their shares as (address, elements); `fuel` bounds them. -/
def regionShares (a n : Nat) : Nat → List (Nat × Nat)
  | 0 => []
  | fuel + 1 =>
    if n = 0 then []
    else
      let m := min n (max 1 ((2097152 - a % 2097152) / 4))
      (a, m) :: regionShares (a + 4 * m) (n - m) fuel

/-- The elements of a reduction: INT32 as they stand, FP32 as values (R195, R311). -/
def redElems (fmt n : Nat) (bs : Bytes) : List Word32 := if fmt = 1 then (words32 bs).map (BitVec.ofNat 32) else fmtVec 0 n bs

/-- STK_REDUCE: per region, then over the bus in ascending region order (R311). With no element nothing constrains the result. -/
def State.reduceEffect (s : State) (f : Flight) (o : StkOp) : State :=
  let n := f.u 20 4
  let pickA := s.free % 2 == 0
  let region := fun (x : Nat × Nat) => (s.pageRegion f.wing (x.1 / pageSize)).getD 0
  let parts := sortBy (fun a b => decide (region a < region b)) (regionShares (f.u 32 8) n (n / 524288 + 2))
  let shares := parts.map fun x =>
    redShare (f.u 16 1) (f.u 24 1) pickA (redElems (f.u 16 1) x.2 (s.tierBytes f.wing x.1 (4 * x.2)))
  let r : Word32 := match shares with
    | [] => BitVec.ofNat 32 s.free
    | x :: t => t.foldl (redPair (f.u 16 1) (f.u 24 1) pickA) x
  (s.useFree.bumpBy (stkReg (3 * o.stack) 0x1068) (4 * (shares.length - 1))).fixOk f.fid 0 r.toNat

/-- Lines of a copy whose two ends lie in different units. -/
def State.copyCross (s : State) (w a b n : Nat) : Nat :=
  ((List.range (n / 64)).filter fun i =>
    (s.pageRegion w ((a + 64 * i) / pageSize)).map (fun k => k % 64) != (s.pageRegion w ((b + 64 * i) / pageSize)).map fun k => k % 64).length

/-- STK_COPY and STK_FILL write whole lines (R312). -/
def State.copyEffect (s : State) (f : Flight) (o : StkOp) : State :=
  let n := f.u 20 4
  let s := s.bumpBy (stkReg (3 * o.stack) 0x1068) (64 * s.copyCross f.wing (f.u 32 8) (f.u 40 8) n)
  (s.tierPut f.wing (f.u 40 8) (s.tierBytes f.wing (f.u 32 8) n)).fixOk f.fid 0 0

def State.fillEffect (s : State) (f : Flight) : State :=
  let n := f.u 20 4
  (s.tierPut f.wing (f.u 40 8) ((List.replicate (n / 8) (slice f.raw 24 8)).flatten)).fixOk f.fid 0 0

/-- Source operands of an operation, whose poison stops it (R298, R312). -/
def Flight.stkSources (f : Flight) (aux : Bytes) : List (Nat × Nat) :=
  let op := hOpcode f.raw
  if op = 0x720 then addSpans f aux else if op = 0x731 then [] else f.stkSpans.take 1

/-- Operands that an operation writes in place. -/
def Flight.stkTargets (f : Flight) (aux : Bytes) : List (Nat × Nat) :=
  let op := hOpcode f.raw
  if op = 0x720 then addSpans f aux else if op = 0x731 then f.stkSpans else if op = 0x710 ∨ op = 0x721 then [] else f.stkSpans.drop 1

/-- Whether hosts still own lines that an operation reads, or hold lines that it writes: it waits for them (R371). -/
def State.opWaits (s : State) (f : Flight) (o : StkOp) : Bool :=
  ((f.stkSources o.aux).any fun x => s.ownedIn f.wing x.1 x.2) || (f.stkTargets o.aux).any fun x => s.heldIn f.wing x.1 x.2

/-- Takes those lines back (R371). -/
def State.opAsks (s : State) (f : Flight) (o : StkOp) : State :=
  (f.stkTargets o.aux).foldl (fun s x => s.askHolders f.wing x.1 x.2)
    ((f.stkSources o.aux).foldl (fun s x => s.askOwners f.wing x.1 x.2) s)

/-- The effect of a running descriptor's operation: nothing on poisoned sources. (log 77, DEDUCED) -/
def State.opEffect (s : State) (f : Flight) (o : StkOp) : State :=
  let s := (s.dropOps fun x => x.id == o.id).bump (stkReg (3 * o.stack) 0x1040)
  let s := (((f.stkSpans.map fun x => pagesOf x.1 x.2).flatten).foldl insertNew []).foldl (fun s p => s.touch f.wing p) s
  match (f.stkSources o.aux).findSome? fun x => if x.2 = 0 then none else s.firstPoison f.wing x.1 x.2 with
  | some a => s.stopAt f.fid (some .poisoned) (some { tierNote s f.wing a with kind := 4, unit := 3 * o.stack })
  | none =>
    if o.opcode = 0x710 then s.scanEffect f o else if o.opcode = 0x711 then s.bitmapEffect f o
    else if o.opcode = 0x720 then s.addEffect f o else if o.opcode = 0x721 then s.reduceEffect f o
    else if o.opcode = 0x730 then s.copyEffect f o else s.fillEffect f

/-! ## The flush contract and debug (R306, R317) -/

/-- WNG_FLUSH_DONE_WRITE (R303, R306): OPEN regions of the wing's ranges that it names become CLEAN. -/
def execWngFlushDoneWrite (src wing val : Nat) (s : State) : Host.Outcome State Fault Refusal :=
  guarded s (s.wingRefused src wing 0x2200) fun s =>
    (List.range (bits val 11 0 + 1)).foldl (fun s i =>
      match s.spanRegion wing (8 * (bits val 51 21 + i)) with
      | some k => if (s.region k).st = .opened then s.setRegion k { s.region k with held := false } else s
      | none => s) s

/-- STK_REGION_SEL_WRITE (R317). -/
def execStkRegionSelWrite (src stack val : Nat) (s : State) : Host.Outcome State Fault Refusal :=
  .next (match s.setupRefused src with
    | some t => t
    | none => if isCompute stack then { s with regionSel := tset 0 s.regionSel (stack / 3) (bits val 15 0) } else s)

end Sys2Proof.Machine
end

