-- ==== Sys2Proof/Machine/Emb.lean ====
section
/-!
DEFINITION. Embedding tables (13): rows and their owners, gathers with prefetch and Pantry, updates through the compute stacks,
migrations, load records; and the completion of a stack's operations.
-/
namespace Sys2Proof.Machine
open Sys2Proof

/-! ## Rows (R321, R322, R325) -/

/-- L: local rows of a member. -/
def Emb.localRows (e : Emb) : Nat := cdiv (e.nrows - e.index) e.members

def Emb.home (e : Emb) (g : Nat) : Nat := g % e.members

/-- Hall die whose Floor holds a slot (R269, R322). -/
def Emb.slotDie (e : Emb) (slot : Nat) : Nat :=
  match e.slotRegion slot with
  | some k => regionStack k
  | none => e.slotPage slot % 4

/-- Pages of n that lie on die or stack d in turn. -/
def inTurn (n d : Nat) : Nat := (n + 3 - d) / 4

/-- The frame of a table's page: in page order with UPDATE, else those of each die in turn (R269, R322). -/
def Emb.pageFrame (e : Emb) (j : Nat) : Option FrameAt :=
  if e.update then e.frames[j]? else e.frames[sumNat ((List.range (j % 4)).map (inTurn e.pages)) + j / 4]?

/-- The slot of a row this module owns (R325). -/
def Emb.slotOf (e : Emb) (g : Nat) : Option Nat :=
  match tfind e.slots g with
  | some x => some (e.localRows + x)
  | none => if e.home g = e.index ∧ tfind e.holders g = none then some (g / e.members) else none

/-- Member that a request for a row not owned here goes to: the holder its home names, else its home (R325). -/
def Emb.nextMember (e : Emb) (g : Nat) : Nat := if e.home g = e.index then tget e.index e.holders g else e.home g

/-- Port that leads to a member. -/
def Emb.portTo (e : Emb) (m : Nat) : Nat := e.ports.getD m 0

def Emb.row (e : Emb) (slot : Nat) : Bytes := getBytes e.mem (slot * e.rb) e.rb

/-- Whether a stored row holds a poisoned line. -/
def Emb.rowBad (e : Emb) (slot : Nat) : Bool := (List.range (e.rb / 64)).any fun i => e.bad.contains (slot * e.rb / 64 + i)

/-- Overwrites a stored row; its padding stays 0, its poison clears (R321, R499). -/
def Emb.putRow (e : Emb) (slot : Nat) (bs : Bytes) : Emb :=
  let keep := slice (bs.take (embStored e.fmt e.width)) 0 e.rb
  let lo := slot * e.rb / 64
  { e with mem := putBytes e.mem (slot * e.rb) keep, bad := e.bad.filter fun k => decide (k < lo) || decide (lo + e.rb / 64 ≤ k) }

/-- Value of element i of a stored row (Table 13-3). -/
def Emb.value (e : Emb) (bs : Bytes) (i : Nat) : Word32 :=
  if e.fmt = 0 then f32At bs (4 * i)
  else if e.fmt = 1 then fOf bf16 (fld bs (2 * i) 2)
  else if e.fmt = 2 then fmul (fOfInt (sext (fld bs i 1) 8)) (f32At bs e.width)
  else fOfScaled (sext (fld bs (4 * i) 4) 32) e.frac

/-- Whether a row of a migration is still to be settled (R336). -/
def Mig.unsettled (m : Mig) (g : Nat) : Bool := m.rows.contains g && !(m.settled.contains g) && !(m.refused.contains g)

/-- Whether a row is being moved: its switch has come and it is not settled (R336). -/
def Mig.holds (m : Mig) (g : Nat) : Bool := m.switched && m.unsettled g

def Emb.moving (e : Emb) (g : Nat) : Bool := e.migs.any fun m => m.holds g

/-- A table that is ready for use: created, and not being destroyed (R322, R324). -/
def State.embAt (s : State) (key : Nat) : Option Emb := (tfind s.embs key).filter Emb.ready

/-- The table that a descriptor's HANDLE names (R319). -/
def State.embOf (s : State) (f : Flight) : Option Emb := if hHandle f.raw < 1024 then s.embAt f.obj else none

def State.modEmb (s : State) (key : Nat) (g : Emb → Emb) : State := { s with embs := tupd s.embs key g }

def State.modJob (s : State) (fid : Nat) (g : EmbJob → EmbJob) : State :=
  { s with embJobs := s.embJobs.map fun j => if j.fid = fid then g j else j }

def State.job? (s : State) (fid : Nat) : Option EmbJob := s.embJobs.find? fun j => j.fid == fid

/-- Note of a poisoned stored row (R502). -/
def Emb.noteAt (e : Emb) (handle slot : Nat) : Note :=
  { kind := 1, unit := ((e.pageFrame (e.slotPage slot)).map FrameAt.stack).getD (3 * e.slotDie slot), handle }

/-- Note of a poisoned row of a descriptor's table. -/
def State.rowNote (s : State) (f : Flight) (g : Nat) : Note :=
  match tfind s.embs f.obj with
  | some e => e.noteAt (hHandle f.raw) ((e.slotOf g).getD 0)
  | none => { handle := hHandle f.raw }

/-! ## EMB_CREATE, EMB_WRITE, EMB_DESTROY (R319 to R324) -/

/-- The table an EMB_CREATE defines (Table 13-2). -/
def embOfFields (f : Flight) : Emb :=
  { fmt := f.u 16 1, update := bit (f.u 17 1) 0, frac := f.u 18 1, members := f.u 19 1, index := f.u 20 1, width := f.u 22 2
    nrows := f.u 24 4, migSlots := f.u 28 4, ports := (List.range (f.u 19 1)).map fun i => f.u (32 + i) 1 }

/-- Ranges of Table 13-2. (log 80, DEDUCED) -/
def createFieldsOk (f : Flight) : Bool :=
  let e := embOfFields f
  let others := ((List.range e.members).filter fun i => i != e.index).map e.portTo
  f.zero [(21, 1), (39, 89)] && decide (hHandle f.raw < 1024) && decide (e.fmt ≤ 3) && decide (f.u 17 1 ≤ 1)
    && (!e.update || e.fmt == 0 || e.fmt == 3) && (if e.fmt = 3 then decide (e.frac ≤ 31) else e.frac == 0)
    && inside 1 7 e.members && decide (e.index < e.members) && inside 16 1024 e.width && e.width % 16 == 0
    && decide (1 ≤ e.nrows) && decide (e.migSlots ≤ 65536) && e.portTo e.index == 0xFF && others.all (fun p => decide (p ≤ 5))
    && decide (others.eraseDups.length = others.length) && (List.range 7).all fun i => decide (i < e.members) || f.u (32 + i) 1 == 0

/-- Whole regions for a table's pages, in turn over the four compute stacks, and the pages in each stack (R322).
(log 80, DEDUCED) -/
def State.embRegions (s : State) (w pages : Nat) : Option (List Nat) :=
  let n := cdiv pages 8
  let per := (List.range 4).map fun i => s.freeRegions w i (inTurn n i)
  if per.all Option.isSome then
    some ((List.range n).filterMap fun j => ((per.getD (j % 4) none).getD [])[j / 4]?)
  else none

/-- Frames of n pages in some regions, eight to a region. -/
def framesIn (w : Nat) (ks : List Nat) (n : Nat) : List FrameAt :=
  (List.range n).map fun j => regionFrame w (ks.getD (j / 8) 0) (j % 8)

/-- EMB_CREATE of a table with UPDATE: whole regions, and the check pass that opens them (R296, R322). The table is there, and not
ready, until the pass ends. (log 80, DEDUCED) -/
def State.createOpen (s : State) (f : Flight) (e : Emb) (pages : Nat) : State :=
  match s.embRegions f.wing pages with
  | none => s.fixSt f.fid .noResource
  | some ks =>
    let frames := framesIn f.wing ks pages
    match s.allocAt f.wing frames with
    | none => s.fixSt f.fid .noResource
    | some t =>
      if !(s.openRoom ks) then s.fixSt f.fid .noResource
      else
        let r : Region := { st := .opening, internal := true, wing := f.wing }
        let t := ks.foldl (fun t k => t.setRegion k r) t
        let job : RegionJob := { fid := f.fid, sealing := false, left := ks, changed := ks.length, table := some f.obj }
        { (t.admitNow f.fid) with
          embs := tput t.embs f.obj { e with pages, frames, regions := ks, ready := false }, regionJobs := t.regionJobs ++ [job] }

/-- EMB_CREATE (R319, R322). -/
def State.embCreate (s : State) (f : Flight) : State :=
  if !(createFieldsOk f) || (tfind s.embs f.obj).isSome then s.fixSt f.fid .invalid
  else if 1024 ≤ s.embs.length then s.fixSt f.fid .noResource
  else
    let e := embOfFields f
    let pages := cdiv (e.localRows + e.migSlots) e.q
    if e.update then s.createOpen f e pages
    else
      match s.allocInternal f.wing ((List.range 4).map fun d => (dieStacks d, inTurn pages d)) with
      | none => s.fixSt f.fid .noResource
      | some (t, frames) => ({ t with embs := tput t.embs f.obj { e with pages, frames } }.admitNow f.fid).fixOk f.fid 0 0

def execEmbCreate (fid : Nat) (s : State) : Host.Outcome State Fault Refusal :=
  work s (match s.ready? fid 0x400 with
    | some f => s.embCreate f
    | none => s)

/-- The rows and updates that an operation of an update carries: 4-byte row indices, and 4W bytes for each. -/
def opAdds (o : StkOp) (w : Nat) : List (Nat × Bytes) :=
  (List.range (o.aux.length / 4)).map fun i => (fld o.aux (4 * i) 4, slice o.rows (4 * w * i) (4 * w))

/-- Global row of a local slot. -/
def Emb.rowAt (e : Emb) (slot : Nat) : Nat := e.index + slot * e.members

/-- Whether adds to some local rows of a table are under way: queued, or waiting for a migration (R323). -/
def State.addsRun (s : State) (key : Nat) (e : Emb) (first n : Nat) : Bool :=
  let mine := fun (x : Nat × Bytes) => e.home x.1 == e.index && decide (first ≤ x.1 / e.members) && decide (x.1 / e.members < first + n)
  (s.stkOps.any fun o => o.opcode == 0x420 && o.key == key && (opAdds o e.width).any mine)
    || s.embJobs.any fun j => j.key == key && !j.gather && j.parked.any mine

/-- Overwrites local rows. A row that is away keeps its new value in its slot for the day it comes back (R323). (log 136, DEDUCED) -/
def Emb.putRows (e : Emb) (first n : Nat) (bs : Bytes) : Emb :=
  let away := ((List.range n).map fun i => first + i).filter fun x => e.slotOf (e.rowAt x) != some x || e.moving (e.rowAt x)
  let t := (List.range n).foldl (fun e i => e.putRow (first + i) (slice bs (i * e.rb) e.rb)) e
  { t with written := away.foldl insertNew e.written }

/-- EMB_WRITE: waits for the adds admitted before it, then overwrites the rows (R323). -/
def State.embWrite (s : State) (f : Flight) (src : Dma) : State :=
  match s.embOf f with
  | none => s.fixSt f.fid .invalid
  | some e =>
    let first := f.u 20 4
    let n := f.u 24 4
    if !(f.zero [(16, 1), (18, 2), (28, 4), (48, 80)]) || decide (1 < f.u 17 1) || decide (e.localRows < first + n)
        || f.u 40 8 != n * e.rb || !(aligned64 (f.u 32 8)) then s.fixSt f.fid .invalid
    else if s.addsRun f.obj e first n then s
    else
      let r := s.readSrc f (f.u 17 1) (f.u 32 8) (f.u 40 8) src 0
      match r.2 with
      | .stop st n => r.1.stopAt f.fid st n
      | .bytes bs =>
        let t := r.1.modEmb f.obj fun e => e.putRows first n bs
        let t := { t with
          prefRows := t.prefRows.filter fun p => !(p.wing == f.wing && p.key == f.obj && (match e.slotOf p.row with
            | some x => decide (first ≤ x) && decide (x < first + n)
            | none => false)) }
        (t.admitNow f.fid).fixOk f.fid 0 0

def execEmbWrite (fid : Nat) (src : Dma) (s : State) : Host.Outcome State Fault Refusal :=
  work s (match s.ready? fid 0x401 with
    | some f => s.embWrite f src
    | none => s)

/-! ## Load counts (R338) -/

def Load.served (l : Load) : Load := { l with gathers := l.gathers + 1 }
def Load.addedRow (l : Load) : Load := { l with adds := l.adds + 1 }
def Load.passed (l : Load) : Load := { l with forwarded := l.forwarded + 1 }

/-- A row this module owns was gathered. (log 81, DEDUCED) -/
def Emb.countGather (e : Emb) (g : Nat) : Emb := { e with now := e.now.served, hot := tset 0 e.hot g (tget 0 e.hot g + 1) }

/-- A row this module owns was added to. (log 81, DEDUCED) -/
def Emb.countAdd (e : Emb) (g : Nat) : Emb := { e with now := e.now.addedRow, hot := tset 0 e.hot g (tget 0 e.hot g + 1) }

def Emb.countForward (e : Emb) : Emb := { e with now := e.now.passed }

/-! ## Forwarding (R325, R326) -/

/-- Sends a row read or a row add to another member, in a class; answers with its tag. -/
def State.sendRow (s : State) (wing cls colour p key g typ : Nat) (fid : Option Nat) (relay : Option (Nat × Frame)) (payload : Bytes)
    (deadline : Nat) : State × Nat :=
  let t := s.takeTag p
  let r : BpReq := { tag := t.2, typ, fid, wing, chan := cls, args := natLe (key % 65536) 4 ++ natLe g 4, payload, relay }
  ((t.1.sendRequest p r colour deadline true).bump (wngReg wing 0x2370), t.2)

/-- Forwards a row of a descriptor. -/
def State.forwardRow (s : State) (f : Flight) (e : Emb) (g typ : Nat) (payload : Bytes) : State :=
  let p := e.portTo (e.nextMember g)
  let t := s.sendRow f.wing f.cls f.colour p f.obj g typ (some f.fid) none payload (s.usLeft f.fid)
  (t.1.modEmb f.obj Emb.countForward).modJob f.fid fun j => { j with waits := j.waits ++ [(p, t.2, g)], forwarded := j.forwarded + 1 }

/-! ## Gathers (R327 to R330) -/

/-- Bytes of an output row of a gather. -/
def Emb.outBytes (e : Emb) (fmt : Nat) : Nat := if fmt = 2 then e.rb else roundUp (e.width * fmtBytes fmt) 64

/-- Outputs of a gather. -/
def gatherOuts (f : Flight) : Nat := if f.u 18 1 ≤ 1 then f.u 20 4 else f.u 20 4 / f.u 18 1

/-- Fields of a gather (Table 13-4). -/
def gatherFieldsOk (f : Flight) (e : Emb) : Bool :=
  let opts := f.u 17 1
  let bag := f.u 18 1
  f.zero [(28, 4), (52, 4), (64, 64)] && decide (f.u 16 1 ≤ 2) && decide (opts < 4) && decide (bag ≤ 64)
    && inside 1 65536 (f.u 20 4) && (decide (bag < 2) || f.u 20 4 % bag == 0) && (decide (bag < 2) || f.u 16 1 != 2)
    && decide (f.u 24 4 ≤ 65536) && (bit opts 1 || f.u 24 4 == 0) && decide (f.u 19 1 ≤ 2) && aligned64 (f.u 32 8)
    && (f.u 19 1 != 2 || (f.u 32 8 == 0 && !(bit opts 1))) && aligned64 (f.u 40 8) && aligned64 (f.u 56 8)
    && decide (gatherOuts f * e.outBytes (f.u 16 1) ≤ f.u 48 4)

/-- Distinct elements, in order of first occurrence. (log 81, DEDUCED) -/
def eachOnce (l : List Nat) : List Nat := l.foldl insertNew []

/-- Which gather of its table a descriptor's is. -/
def State.turnOf (s : State) (fid : Nat) : Nat := ((s.job? fid).map EmbJob.turn).getD 0

/-- Takes a row that the gather of this table admitted before this one prefetched (R330). -/
def State.takePref (s : State) (f : Flight) (g : Nat) : Option (State × Bytes) :=
  match s.prefRows.find? fun p => p.wing == f.wing && p.key == f.obj && p.row == g && p.turn + 1 == s.turnOf f.fid with
  | some p => some ({ s with prefRows := s.prefRows.filter fun x => x != p }.bump (wngReg f.wing 0x2358), p.bytes)
  | none => none

def State.gotRow (s : State) (fid g : Nat) (bs : Bytes) : State := s.modJob fid fun j => { j with got := tput j.got g bs }

/-- Counts a row that a gather was served, when this module owns it (R338). -/
def State.served (s : State) (f : Flight) (e : Emb) (g : Nat) : State :=
  if (e.slotOf g).isSome then s.modEmb f.obj fun e => e.countGather g else s

/-- A row of a gather from where its value is: the Pantry, the prefetch buffer, the local slot, another member; or it waits for a
migration (R325, R328, R330, R332, R336). -/
def State.gatherRow (s : State) (f : Flight) (g : Nat) : State :=
  match s.embOf f with
  | none => s
  | some e =>
    match (if bit (f.u 17 1) 0 && e.pantry.contains g then tfind e.copies g else none) with
    | some bs =>
      (((s.served f e g).gotRow f.fid g bs).modJob f.fid fun j => { j with pantry := j.pantry + 1 }).bump (wngReg f.wing 0x2348)
    | none =>
      match s.takePref f g with
      | some (t, bs) => (t.served f e g).gotRow f.fid g bs
      | none =>
        if e.moving g then s.modJob f.fid fun j => { j with parked := j.parked ++ [(g, [])] }
        else
          match e.slotOf g with
          | some slot =>
            if e.rowBad slot then s.stopAt f.fid (some .poisoned) (some (s.rowNote f g))
            else (s.served f e g).gotRow f.fid g (e.row slot)
          | none => s.forwardRow f e g 0x310 []

/-- Prefetch buffer in use on a die, by a wing or by all. -/
def State.prefUse (s : State) (die : Nat) (wing : Option Nat) : Nat :=
  ((s.prefRows.filter fun p => p.die == die && (match wing with
    | some w => p.wing == w
    | none => true)).map fun p => p.bytes.length).foldl (· + ·) 0

/-- Puts a row into a die's prefetch buffer, or counts it as short (R330). -/
def State.putPref (s : State) (f : Flight) (die g : Nat) (bs : Bytes) : State :=
  let share := 65536 * bits (s.reg (wngReg f.wing 0x2308)) 23 16
  if profEmbBricks s.prof = 0 ∨ s.prefUse die none + bs.length > 8388608 ∨ s.prefUse die (some f.wing) + bs.length > share then
    s.bump (wngReg f.wing 0x2360)
  else
    let p : PrefRow := { die, wing := f.wing, key := f.obj, row := g, bytes := bs, turn := s.turnOf f.fid }
    { s with prefRows := s.prefRows ++ [p] }.bump (wngReg f.wing 0x2350)

/-- Prefetches a row that a gather's NEXT list names (R330). (log 81, DEDUCED) -/
def State.prefetchRow (s : State) (f : Flight) (g : Nat) : State :=
  match s.embOf f with
  | none => s
  | some e =>
    if profEmbBricks s.prof = 0 then s.bump (wngReg f.wing 0x2360)
    else if e.moving g then s
    else
      match e.slotOf g with
      | some slot => if e.rowBad slot then s else s.putPref f (e.slotDie slot) g (e.row slot)
      | none =>
        if e.update then s
        else
          let p := e.portTo (e.nextMember g)
          let t := s.sendRow f.wing f.cls f.colour p f.obj g 0x310 (some f.fid) none [] (s.usLeft f.fid)
          (t.1.modEmb f.obj Emb.countForward).modJob f.fid fun j =>
            { j with waits := j.waits ++ [(p, t.2, g)], next := j.next ++ [(p, t.2)] }

/-- The bytes of an output: a stored row, or elements in FP32 or BF16, padded to 64 bytes (R327, R328). -/
def Emb.outRow (e : Emb) (fmt : Nat) (rows : List Bytes) : Bytes :=
  match rows with
  | [] => []
  | r :: t =>
    if fmt = 2 then r
    else
      let elems := (List.range e.width).map fun i => (t.foldl (fun acc x => fadd acc (e.value x i)) (e.value r i))
      slice ((elems.map fun x => if fmt = 0 then natLe x.toNat 4 else natLe (fTo bf16 x) 2).flatten) 0 (e.outBytes fmt)

/-- All outputs of a gather from its rows. -/
def gatherBytes (f : Flight) (e : Emb) (j : EmbJob) : Bytes :=
  let bag := max 1 (f.u 18 1)
  ((List.range (gatherOuts f)).map fun o =>
    e.outRow (f.u 16 1) ((((j.idx.drop (o * bag)).take bag)).map fun g => tget [] j.got g)).flatten

/-- Completes a gather that has every row, or an update whose adds are all applied (R326, R328, R334). -/
def State.embFinish (s : State) (fid : Nat) : State :=
  match s.job? fid, s.flight? fid with
  | some j, some f =>
    if j.ops ≠ 0 ∨ j.waits ≠ [] ∨ j.parked ≠ [] then s
    else
      match s.embOf f with
      | none => s
      | some e =>
        if j.gather then
          let s := s.result f 0 (gatherBytes f e j)
          let s := s.bumpBy (wngReg f.wing 0x2340) j.got.length
          s.fix fid { count := min (gatherOuts f) 65535, result := pack32 j.pantry j.forwarded }
        else s.fix fid { result := pack32 j.added j.forwarded }
  | _, _ => s

/-- Admits a gather: reads issued first, then the prefetch (R328, R330). -/
def State.startGather (s : State) (f : Flight) (e : Emb) (idx next : List Nat) : State :=
  let job : EmbJob := { fid := f.fid, key := f.obj, gather := true, idx, turn := e.turn + 1 }
  let s := { (s.admitNow f.fid) with embJobs := s.embJobs ++ [job] }.modEmb f.obj fun e => { e with turn := e.turn + 1 }
  let s := (eachOnce idx).foldl (fun s g => s.gatherRow f g) s
  ((eachOnce next).foldl (fun s g => s.prefetchRow f g) s).embFinish f.fid

/-- EMB_GATHER (R327 to R330). -/
def State.embGather (s : State) (f : Flight) (idx next : Dma) : State :=
  match s.embOf f with
  | none => s.fixSt f.fid .invalid
  | some e =>
    if !(gatherFieldsOk f e) then s.fixSt f.fid .invalid
    else
      let n := f.u 20 4
      let r := s.readSrc f (f.u 19 1) (f.u 32 8) (4 * n) idx 0
      match r.2 with
      | .stop st n => r.1.stopAt f.fid st n
      | .bytes bs =>
        let q := r.1.readSrc f (f.u 19 1) (f.u 56 8) (4 * f.u 24 4) next 0
        match q.2 with
        | .stop st n => q.1.stopAt f.fid st n
        | .bytes nb =>
          let is := words32 bs
          let ns := words32 nb
          if !((is ++ ns).all fun g => decide (g < e.nrows)) || (f.u 19 1 == 2 && !(zeroAt f.cont (4 * n) (128 * entriesOf (4 * n) - 4 * n)))
          then q.1.fixSt f.fid .invalid
          else q.1.startGather f e is ns

def execEmbGather (fid : Nat) (idx next : Dma) (s : State) : Host.Outcome State Fault Refusal :=
  work s (match s.ready? fid 0x410 with
    | some f => s.embGather f idx next
    | none => s)

/-! ## Updates (R310, R315, R334) -/

/-- Mode of a table's adds: 0 FP32, 1 FX32. -/
def Emb.fx (e : Emb) : Nat := if e.fmt = 3 then 1 else 0

/-- Adds an update row to an owned row: counted, its prefetched copies dropped; none when the row is poisoned (R310, R330, R498).
(log 82, DEDUCED) -/
def State.addToRow (s : State) (key wing g : Nat) (v : Bytes) : Option State :=
  match tfind s.embs key with
  | none => some s
  | some e =>
    match e.slotOf g with
    | none => some s
    | some slot =>
      if e.rowBad slot then none
      else
        let r := addRows e.fx e.frac ((e.row slot).take (4 * e.width)) v
        let st := 3 * ((e.slotRegion slot).map regionStack).getD 0
        let s := s.modEmb key fun e => (e.putRow slot r.1).countAdd g
        let s := { s with prefRows := s.prefRows.filter fun p => !(p.wing == wing && p.key == key && p.row == g) }
        some (((s.bump (wngReg wing 0x2368)).bumpBy (stkReg st 0x1058) e.width).bumpBy (stkReg st 0x1060) r.2)

/-- Applies adds to rows of one table, in a free order; a poisoned row stops its descriptor with POISONED (R310, R498).
(log 82, DEDUCED) -/
def State.applyAdds (s : State) (f : Flight) (l : List (Nat × Bytes)) : State :=
  (shuffled s.fresh l.length l).foldl (fun s x => match s.addToRow f.obj f.wing x.1 x.2 with
    | some t => t
    | none => s.stopAt f.fid (some .poisoned) (some (s.rowNote f x.1))) { s with fresh := s.fresh + l.length }

/-- Sends adds to one stack's queue; when it is full, bricks of the module run them, and the completion carries DEGRADED (R315). -/
def State.queueAdds (s : State) (f : Flight) (e : Emb) (i : Nat) (l : List (Nat × Bytes)) : State :=
  if l.isEmpty then s
  else if 1024 ≤ (s.stkQueue i).length ∧ hasModuleBricks s.prof = true then
    ((s.applyAdds f l).bump (stkReg (3 * i) 0x10A0)).modFlight f.fid fun f => { f with degraded := true }
  else
    let ks := eachOnce (l.filterMap fun x => (e.slotOf x.1).bind e.slotRegion)
    let op : StkOp :=
      { id := s.nextId, stack := i, fid := some f.fid, opcode := 0x420, wing := f.wing, cls := f.cls, regions := ks, key := f.obj
        aux := (l.map fun x => natLe x.1 4).flatten, rows := (l.map fun x => x.2).flatten }
    { (s.modJob f.fid fun j => { j with ops := j.ops + 1 }) with stkOps := s.stkOps ++ [op], nextId := s.nextId + 1 }

/-- Adds of a descriptor to rows that this module owns, by the stacks that hold them. -/
def State.addLocal (s : State) (f : Flight) (e : Emb) (l : List (Nat × Bytes)) : State :=
  let s := s.modJob f.fid fun j => { j with added := j.added + l.length }
  (List.range 4).foldl (fun s i =>
    s.queueAdds f e i (l.filter fun x => ((e.slotOf x.1).bind e.slotRegion).map regionStack == some i)) s

/-- Bytes of an update row in the source. -/
def updBytes (f : Flight) (e : Emb) : Nat := roundUp (e.width * (if f.u 16 1 = 0 then 4 else 2)) 64

/-- Fields of an EMB_UPDATE (R334). -/
def updateFieldsOk (f : Flight) (e : Emb) : Bool :=
  f.zero [(18, 2), (24, 8), (48, 80)] && e.update && decide (f.u 16 1 ≤ 1) && decide (f.u 17 1 ≤ 1) && inside 1 65536 (f.u 20 4)
    && aligned64 (f.u 32 8) && f.u 40 8 == roundUp (4 * f.u 20 4) 64 + f.u 20 4 * updBytes f e

/-- The update rows of a source as (row, FP32 elements). -/
def updRows (f : Flight) (e : Emb) (bs : Bytes) : List (Nat × List Word32) :=
  let n := f.u 20 4
  let base := roundUp (4 * n) 64
  let fmt := f.u 16 1
  (List.range n).map fun j => (fld bs (4 * j) 4, fmtVec fmt e.width (slice bs (base + j * updBytes f e) (updBytes f e)))

/-- Whether the queues of the stacks that hold some rows can take their adds, or bricks run what finds no room (R313, R315). -/
def State.addRoom (s : State) (e : Emb) (rows : List Nat) : Bool :=
  hasModuleBricks s.prof || (rows.filter fun g => !(e.moving g)).all fun g => match (e.slotOf g).bind e.slotRegion with
    | some k => decide ((s.stkQueue (regionStack k)).length < 1024)
    | none => true

/-- Admits an update: rows in migration wait, owned rows go to the stacks, the others to their owners. (log 82, DEDUCED) -/
def State.startUpdate (s : State) (f : Flight) (e : Emb) (l : List (Nat × Bytes)) : State :=
  let job : EmbJob := { fid := f.fid, key := f.obj, gather := false, parked := l.filter fun x => e.moving x.1 }
  let s := { (s.admitNow f.fid) with embJobs := s.embJobs ++ [job] }
  let free := l.filter fun x => !(e.moving x.1)
  let s := s.addLocal f e (free.filter fun x => (e.slotOf x.1).isSome)
  ((free.filter fun x => (e.slotOf x.1).isNone).foldl (fun s x => s.forwardRow f e x.1 0x311 x.2) s).embFinish f.fid

/-- EMB_UPDATE (R334). -/
def State.embUpdate (s : State) (f : Flight) (src : Dma) : State :=
  match s.embOf f with
  | none => s.fixSt f.fid .invalid
  | some e =>
    if !(updateFieldsOk f e) then s.fixSt f.fid .invalid
    else
      let r := s.readSrc f (f.u 17 1) (f.u 32 8) (f.u 40 8) src 0
      match r.2 with
      | .stop st n => r.1.stopAt f.fid st n
      | .bytes bs =>
        let l := updRows f e bs
        if !(l.all fun x => decide (x.1 < e.nrows) && allFinite x.2) then r.1.fixSt f.fid .invalid
        else if !(s.addRoom e (l.map Prod.fst)) then r.1
        else r.1.startUpdate f e (l.map fun x => (x.1, (x.2.map fun v => natLe v.toNat 4).flatten))

def execEmbUpdate (fid : Nat) (src : Dma) (s : State) : Host.Outcome State Fault Refusal :=
  work s (match s.ready? fid 0x420 with
    | some f => s.embUpdate f src
    | none => s)

/-! ## The Pantry (R331 to R333) -/

/-- Bytes of Pantry a table holds or will hold. -/
def Emb.pantryBytes (e : Emb) : Nat := ((e.sets.map fun x => x.rows.length).foldl max e.pantry.length) * e.rb

/-- Bytes of Pantry of a wing, but for one table. -/
def State.pantryUse (s : State) (w : Nat) (but : Option Nat) : Nat :=
  ((s.embs.filter fun x => x.1 / 65536 == w && some x.1 != but).map fun x => x.2.pantryBytes).foldl (· + ·) 0

/-- Bytes of Pantry brick store that a wing holds: its copies (Table 13-8). -/
def State.pantryHeld (s : State) (w : Nat) : Nat :=
  sumNat ((s.embs.filter fun x => x.1 / 65536 == w).map fun x => x.2.copies.length * x.2.rb)

/-- PANTRY_SET (R331). -/
def State.pantrySet (s : State) (f : Flight) (src : Dma) : State :=
  match s.embOf f with
  | none => s.fixSt f.fid .invalid
  | some e =>
    let n := f.u 20 4
    let beat := f.u 28 8
    if !(f.zero [(16, 1), (18, 2), (36, 4), (56, 72)]) || decide (1 < f.u 17 1) || decide (65536 < n) || !(inside 1 65535 (f.u 24 4))
        || f.u 48 8 != roundUp (4 * n) 64 || !(aligned64 (f.u 40 8)) then s.fixSt f.fid .invalid
    else
      match s.beatRefusal beat with
      | some st => s.fixSt f.fid st
      | none =>
        if e.sets.any fun x => decide (beat ≤ x.beat) then s.fixSt f.fid .invalid
        else if s.pantryUse f.wing (some f.obj) + n * e.rb > 65536 * bits (s.reg (wngReg f.wing 0x2308)) 15 0 then
          s.fixSt f.fid .noResource
        else
          let r := s.readSrc f (f.u 17 1) (f.u 40 8) (f.u 48 8) src 0
          match r.2 with
          | .stop st n => r.1.stopAt f.fid st n
          | .bytes bs =>
            let rows := (words32 bs).take n
            if !(rows.all fun g => decide (g < e.nrows)) then r.1.fixSt f.fid .invalid
            else
              let set : PantrySet := { beat, period := f.u 24 4, rows }
              let t := (r.1.modEmb f.obj fun e => { e with sets := e.sets ++ [set] }).schedule beat (.pantry f.obj)
              (t.admitNow f.fid).fixOk f.fid 0 0

def execPantrySet (fid : Nat) (src : Dma) (s : State) : Host.Outcome State Fault Refusal :=
  work s (match s.ready? fid 0x430 with
    | some f => s.pantrySet f src
    | none => s)

/-- At its beat a set replaces the table's list and period (R331). -/
def Emb.applySet (e : Emb) (beat : Nat) : Emb :=
  match e.sets.find? fun x => x.beat == beat with
  | some x => { e with pantry := x.rows, period := x.period, pantryFrom := some beat, sets := e.sets.filter fun y => y.beat != beat }
  | none => e

/-- A row as it is once every add admitted so far is applied (R332, R336). -/
def State.settledRow (s : State) (key : Nat) (e : Emb) (g slot : Nat) : Bytes :=
  let adds := ((s.stkOps.filter fun o => o.opcode == 0x420 && o.key == key).map fun o =>
    (opAdds o e.width).filter fun x => x.1 == g).flatten
  slice (adds.foldl (fun row x => (addRows e.fx e.frac (row.take (4 * e.width)) x.2).1) (e.row slot)) 0 e.rb

/-- A refresh copies every listed row that this module owns (R332); a poisoned row is not held. -/
def State.pantryRefresh (s : State) (key : Nat) : State :=
  match tfind s.embs key with
  | none => s
  | some e =>
    let copies := (eachOnce e.pantry).foldl (fun (t : Tab Bytes) g => match e.slotOf g with
      | some slot => if e.rowBad slot || e.moving g then t else tput t g (s.settledRow key e g slot)
      | none => t) []
    s.modEmb key fun e => { e with copies }

/-- Whether a beat is one of the table's refresh beats (R332). -/
def Emb.refreshAt (e : Emb) (n : Nat) : Bool :=
  match e.pantryFrom with
  | some b => decide (b ≤ n) && (n - b) % e.period == 0
  | none => false

/-! ## Migration (R335 to R337) -/

/-- Whether a row is of one of the two kinds that may move between this member and a peer, in a direction (R335). -/
def Emb.canMove (e : Emb) (out : Bool) (peer g : Nat) : Bool :=
  decide (g < e.nrows) &&
    (if out then (e.slotOf g).isSome && (e.home g == e.index || e.home g == peer)
     else (e.home g == peer && tfind e.slots g == none) || (e.home g == e.index && tfind e.holders g == some peer))

/-- Migration slots that are taken or promised. -/
def Emb.slotsTaken (e : Emb) : Nat :=
  e.slots.length + ((e.migs.filter fun m => !m.out).map fun m => (m.rows.filter fun g =>
    e.home g == m.peer && !(m.settled.contains g) && !(m.refused.contains g)).length).foldl (· + ·) 0

/-- Holders that this home names or will name. -/
def Emb.holdersNamed (e : Emb) : Nat :=
  e.holders.length + ((e.migs.filter fun m => m.out).map fun m => (m.rows.filter fun g =>
    e.home g == e.index && !(m.settled.contains g) && !(m.refused.contains g)).length).foldl (· + ·) 0

/-- EMB_MIGRATE (R335). -/
def State.embMigrate (s : State) (f : Flight) (src : Dma) : State :=
  match s.embOf f with
  | none => s.fixSt f.fid .invalid
  | some e =>
    let out := f.u 16 1 == 0
    let peer := f.u 17 1
    let n := f.u 20 4
    if !(f.zero [(19, 1), (48, 80)]) || decide (1 < f.u 16 1) || decide (e.members ≤ peer) || peer == e.index || decide (1 < f.u 18 1)
        || !(inside 1 4096 n) || f.u 40 8 != roundUp (4 * n) 64 || !(aligned64 (f.u 32 8)) then s.fixSt f.fid .invalid
    else
      let r := s.readSrc f (f.u 18 1) (f.u 32 8) (f.u 40 8) src 0
      match r.2 with
      | .stop st n => r.1.stopAt f.fid st n
      | .bytes bs =>
        let rows := eachOnce ((words32 bs).take n)
        if !(rows.all (e.canMove out peer)) then r.1.fixSt f.fid .invalid
        else
          match r.1.beatRefusal (f.u 24 8) with
          | some st => r.1.fixSt f.fid st
          | none =>
            let slots := (rows.filter fun g => e.home g == peer).length
            let names := (rows.filter fun g => e.home g == e.index).length
            if (!out && decide (e.migSlots < e.slotsTaken + slots)) || (out && decide (65536 < e.holdersNamed + names)) then
              r.1.fixSt f.fid .noResource
            else
              let m : Mig := { fid := f.fid, out, peer, rows, beat := f.u 24 8 }
              ((r.1.modEmb f.obj fun e => { e with migs := e.migs ++ [m] }).schedule (f.u 24 8) (.migrate f.fid)).admitNow f.fid

def execEmbMigrate (fid : Nat) (src : Dma) (s : State) : Host.Outcome State Fault Refusal :=
  work s (match s.ready? fid 0x440 with
    | some f => s.embMigrate f src
    | none => s)

/-- The migration of a descriptor, with its table's key. -/
def State.migOf (s : State) (fid : Nat) : Option (Nat × Emb × Mig) :=
  s.embs.findSome? fun x => (x.2.migs.find? fun m => m.fid == fid).map fun m => (x.1, x.2, m)

def Emb.modMig (e : Emb) (fid : Nat) (g : Mig → Mig) : Emb := { e with migs := e.migs.map fun m => if m.fid = fid then g m else m }

/-- Completes a migration whose rows are all settled (R337). -/
def State.endMig (s : State) (fid : Nat) : State :=
  match s.migOf fid with
  | some (key, _, m) =>
    if m.settled.length + m.refused.length < m.rows.length then s
    else
      let s := s.modEmb key fun e => { e with migs := e.migs.filter fun x => x.fid != fid }
      s.fixOk fid 0 (pack32 m.settled.length m.refused.length)
  | none => s

/-- What waited for a row that is settled goes on: descriptors of this module (R336). -/
def State.unpark (s : State) (key g : Nat) : State :=
  s.embJobs.foldl (fun s j =>
    if j.key = key ∧ (j.parked.any fun x => x.1 == g) = true then
      match s.flight? j.fid with
      | some f =>
        let mine := j.parked.filter fun x => x.1 == g
        let s := s.modJob j.fid fun j => { j with parked := j.parked.filter fun x => x.1 != g }
        let s := if j.gather then s.gatherRow f g
          else
            match s.embOf f with
            | some e =>
              if (e.slotOf g).isSome then s.addLocal f e mine
              else mine.foldl (fun s x => s.forwardRow f e g 0x311 x.2) s
            | none => s
        s.embFinish j.fid
      | none => s
    else s) s

/-- A row of a migration is settled: moved or refused; the directory changes with it (R336, R337). The new row comes with an in side; a
write that waited for its return stands instead (R323). (log 136, DEDUCED) -/
def State.settleRow (s : State) (fid g : Nat) (moved : Bool) (row : Bytes) : State :=
  match s.migOf fid with
  | none => s
  | some (key, e, m) =>
    let wing := key / 65536
    let isHome := e.home g == e.index
    let kept := e.written.contains (g / e.members)
    let asIs := fun (e : Emb) => { e with written := e.written.filter fun x => !(isHome && x == g / e.members) }
    let freeSlot := leastOf ((List.range e.migSlots).filter fun x => !(e.slots.any fun y => y.2 == x))
    let take := fun (e : Emb) =>
      if m.out then
        (if isHome then { e with holders := tput e.holders g m.peer } else { e with slots := tdel e.slots g })
      else if isHome then
        (let e := asIs { e with holders := tdel e.holders g }
         if kept then e else e.putRow (g / e.members) row)
      else
        match freeSlot with
        | some x => { e with slots := tput e.slots g x }.putRow (e.localRows + x) row
        | none => e
    let s := { s with prefRows := s.prefRows.filter fun p => !(moved && p.key == key && p.row == g) }
    let s := s.modEmb key fun e => (if moved then take e else if m.out then asIs e else e).modMig fid fun m =>
      if moved then { m with settled := m.settled ++ [g] } else { m with refused := m.refused ++ [g] }
    let s := s.bump (wngReg wing (if moved then 0x2378 else 0x2380))
    (s.unpark key g).endMig fid

/-- Applies the queued adds to some rows of a table, in a free order; they leave their operations (R310, R336). Those to a poisoned row
stay queued. -/
def State.applyEarly (s : State) (key : Nat) (e : Emb) (rows : List Nat) : State :=
  let now := fun (x : Nat × Bytes) => rows.contains x.1 && match e.slotOf x.1 with
    | some slot => !(e.rowBad slot)
    | none => false
  let mine := fun (o : StkOp) => o.opcode == 0x420 && o.key == key
  let adds := ((s.stkOps.filter mine).map fun o => (opAdds o e.width).filter now).flatten
  let stkOps := s.stkOps.map fun o =>
    if mine o then
      let l := (opAdds o e.width).filter fun x => !(now x)
      { o with aux := (l.map fun x => natLe x.1 4).flatten, rows := (l.map fun x => x.2).flatten }
    else o
  (shuffled s.fresh adds.length adds).foldl (fun s x => (s.addToRow key (key / 65536) x.1 x.2).getD s)
    { s with stkOps, fresh := s.fresh + adds.length }

/-- The switch of a migration at its beat (R333, R336): the out side sends its rows; a poisoned row is refused at once.
(log 93, DEDUCED) -/
def State.migSwitch (s : State) (fid : Nat) : State :=
  match s.migOf fid, s.flight? fid with
  | some (key, e, m), some f =>
    if f.phase ≠ .active then s.modEmb key fun e => { e with migs := e.migs.filter fun x => x.fid != fid }
    else
      let s := s.modEmb key fun e => e.modMig fid fun m => { m with switched := true }
      if !m.out then s
      else
        let s := (s.applyEarly key e m.rows).modEmb key fun e => { e with copies := tkeep e.copies fun g => !(m.rows.contains g) }
        let s := { s with prefRows := s.prefRows.filter fun p => !(p.key == key && m.rows.contains p.row) }
        let e := (tfind s.embs key).getD e
        m.rows.foldl (fun s g => match e.slotOf g with
          | some slot =>
            if e.rowBad slot then s.settleRow fid g false []
            else
              let p := e.portTo m.peer
              let t := s.takeTag p
              let r : BpReq := { tag := t.2, typ := 0x320, fid := some fid, wing := f.wing, chan := f.cls
                                 args := natLe (key % 65536) 4 ++ natLe g 4, payload := e.row slot }
              t.1.sendRequest p r f.colour (t.1.usLeft fid) true
          | none => s.settleRow fid g false []) s
  | some (key, _, _), none => s.modEmb key fun e => { e with migs := e.migs.filter fun x => x.fid != fid }
  | none, _ => s

/-! ## Neighbours' requests (R325, R336, R454) -/

/-- Applies a neighbour's add and answers it (R325, R498). -/
def State.answerAdd (s : State) (key w g p : Nat) (f : Frame) : State :=
  match s.addToRow key w g f.payload with
  | some t => t.respond p f 0x311 (f.args.take 8) [] true
  | none => s.refuse p f .poisoned

/-- A neighbour's add joins its stack's queue as near-memory work (R313); when that is full, bricks run it, or it waits (R315). -/
def State.queueRow (s : State) (key w cls i p : Nat) (f : Frame) : State :=
  let g := fld f.args 4 4
  if 1024 ≤ (s.stkQueue i).length then
    (if hasModuleBricks s.prof then (s.bump (stkReg (3 * i) 0x10A0)).answerAdd key w g p f
     else { s with embFrames := s.embFrames ++ [(p, cls, f)] })
  else
    let ks := match s.embAt key with
      | some e => (((e.slotOf g).bind e.slotRegion).map fun k => [k]).getD []
      | none => []
    let op : StkOp :=
      { id := s.nextId, stack := i, fid := none, opcode := 0x420, wing := w, cls, regions := ks, key, ask := some (p, f)
        aux := natLe g 4, rows := f.payload }
    { s with stkOps := s.stkOps ++ [op], nextId := s.nextId + 1 }

/-- A row request of a neighbour at a table of the mapped wing: served by the owner, passed on otherwise, waiting while the row moves. -/
def State.rowRequest (s : State) (p w cls : Nat) (f : Frame) : State :=
  let key := objKey w (fld f.args 0 4)
  let g := fld f.args 4 4
  match (if fld f.args 0 4 < 1024 then s.embAt key else none) with
  | none => s.refuse p f .invalid
  | some e =>
    if decide (e.nrows ≤ g) || (f.typ == 0x311 && (f.payload.length != 4 * e.width || !e.update)) then s.refuse p f .invalid
    else if e.moving g then { s with embFrames := s.embFrames ++ [(p, cls, f)] }
    else
      match e.slotOf g with
      | some slot =>
        if e.rowBad slot then s.refuse p f .poisoned
        else if f.typ = 0x310 then (s.modEmb key fun e => e.countGather g).respond p f 0x310 (f.args.take 8) (e.row slot) true
        else s.queueRow key w cls (regionStack ((e.slotRegion slot).getD 0)) p f
      | none =>
        let t := s.sendRow w cls f.colour (e.portTo (e.nextMember g)) key g f.typ none (some (p, f)) f.payload f.deadline
        t.1.modEmb key Emb.countForward

/-- Requests of neighbours that waited for a migration are tried again, in arrival order. -/
def State.retryRows (s : State) : State :=
  let l := s.embFrames
  l.foldl (fun s x => match s.mapWing x.1 x.2.2.wing with
    | some w => s.rowRequest x.1 w x.2.1 x.2.2
    | none => s.refuse x.1 x.2.2 .invalid) { s with embFrames := [] }

/-! ## The end of the stacks' work on tables (R313, R334) -/

/-- The answer to a neighbour whose add a stack has run; a stack whose region was sealed for the table's end did not (R324). An add that
a migration took along is applied (R336). -/
def State.askDone (s : State) (o : StkOp) (p : Nat) (f : Frame) : State :=
  if o.refused then s.refuse p f .invalid
  else if o.aux.isEmpty then s.respond p f 0x311 (f.args.take 8) [] true
  else s.answerAdd o.key o.wing (fld o.aux 0 4) p f

/-- The adds of a finished operation of an update; neighbours' adds that waited for room are tried again. -/
def State.addsDone (s : State) (o : StkOp) : State :=
  let s := (s.dropOps fun x => x.id == o.id).bump (stkReg (3 * o.stack) 0x1040)
  let s := match o.ask, o.fid.bind s.flight? with
    | some (p, f), _ => s.askDone o p f
    | none, some f =>
      match s.embOf f with
      | some e => ((s.applyAdds f (opAdds o e.width)).modJob f.fid fun j => { j with ops := j.ops - 1 }).embFinish f.fid
      | none => s
    | none, none => s
  s.retryRows

/-- STK_OP_COMPLETE (R313): the last part of a running operation has finished; one whose lines hosts hold waits for them (R371). Handoffs end with their result (R97).
(log 77, DEDUCED) -/
def execStkOpComplete (stack op : Nat) (s : State) : Host.Outcome State Fault Refusal :=
  work s (match s.stkOps.find? fun o => o.id == op && o.running && isCompute stack && o.stack == stack / 3 with
    | some o =>
      if o.opcode = 0 then s
      else if o.opcode = 0x420 then s.addsDone o
      else
        match o.fid.bind s.flight? with
        | some f => if s.opWaits f o then s.opAsks f o else s.opEffect f o
        | none => s
    | none => s)

/-! ## The end of opens and seals (R296, R297, R322, R324) -/

/-- Releases a table: its regions, pages and handle; neighbours' adds to it are refused (R324). -/
def State.dropTable (s : State) (key : Nat) : State :=
  match tfind s.embs key with
  | none => s
  | some e =>
    let adds := s.stkOps.filter fun o => o.opcode == 0x420 && o.key == key
    let s := ((s.dropOps fun o => o.opcode == 0x420 && o.key == key).freeInternal (key / 65536) e.frames).guardAll e.regions
    let s := { s with embs := tdel s.embs key, prefRows := s.prefRows.filter fun p => p.key != key }
    ((adds.filterMap StkOp.ask).foldl (fun s x => s.refuse x.1 x.2 .invalid) s).retryRows

/-- A poisoned line that the check pass of a table's regions found: its record (R495, R502). -/
def State.createFound (s : State) (f : Flight) (e : Emb) (line : Nat) : State :=
  (s.bump 0x2048).wingRecord f.wing 1 1 0 1 0 ((e.noteAt (hHandle f.raw) (64 * line / e.rb)).detail)

/-- The end of the check pass of a table's regions: the table is ready, or is not made (R296, R322). (log 80, DEDUCED) -/
def State.createEnd (s : State) (f : Flight) (j : RegionJob) (key : Nat) (bad : Option Nat) : State :=
  let s := { s with regionJobs := s.regionJobs.filter fun x => x.fid != j.fid }
  let s := match bad, tfind s.embs key with
    | some line, some e => s.createFound f e line
    | _, _ => s
  if bad.isSome || s.openPoisoned j.left then (s.dropTable key).fixSt f.fid .poisoned
  else ((s.openAll j.left).modEmb key fun e => { e with ready := true }).fixOk f.fid 0 0

/-- An open that was stopped leaves its regions GUARDED, and its table unmade. (log 79, DEDUCED) -/
def State.openLost (s : State) (j : RegionJob) : State :=
  let s := { s with regionJobs := s.regionJobs.filter fun x => x.fid != j.fid }.guardAll j.left
  match j.table with
  | some key => s.dropTable key
  | none => s

/-- STK_OPEN_CHECK_DONE (R296): of an STK_OPEN, or of an EMB_CREATE. -/
def execStkOpenCheckDone (fid : Nat) (bad : Option Nat) (s : State) : Host.Outcome State Fault Refusal :=
  work s (match s.regionJobs.find? fun j => j.fid == fid && !j.sealing with
    | some j =>
      match j.table, s.active? fid 0x700, s.active? fid 0x400 with
      | none, some f, _ => s.openEnd f j bad
      | some key, _, some f => s.createEnd f j key bad
      | _, _, _ => s.openLost j
    | none => s)

/-- A seal with no region left completes; with it the table that it ended goes (R324). -/
def State.sealEnd (s : State) (j : RegionJob) : State :=
  match j.table with
  | some key => (s.dropTable key).fixOk j.fid 0 0
  | none => s.fixOk j.fid 0 (pack32 j.changed 0)

/-- Takes a sealed region off the jobs that wait for it; a job left with none completes. -/
def State.sealedOff (s : State) (k : Nat) : State :=
  let jobs := s.regionJobs.map fun j => if j.sealing then { j with left := j.left.filter fun x => x != k } else j
  let ended := jobs.filter fun j => j.sealing && j.left.isEmpty
  ended.foldl State.sealEnd { s with regionJobs := jobs.filter fun j => !(j.sealing && j.left.isEmpty) }

/-- STK_SEAL_DONE (R297): every line of a SEALING region carries matching check bits, and what waited for it is served; its region number
is within the stack. -/
def execStkSealDone (stack region : Nat) (s : State) : Host.Outcome State Fault Refusal :=
  work s (
    let k := regionKey (stack / 3) region
    if isCompute stack ∧ region < 36864 ∧ (s.region k).st = .sealing ∧ s.regionRuns k = false then
      (((s.setRegion k {}).bump (stkReg stack 0x1088)).sealedOff k).retryMem
    else s)

/-! ## EMB_DESTROY (R324) -/

/-- Whether descriptors of a table other than one are still at work. -/
def State.tableBusy (s : State) (f : Flight) : Bool :=
  (s.wingFlights f.wing).any fun g =>
    g.phase == .active && g.fid != f.fid && g.obj == f.obj && decide (0x400 ≤ hOpcode g.raw) && decide (hOpcode g.raw < 0x500)

/-- EMB_DESTROY (R324): seals the table's regions, then releases it; a table without regions goes at once. -/
def State.embDestroy (s : State) (f : Flight) : State :=
  match s.embOf f with
  | none => s.fixSt f.fid .invalid
  | some e =>
    if !(f.zero [(16, 112)]) then s.fixSt f.fid .invalid
    else if e.migs.any fun m => !m.switched then s.fixSt f.fid .busy
    else if s.tableBusy f then s
    else if e.regions.isEmpty then ((s.admitNow f.fid).dropTable f.obj).fixOk f.fid 0 0
    else
      let job : RegionJob := { fid := f.fid, sealing := true, left := e.regions, changed := e.regions.length, table := some f.obj }
      let s := e.regions.foldl (fun s k => s.setRegion k { s.region k with st := .sealing }) (s.admitNow f.fid)
      { s.modEmb f.obj fun e => { e with ready := false } with regionJobs := s.regionJobs ++ [job] }

def execEmbDestroy (fid : Nat) (s : State) : Host.Outcome State Fault Refusal :=
  work s (match s.ready? fid 0x402 with
    | some f => s.embDestroy f
    | none => s)

/-! ## EMB_STATS (R338) -/

/-- The next completed beat of a table's load ring. -/
def Emb.turnBeat (e : Emb) (ended next : Nat) : Emb :=
  { e with ring := ({ e.now with beat := ended } :: e.ring).take 64, now := { beat := next }, hotPrev := e.hot, hot := [] }

/-- The 32 hottest rows of the last beat. (log 112, DEDUCED) -/
def Emb.hottest (e : Emb) : List (Nat × Nat) :=
  (sortBy (fun (a b : Nat × Nat) => decide (b.2 < a.2)) e.hotPrev).take 32

/-- The load record (Table 13-5). -/
def State.loadRecord (s : State) (f : Flight) (e : Emb) : Bytes :=
  let beats := e.ring.map fun l => natLe (l.beat % 2 ^ 32) 4 ++ natLe (sat l.gathers 32) 4 ++ natLe (sat l.adds 32) 4 ++ natLe (sat l.forwarded 32) 4
  let hot := (List.range 32).map fun i => match e.hottest[i]? with
    | some x => natLe x.1 4 ++ natLe (sat x.2 32) 4
    | none => natLe 0xFFFFFFFF 4 ++ natLe 0 4
  natLe (hHandle f.raw) 4 ++ natLe e.slots.length 4 ++ natLe e.holders.length 4 ++ natLe 0 4 ++ natLe s.beatNum 8 ++ natLe 0 40
    ++ slice beats.flatten 0 1024 ++ hot.flatten

/-- EMB_STATS (R338). (log 112, DEDUCED) -/
def State.embStats (s : State) (f : Flight) : State :=
  match s.embOf f with
  | none => s.fixSt f.fid .invalid
  | some e =>
    if !(f.zero [(16, 24), (48, 80)]) || !(aligned64 (f.u 40 8)) then s.fixSt f.fid .invalid
    else ((s.admitNow f.fid).result f 0 (s.loadRecord f e)).fixOk f.fid 1344 0

def execEmbStats (fid : Nat) (s : State) : Host.Outcome State Fault Refusal :=
  work s (match s.ready? fid 0x450 with
    | some f => s.embStats f
    | none => s)

end Sys2Proof.Machine
end

