-- ==== Sys2Proof/Machine/Bruvia.lean ====
section
/-!
DEFINITION. Bruvia ports and their links (18): frames received and refused, acknowledgements, credits and replay, link states, epochs,
identity, lost partners, enables and drains, beat announces and health reports.
-/
namespace Sys2Proof.Machine
open Sys2Proof

/-! ## LINK_CTL (R437, R438) -/

/-- Bytes held in a port's ring buffer. -/
def BpSt.ringBytes (b : BpSt) : Nat := sumNat (b.ringBuf.map fun x => x.bytes.length)

/-- Credits kept back while the ring buffer was full, once it has room again (R192). (log 97, DEDUCED) -/
def BpSt.releaseRing (b : BpSt) : BpSt :=
  if b.ringBytes < 2 ^ 26 then
    { b with owed := b.ringOwed.foldl (fun t e => tset 0 t e.1 (tget 0 t e.1 + e.2)) b.owed, ringOwed := [] }
  else b

/-- Arguments of LINK_CTL: ACK, NAK, credits returned for channels 0 to 9 (Table 18-4). -/
def linkArgs (ack : Nat) (nak : Bool) (credits : Nat → Nat) : Bytes :=
  natLe ack 4 ++ natLe (b2n nak) 1 ++ natLe 0 3 ++ ((List.range 10).map fun c => natLe (credits c) 2).flatten

/-- Credits that a LINK_CTL frame returns for a channel. -/
def creditsIn (f : Frame) (c : Nat) : Nat := fld f.args (8 + 2 * c) 2

/-- Sends LINK_CTL, or brings the one that waits up to date (R436, R438). -/
def State.sendLinkCtl (s : State) (p : Nat) : State :=
  let b := (s.bp p).releaseRing
  let old := (b.txq.find? fun f => f.typ == 1).getD blankFrame
  let oldArgs := slice old.args 0 40
  let args := linkArgs b.rxFlits b.dropping fun c => tget 0 b.owed c + (if old.typ = 1 then fld oldArgs (8 + 2 * c) 2 else 0)
  let s := s.setBp p { b with txq := b.txq.filter fun f => f.typ != 1, owed := [], rxAcked := b.rxFlits, rxAckCyc := s.cyc }
  s.sendFrame p { blankFrame with typ := 1, args := argsOf args }

/-- Good flits received since the last LINK_CTL frame. -/
def BpSt.rxPending (b : BpSt) : Nat := (b.rxFlits + 2 ^ 32 - b.rxAcked % 2 ^ 32) % 2 ^ 32

/-- Sends LINK_CTL when 128 good flits have come since the last one (R438). -/
def State.ackDue (s : State) (p : Nat) : State := if 128 ≤ (s.bp p).rxPending then s.sendLinkCtl p else s

/-! ## Receiving (R435, R439, R441) -/

/-- Types of Table 18-3. -/
def frameTypes : List Nat :=
  [0, 1, 2, 3, 4, 0x10, 0x11, 0x20, 0x21, 0x22, 0x30, 0x100, 0x101, 0x200, 0x300, 0x301, 0x310, 0x311, 0x320]

/-- Whether a port receives frames: the module runs, and the link trains, identifies or is up. -/
def State.linkHeard (s : State) (p : Nat) : Bool :=
  s.power.rails == .good && !s.err.fatal
    && ((s.bp p).link == .train || (s.bp p).link == .ident || (s.bp p).link == .up)

/-- Whether a received frame is discarded: reserved bits, version, type, channel, epoch, or not the link channel before the link is up
(R435, R439, R441). An EPOCH frame is judged by no epoch. (log 92, DEDUCED) -/
def BpSt.stale (b : BpSt) (f : Frame) : Bool :=
  f.resv || f.hdrVer != 1 || !(frameTypes.contains f.typ) || decide (9 < f.chan) || (f.typ != 2 && f.epoch != b.epoch)
    || (f.chan != 8 && b.link != .up)

/-- Counts the flits of a frame received whole and the credits it owes (R437, R438). (log 92, DEDUCED) -/
def BpSt.received (b : BpSt) (f : Frame) : BpSt :=
  let n := frameFlits f
  let b := { b with rxFlits := (b.rxFlits + n) % 2 ^ 32, dropping := false }
  if f.chan = 8 ∨ 9 < f.chan then b
  else if f.typ = 0x200 ∧ 2 ^ 26 ≤ b.ringBytes then { b with ringOwed := tset 0 b.ringOwed f.chan (tget 0 b.ringOwed f.chan + n) }
  else { b with owed := tset 0 b.owed f.chan (tget 0 b.owed f.chan + n) }

/-- A frame that arrives: counted, discarded or acted on, its flits acknowledged when due. -/
def State.arrive (s : State) (p : Nat) (f : Frame) (g : State → State) : State :=
  if !(s.linkHeard p) then s
  else
    let s := s.setBp p ((s.bp p).received f)
    let s := (s.bump (bpReg p 0x48)).bumpBy (bpReg p 0x58) (64 + f.payload.length)
    (if (s.bp p).stale f then s.bump (bpReg p 0x88) else g s).ackDue p

/-! ## Outstanding work at an epoch change (R326, R337, R444) -/

/-- Whether a request keeps its claim over an epoch change: Annex page reads and writes, and grant requests. -/
def BpReq.held (r : BpReq) : Bool := r.typ == 0x300 || r.typ == 0x301 || r.typ == 0x20

/-- Descriptors that wait for a port's partner: searches fanned out to it, ring attention through it, rows forwarded to it. -/
def State.waitingOn (s : State) (p : Nat) : List Nat :=
  ((s.reqs.filter fun r => r.parts.any fun x => x.port == p && x.nparts != some x.got).map fun r => r.fid)
    ++ ((s.flights.filter fun f => f.phase == .active && hOpcode f.raw == 0x318 && (f.u 24 1 == p || f.u 25 1 == p)).map fun f => f.fid)
    ++ ((s.embJobs.filter fun j => j.waits.any fun x => x.1 == p).map fun j => j.fid)

/-- A passed-on request of a port that no longer has anybody to answer to. -/
def BpReq.forget (p : Nat) (r : BpReq) : BpReq :=
  match r.relay with
  | some x => if x.1 = p then { r with relay := none } else r
  | none => r

def BpSt.forget (p : Nat) (b : BpSt) : BpSt := { b with reqs := b.reqs.map (BpReq.forget p) }

/-- Settles rows of a migration (R336). -/
def State.settleAll (s : State) (fid : Nat) (rows : List Nat) (moved : Bool) : State :=
  rows.foldl (fun s g => s.settleRow fid g moved []) s

/-- Rows of a migration that are not settled. -/
def Mig.open_ (m : Mig) : List Nat := m.rows.filter fun g => m.holds g

/-- In sides that the epoch change of a port meets before their switch refuse the rows when they come (R337). (log 93, DEDUCED) -/
def Emb.stalePort (p : Nat) (e : Emb) : Emb :=
  { e with migs := e.migs.map fun m => if !m.out && !m.switched && e.portTo m.peer == p then { m with stale := true } else m }

/-- In sides whose rows come through a port: their descriptors and the rows still to come. (log 93, DEDUCED) -/
def State.inSides (s : State) (p : Nat) : List (Nat × List Nat) :=
  ((s.embs.map fun e => (e.2.migs.filter fun m => !m.out && m.switched && e.2.portTo m.peer == p).map fun m => (m.fid, m.open_))).flatten

/-- Rows sent out on a port and not answered, with their descriptors. -/
def State.outRows (s : State) (p : Nat) : List (Nat × Nat) :=
  ((s.bp p).reqs.filter fun r => r.typ == 0x320).filterMap fun r => r.fid.map fun fid => (fid, fld r.args 4 4)

/-- Requests that a port passed on for another port's partner. -/
def BpSt.relays (b : BpSt) : List (Nat × Frame) := b.reqs.filterMap BpReq.relay

/-- The epoch of a port has changed: work that spans the change ends as Table 18-6 says, received work is abandoned.
(log 92, DEDUCED) -/
def State.epochWork (s : State) (p : Nat) : State :=
  let relays := (s.bp p).relays.filter fun x => x.1 != p
  let rows := s.outRows p
  let ins := s.inSides p
  let s := (s.waitingOn p).foldl (fun s fid => s.fixSt fid .aborted) s
  let mine := (s.reqs.filter fun r => match r.fromPort with
    | some x => x.1 == p
    | none => false).map fun r => r.fid
  let s := mine.foldl (fun s fid => s.dropWork fid) s
  let bps := s.bps.map fun (e : Nat × BpSt) => (e.1, e.2.forget p)
  let s := { s with
    reqs := s.reqs.filter fun r => !(mine.contains r.fid), embFrames := s.embFrames.filter fun x => x.1 != p, bps
    embs := s.embs.map fun (e : Nat × Emb) => (e.1, e.2.stalePort p) }.dropOps fun o => (o.ask.map Prod.fst) == some p
  let b := s.bp p
  let s := s.setBp p { b with
    reqs := b.reqs.filter BpReq.held, txq := b.txq.filter fun f => f.chan == 8, ringBuf := [], ringOwed := [], fanBuf := [], ringTags := [] }
  let s := rows.foldl (fun s x => s.settleRow x.1 x.2 false []) s
  let s := ins.foldl (fun s x => s.settleAll x.1 x.2 false) s
  (relays.foldl (fun s x => s.refuse x.1 x.2 .aborted) s).retryRows

/-! ## Link states (R440 to R444) -/

/-- A port's link counts and queues at the start of an epoch: what waits to be sent stays, but for the link's own frames.
(log 93, DEDUCED) -/
def BpSt.fresh (b : BpSt) : BpSt :=
  { b with
    txFlits := 0, ackedFlits := 0, rxFlits := 0, rxAcked := 0, replays := 0, replayBuf := [], dropping := false, credits := [], owed := []
    ringOwed := [], txSeq := [], txq := b.txq.filter (fun f => f.chan != 8), epochSent := false, epochGot := false, proof := none, nonceRx := [] }

/-- The link leaves its state for DOWN or TRAIN (R440): the epoch increments when it leaves UP, TRAIN or IDENT. -/
def State.leaveLink (s : State) (p : Nat) (dest : LinkSt) : State :=
  let b := s.bp p
  let wasUp := b.link == .up
  let moved := wasUp || b.link == .train || b.link == .ident
  let s := if wasUp then s.bump (bpReg p 0x80) else s
  let s := if moved then { s with signings := s.signings.filter (fun x => x != .identProof p) } else s
  let t := s.setBp p { b.fresh with
    link := dest, leftUp := if wasUp then some s.cyc else b.leftUp, epoch := if moved then (b.epoch + 1) % 2 ^ 32 else b.epoch }
  if moved then t.epochWork p else t

/-- The EPOCH and identity frames of training (R440, R441). -/
def State.sendEpoch (s : State) (p : Nat) : State :=
  let b := s.bp p
  (s.setBp p { b with epochSent := true }).sendFrame p { blankFrame with typ := 2, args := argsOf (natLe b.epoch 4) }

/-- IDENT begins when both EPOCH frames have passed: HELLO carries a fresh nonce and the identity key (R441). (log 93, DEDUCED) -/
def State.enterIdent (s : State) (p : Nat) : State :=
  let b := s.bp p
  if b.link = .train ∧ b.epochSent = true ∧ b.epochGot = true then
    let nonce := s.free % 2 ^ 256
    let s := (s.setBp p { b with link := .ident, nonceTx := nonce }).useFree
    s.sendFrame p { blankFrame with typ := 3, args := argsOf (natLe nonce 32), payload := slice Config.publicKey 0 1312 }
  else s

/-- The bytes that an IDENT_PROOF signs (R441): the text, the receiver's nonce, the signer's nonce, the epoch. -/
def identText (receiver signer : Bytes) (epoch : Nat) : Bytes :=
  [0x42, 0x52, 0x55, 0x56, 0x49, 0x41, 0x2D, 0x49, 0x44] ++ receiver ++ signer ++ natLe epoch 4

/-- The signature engine has signed for a port: IDENT_PROOF goes out (R441), also where the partner's own proof was accepted first. -/
def State.sendProof (s : State) (p : Nat) : State :=
  let b := s.bp p
  if (b.link = .ident ∨ b.link = .up) ∧ b.nonceRx ≠ [] then
    s.sendFrame p { blankFrame with
      typ := 4, payload := slice (Config.mldsaSign (identText b.nonceRx (natLe b.nonceTx 32) b.epoch)) 0 2420 }
  else s

/-- Queues an IDENT_PROOF signing: behind the one being served and earlier ones of its kind, before SPDM signings (R492). -/
def queueProof (p : Nat) : List Signing → List Signing
  | [] => [.identProof p]
  | x :: t => x :: (t.takeWhile fun y => match y with
      | .identProof _ => true
      | _ => false) ++ [.identProof p] ++ (t.dropWhile fun y => match y with
      | .identProof _ => true
      | _ => false)

/-- The identity that a port is pinned to (R442). -/
def State.pinId (s : State) (p : Nat) : Nat :=
  (List.range 4).foldl (fun acc i => acc + s.reg (bpReg p (0x100 + 8 * i)) * 2 ^ (64 * i)) 0

/-! ## Lost partners (R446) -/

/-- Ranges at a port's neighbour. -/
def State.portRanges (s : State) (p : Nat) : List Range := s.ranges.filter fun r => r.tier == 3 && r.port == p && r.ready && !r.lost

/-- Marks the ranges of a port lost. (log 94, DEDUCED) -/
def loseRange (p : Nat) (r : Range) : Range := if r.tier = 3 ∧ r.port = p ∧ r.ready = true then { r with lost := true } else r

/-- A waiting TIER_ALLOC whose neighbour grants nothing (R269). -/
def State.allocRefused (s : State) (fid : Nat) : State :=
  { s with ranges := s.ranges.filter fun r => !(r.fid == some fid && r.tier == 3) }.fixSt fid .noResource

/-- Returns every page lent on a port to the pool. -/
def State.reclaimLent (s : State) (p : Nat) : State :=
  let b := s.bp p
  (b.lentFrames.foldl (fun s x => s.giveFrames x.2) s).setBp p
    { b with lent := [], lentMem := [], lentBad := [], lentFrames := [], grants := [] }

/-- The partner is lost (R446): ranges at it are lost, pages lent to it come back. (log 94, DEDUCED) -/
def State.partnerLost (s : State) (p : Nat) : State :=
  let lost := s.portRanges p
  let s := { s with ranges := s.ranges.map (loseRange p) }
  let s := lost.foldl (fun s r => s.wipePages r.wing r.base r.pages) s
  let b := s.bp p
  let asked := (b.reqs.filter fun r => r.typ == 0x20).filterMap fun r => r.fid
  let s := s.setBp p { b with reqs := b.reqs.filter fun r => !r.held, deferred := [], annexLost := b.annexLost || !lost.isEmpty }
  let s := asked.foldl State.allocRefused s
  let s := s.reclaimLent p
  let s := (List.range 16).foldl (fun s w => if lost.any fun r => r.wing == w then s.wingRecord w 6 2 0 6 p [] else s) s
  s.retryMem.retryPins

/-! ## UP (R442, R444) -/

/-- Sends a held request again. -/
def State.resend (s : State) (p : Nat) (r : BpReq) : State :=
  s.sendFrame p { blankFrame with
    typ := r.typ, chan := r.chan, colour := r.colour, wing := r.wing, tag := r.tag, args := argsOf r.args, payload := r.payload
    deadline := match r.fid with
      | some fid => s.usLeft fid
      | none => 0 }

/-- Requests of a port that are held and not in its queue. -/
def BpSt.toResend (b : BpSt) : List BpReq := b.reqs.filter fun r => r.held && !(b.txq.any fun f => f.tag == r.tag && !f.resp)

/-- The partner's identity is accepted: the link is UP (R442 to R446). -/
def State.linkUp (s : State) (p id : Nat) : State :=
  let b := s.bp p
  let other := match b.lastPeer with
    | some x => x != id
    | none => false
  let s := s.setBp p { b with newPeer := b.newPeer || other, peerId := some id, lastPeer := some id, proof := none }
  let s := if other then (s.markSet (bpReg p 8)).partnerLost p else s
  let s := s.setBp p { s.bp p with link := .up, leftUp := none }
  ((s.bp p).toResend.foldl (fun s r => s.resend p r) s).pump p

/-- Verification of the partner's proof has ended (R441, R442). (log 9, DESIGN CHOICE) -/
def State.identDone (s : State) (p : Nat) (ok : Bool) : State :=
  let b := s.bp p
  if b.link ≠ .ident ∨ b.proof = none then s
  else
    let id := Config.sha3 b.peerKey
    if !ok || (bit (s.reg (bpReg p 0x10)) 0 && id != s.pinId p) then
      s.setBp p { b with link := .identFail, txq := b.txq.filter (fun f => f.chan != 8), proof := none }
    else s.linkUp p id

/-- IDENT_VERIFY_DONE (R441): the partner's identity has been checked; the verdict is its operand (log 9, DESIGN CHOICE). -/
def execIdentVerifyDone (port : Nat) (ok : Bool) (s : State) : Host.Outcome State Fault Refusal := work s (s.identDone port ok)

/-! ## Events of the link -/

/-- BRUVIA_SIGNAL_DETECT (R440). -/
def execBruviaSignalDetect (port : Nat) (s : State) : Host.Outcome State Fault Refusal :=
  work s (
    let b := s.bp port
    if s.power.rails = .good ∧ s.err.fatal = false ∧ b.en = .enabled ∧ b.link = .down then s.setBp port { b.fresh with link := .train } else s)

/-- BRUVIA_TRAIN_DONE (R440). -/
def execBruviaTrainDone (port : Nat) (s : State) : Host.Outcome State Fault Refusal :=
  work s (if (s.bp port).link = .train ∧ (s.bp port).epochSent = false then (s.sendEpoch port).enterIdent port else s)

/-- BRUVIA_LINK_DOWN (R433, R440). -/
def execBruviaLinkDown (port : Nat) (s : State) : Host.Outcome State Fault Refusal :=
  work s (if (s.bp port).link = .down then s else s.leaveLink port .down)

/-- CRC-16 of R434 over bytes. -/
def crcBits (x : Nat) : Nat → Nat
  | 0 => x
  | n + 1 => crcBits (if x / 2 ^ 15 % 2 = 1 then ((x * 2) % 2 ^ 16) ^^^ 0x1021 else x * 2) n

def crc16 (bs : Bytes) : Nat := bs.foldl (fun x b => crcBits (x ^^^ (b.toNat * 256)) 8) 0xFFFF

/-- FLIT_CRC_FAIL (R434, R438): a flit whose CRC is wrong is discarded with every later one until replay; NAK goes out. -/
def execFlitCrcFail (port : Nat) (flit : Bytes) (s : State) : Host.Outcome State Fault Refusal :=
  work s (
    if !(s.linkHeard port) || crc16 (slice flit 0 62) == fld flit 62 2 || (s.bp port).dropping then s
    else (s.setBp port { s.bp port with dropping := true }).sendLinkCtl port)

/-- BRUVIA_ACK_TIMEOUT (R438): 20 us without an ACK that advances. (log 118, DEDUCED) -/
def execBruviaAckTimeout (port : Nat) (s : State) : Host.Outcome State Fault Refusal :=
  work s (
    let b := s.bp port
    if s.linkHeard port && decide (0 < b.unacked) && decide (b.ackCyc + 30000 < s.cyc) then s.leaveLink port .down else s)

/-- LINK_CTL_SEND_TIMER (R438): every 100 ns while flits remain unacknowledged. (log 117, DESIGN CHOICE) -/
def execLinkCtlSendTimer (port : Nat) (s : State) : Host.Outcome State Fault Refusal :=
  work s (
    let b := s.bp port
    if s.linkHeard port && decide (0 < b.rxPending) && (decide (128 ≤ b.rxPending) || decide (b.rxAckCyc + 150 ≤ s.cyc)) then
      s.sendLinkCtl port
    else s)

/-- LOST_MS of a port (Table 18-12). (log 94, DEDUCED) -/
def State.lostMs (s : State) (p : Nat) : Nat := bits (s.reg (bpReg p 0x10)) 31 16

/-- BRUVIA_LOST_TIMEOUT (R446). (log 94, DEDUCED) (log 118, DEDUCED) -/
def execBruviaLostTimeout (port : Nat) (s : State) : Host.Outcome State Fault Refusal :=
  work s (
    let b := s.bp port
    match b.leftUp with
    | some c =>
      if b.link ≠ .up ∧ roundUp (c + 1500000 * s.lostMs port) 1500 < s.cyc then
        (s.setBp port { b with leftUp := none }).partnerLost port
      else s
    | none => s)

/-! ## Enable, drain, retrain (R440, R443) -/

/-- BP_EN_WRITE (R443). -/
def State.bpEn (s : State) (p : Nat) (en : Bool) : State :=
  let b := s.bp p
  if en then s.setBp p { b with en := b.en.on }
  else s.setBp p { b with en := b.en.off, drainFrom := if b.en = .enabled then some s.cyc else b.drainFrom }

def execBpEnWrite (src port : Nat) (en : Bool) (s : State) : Host.Outcome State Fault Refusal :=
  guarded s (s.portRefused src (bpReg port 0)) fun s => s.bpEn port en

/-- Requests of a port that have been sent and not answered. -/
def BpSt.outstanding (b : BpSt) : List BpReq := b.reqs.filter fun r => !(b.txq.any fun f => f.tag == r.tag && !f.resp)

/-- BP_DRAIN_END (R443): the link goes DOWN, the partner counts as lost, the port is DISABLED, or ENABLED when an enable waits.
(log 118, DEDUCED) -/
def execBpDrainEnd (port : Nat) (s : State) : Host.Outcome State Fault Refusal :=
  work s (
    let b := s.bp port
    let late := match b.drainFrom with
      | some c => decide (roundUp (c + 1500000 * s.lostMs port) 1500 < s.cyc)
      | none => false
    if b.draining && (b.outstanding.isEmpty || late) then
      let s := (s.leaveLink port .down).partnerLost port
      let b := s.bp port
      s.setBp port { b with en := b.en.drained, drainFrom := none, leftUp := none }
    else s)

/-- BP_RETRAIN (R440, Table 18-10): the link goes DOWN and trains again. -/
def execBpRetrain (src port : Nat) (s : State) : Host.Outcome State Fault Refusal :=
  guarded s (s.portRefused src (bpReg port 0)) fun s =>
    if (s.bp port).link = .down then s else s.leaveLink port .train

/-! ## Frames of the link channel -/

/-- IDLE (R435): fills a flit. (log 92, DEDUCED) -/
def execIdleFrame (port : Nat) (frame : Frame) (s : State) : Host.Outcome State Fault Refusal :=
  work s (s.arrive port frame fun s => s)

/-- Frames of the replay buffer that hold flits from a count on. -/
def BpSt.kept (b : BpSt) (ack : Nat) : List (Nat × Frame) :=
  b.replayBuf.filter fun x =>
    let left := (x.1 + frameFlits x.2 + 2 ^ 32 - ack % 2 ^ 32) % 2 ^ 32
    decide (0 < left) && decide (left ≤ 4096)

/-- What an ACK and returned credits leave (R437, R438). -/
def BpSt.acked (b : BpSt) (f : Frame) (cyc : Nat) : BpSt :=
  let ack := fld f.args 0 4
  let step := (ack + 2 ^ 32 - b.ackedFlits % 2 ^ 32) % 2 ^ 32
  let b := if 0 < step ∧ step ≤ b.unacked then
    { b with ackedFlits := ack, ackCyc := cyc, replays := 0, replayBuf := b.kept ack } else b
  { b with credits := (List.range 10).foldl (fun t c => tset 0 t c (tget 0 t c - creditsIn f c)) b.credits }

/-- LINK_CTL (R438). -/
def State.linkCtl (s : State) (p : Nat) (f : Frame) : State :=
  let b := (s.bp p).acked f s.cyc
  let s := s.setBp p b
  if bit (fld f.args 4 1) 0 && decide (0 < b.unacked) then
    let s := ((s.bump (bpReg p 0x70)).bumpBy (bpReg p 0x78) b.unacked).emit (.replay p b.ackedFlits (b.replayBuf.map fun x => frameBytes x.2))
    let s := s.setBp p { b with replays := b.replays + 1 }
    if 8 ≤ b.replays + 1 then s.leaveLink p .down else s.pump p
  else s.pump p

def execLinkCtl (port : Nat) (frame : Frame) (s : State) : Host.Outcome State Fault Refusal :=
  work s (s.arrive port frame fun s => s.linkCtl port frame)

/-- EPOCH (R440): both ends adopt the larger value. (log 92, DEDUCED) -/
def State.epochCame (s : State) (p : Nat) (f : Frame) : State :=
  let b := s.bp p
  if b.link ≠ .train then s
  else
    let n := fld f.args 0 4
    let t := s.setBp p { b with epoch := max b.epoch n, epochGot := true }
    (if b.epoch < n then t.epochWork p else t).enterIdent p

def execEpochFrame (port : Nat) (frame : Frame) (s : State) : Host.Outcome State Fault Refusal :=
  work s (s.arrive port frame fun s => s.epochCame port frame)

/-- IDENT_HELLO (R441). -/
def State.helloCame (s : State) (p : Nat) (f : Frame) : State :=
  let b := s.bp p
  if b.link ≠ .ident ∨ b.nonceRx ≠ [] then s
  else { s with signings := queueProof p s.signings }.setBp p { b with nonceRx := slice f.args 0 32, peerKey := slice f.payload 0 1312 }

def execIdentHello (port : Nat) (frame : Frame) (s : State) : Host.Outcome State Fault Refusal :=
  work s (s.arrive port frame fun s => s.helloCame port frame)

/-- IDENT_PROOF (R441): kept for the signature engine. -/
def State.proofCame (s : State) (p : Nat) (f : Frame) : State :=
  let b := s.bp p
  if b.link ≠ .ident ∨ b.nonceRx = [] then s else s.setBp p { b with proof := some (slice f.payload 0 2420) }

def execIdentProof (port : Nat) (frame : Frame) (s : State) : Host.Outcome State Fault Refusal :=
  work s (s.arrive port frame fun s => s.proofCame port frame)

/-! ## Beat and health (R36, R455, R456) -/

/-- Adds an offered beat number. -/
def State.offer (s : State) (n port : Nat) : State := { s with beat := { s.beat with offers := s.beat.offers ++ [{ cyc := s.cyc, n, port }] } }

/-- BEAT_ANNOUNCE (R36): an offer, on a port that `BEAT_CFG` enables. -/
def execBeatAnnounce (port : Nat) (frame : Frame) (s : State) : Host.Outcome State Fault Refusal :=
  let t := s.within (s.arrive port frame fun s => s)
  if s.linkHeard port && !(((s.bp port).received frame).stale frame) && bit (s.reg 0x80) (24 + port) then
    .next (t.offer (fld frame.args 0 8) port)
  else .next t

/-- HEALTH (R456): the payload is copied whole. -/
def execHealthFrame (port : Nat) (frame : Frame) (s : State) : Host.Outcome State Fault Refusal :=
  work s (s.arrive port frame fun s => s.setBp port { s.bp port with health := slice frame.payload 0 576 })

/-- Hottest Hall die in units of 0.1 degree, as 16 bits; temperatures are kept with 1000 added to them. -/
def State.hottestHall (s : State) : Nat :=
  let t := (List.range 4).map fun i => tget 1000 s.power.temps i
  (t.foldl max 0 + 2 ^ 16 - 1000) % 2 ^ 16

/-- A wing's entry of a health payload (Table 18-8). (log 98, DEDUCED) -/
def WingBeat.entry (x : WingBeat) : Bytes :=
  natLe (sat x.done 32) 4 ++ natLe (sat x.busy 32) 4 ++ natLe (x.first.getD 0xFFFFFFFF) 4 ++ natLe (x.last.getD 0xFFFFFFFF) 4
    ++ natLe (sat x.stall 32) 4 ++ natLe x.inFlight 4 ++ natLe 0 8

/-- Code of a receiver state (Table 02-1). -/
def RxState.code : RxState → Nat
  | .free => 0
  | .reacq => 1
  | .locked => 2

/-- The health payload (Table 18-8). (log 98, DEDUCED) -/
def State.healthBytes (s : State) : Bytes :=
  natLe s.beat.ended 8 ++ natLe (bits (s.reg 0x80) 23 0) 4 ++ natLe s.hottestHall 2 ++ natLe s.power.pinMean 2 ++ natLe s.beat.rx.code 1
    ++ natLe 0 47 ++ ((List.range 16).map fun w => (tget {} s.wingLast w).entry).flatten

/-- Whether the beat began at a boundary whose count is a multiple of the port's HEALTH_PERIOD. -/
def State.healthDue (s : State) (p : Nat) : Bool :=
  decide (0 < s.beat.beats) && s.beat.beats % max 1 (bits (s.reg (bpReg p 0x10)) 15 8) == 0

/-- HEALTH_SEND (R456): at a quarter of the period of a due beat, once on each port. -/
def execHealthSend (port : Nat) (s : State) : Host.Outcome State Fault Refusal :=
  if bit (s.reg (bpReg port 0x10)) 1 && s.healthDue port && !(s.beat.healthSent.contains port)
      && decide (s.beat.periodNs * 24 ≤ 4 * 16 * s.beatPos) && (s.bp port).link == .up && !s.err.fatal then
    let t := s.within (s.sendFrame port { blankFrame with typ := 0x11, chan := 9, payload := s.healthBytes })
    .next { t with beat := { t.beat with healthSent := port :: t.beat.healthSent } }
  else .next s

end Sys2Proof.Machine
end

