-- ==== Sys2Proof/Machine/Host.lean ====
section
/-!
DEFINITION. Meanings of the host-link commands (15): training, port enables, drains and failures, grants, windows, hand-overs, resets
of the link and of a logical device, and the management commands.
-/
namespace Sys2Proof.Machine
open Sys2Proof

/-! ## The link (R363, R377, R493) -/

def noLink (l : Link) : Link := { everTrained := l.everTrained }

/-- LINK_TRAIN_DONE (R363): the lanes trained, the rate's code of Table 15-9, whether CXL was negotiated. Training runs from the release of
PERST# on, once the rails are good (R470). -/
def execLinkTrainDone (width rate : Nat) (cxl : Bool) (s : State) : Host.Outcome State Fault Refusal :=
  .next (if s.power.rails ≠ .good ∨ s.power.perst = true ∨ s.link.trained = true then s
    else { s with
      link := { trained := true, everTrained := true, width, rate
                cxl := cxl && (width == 4 || width == 8 || width == 16) && inside 1 3 rate } })

/-- Every port fails with LINK_DOWN (R377). -/
def State.failPorts (s : State) : State := (List.range 8).foldl (fun s p => s.failPort p 3) s

/-- The link leaves the active state. (log 91, DEDUCED) -/
def dropLink (s : State) : Host.Outcome State Fault Refusal :=
  if s.link.trained then work { s with link := noLink s.link } (s.failPorts.bump 0x6048) else .next s

/-- LINK_DOWN (R377). -/
def execLinkDown (s : State) : Host.Outcome State Fault Refusal := dropLink s

/-- PERST_ASSERT (R493): PERST# has been asserted for 100 us: a link reset. (log 91, DEDUCED) -/
def execPerstAssert (s : State) : Host.Outcome State Fault Refusal := dropLink { s with power := { s.power with perst := true } }

/-- PERST_RELEASE (R470, R478). (log 99, DEDUCED) -/
def execPerstRelease (s : State) : Host.Outcome State Fault Refusal := .next { s with power := { s.power with perst := false } }

/-- LD_RESET (R493): the logical device's MSI-X table is cleared and its port fails with FORCED. (log 91, DEDUCED) -/
def execLdReset (port : Nat) (s : State) : Host.Outcome State Fault Refusal :=
  if s.power.rails ≠ .good then .next s
  else
    let t := { s with msixTab := tkeep s.msixTab fun k => decide (k / 65536 ≠ port) }
    work t (let u := t.failPort port 2
      { u with msixPend := u.msixPend.filter fun x => decide (x / 2048 ≠ port) })

/-! ## Port enables (R377, R381, R389) -/

/-- HP_CTRL_FAIL (R377). -/
def execHpCtrlFail (src port : Nat) (s : State) : Host.Outcome State Fault Refusal :=
  guarded s (s.portRefused src (hpReg port 0)) fun s => s.failPort port 2

/-- The state a write of EN leaves (R381). -/
def portEn : EnState → Bool → EnState
  | .enabled, false => .draining
  | .failed, false => .draining
  | .failed, true => .enablePending
  | .draining, true => .enablePending
  | .enablePending, false => .draining
  | .disabled, true => .enabled
  | x, _ => x

/-- Takes back every line a port holds. -/
def State.recallAll (s : State) (p : Nat) : State :=
  (s.dir.filter fun e => e.holders.contains p).foldl (fun s e => s.sendSnoop p e.line true) s

/-- A write of `HP_CTRL.EN` (R381): a drain takes back the port's lines. -/
def State.writePortEn (s : State) (port : Nat) (en : Bool) : State :=
  let x := s.port port
  let s := s.setPort port { x with en, st := portEn x.st en }
  if x.st = .enabled ∧ en = false then s.recallAll port else s

/-- HP_EN_WRITE (R381). -/
def execHpEnWrite (src port : Nat) (en : Bool) (s : State) : Host.Outcome State Fault Refusal :=
  guarded s (s.portRefused src (hpReg port 0)) fun s => s.writePortEn port en

/-- Whether the rings that name a port have come to an end (R389): no descriptor in flight, no entry due. -/
def State.ringsDone (s : State) (port : Nat) : Bool :=
  !(s.flights.any fun f => s.flightPort f == port || cqPort (s.cqCfg f.wing (s.flightCq f)) == port)

/-- Whether a port's drain has nothing left to wait for (R381). (log 73, DEDUCED) -/
def State.portDrained (s : State) (port : Nat) : Bool :=
  !(s.dir.any fun e => e.holders.contains port) && !(s.snoops.any fun x => x.port == port) && s.heldReqs port == 0 && s.ringsDone port

/-- HP_DRAIN_END (R381, R389): DISABLED, or ENABLED where an enable is latched; FAIL_CAUSE returns to NONE. -/
def execHpDrainEnd (port : Nat) (s : State) : Host.Outcome State Fault Refusal :=
  work s (
    let x := s.port port
    if (x.st = .draining ∨ x.st = .enablePending) ∧ s.portDrained port = true then
      s.setPort port { x with st := x.st.drained, cause := 0, denied := [] }
    else s)

/-! ## Grants (R366) -/

/-- Whether a wing's window is in use on a port, or one of its rings names the port and is not DISABLED. -/
def State.wingOnPort (s : State) (port w : Nat) : Bool :=
  ((List.range 16).any fun i => s.winInUse port i && (s.hostWin port i).wing == w)
    || ((List.range 64).any fun r => ((s.sq w r).en != .disabled && sqPort (s.sqCfg w r) == port)
        || ((s.cq w r).en != .disabled && cqPort (s.cqCfg w r) == port))
    || (bit (s.errCfg w) 4 && bits (s.errCfg w) 10 8 == port)

/-- A write to `HP_GRANT`: one that would remove a wing in use changes nothing and is recorded. -/
def State.writeGrant (s : State) (src port val : Nat) : State :=
  let old := s.reg (hpReg port 0x10)
  if (List.range 16).any fun w => bit old w && !(bit val w) && s.wingOnPort port w then s.lockVio src (hpReg port 0x10)
  else s.setReg (hpReg port 0x10) val

/-- HP_GRANT_WRITE (R366). -/
def execHpGrantWrite (src port val : Nat) (s : State) : Host.Outcome State Fault Refusal :=
  .next ((s.portRefused src (hpReg port 0x10)).getD (s.writeGrant src port val))

/-! ## Windows (R368, R369) -/

/-- Whether the DPA span of a window lies below 32 TiB and overlaps no other VALID window of the port. -/
def State.dpaFree (s : State) (port win : Nat) (h : HostWin) : Bool :=
  decide (h.dpa + h.pages ≤ 2 ^ 27) && (List.range 16).all fun i =>
    i == win || !(s.hostWin port i).valid || !(runsMeet (s.hostWin port i).dpa (s.hostWin port i).pages h.dpa h.pages)

/-- Whether no VALID window forbids the tier pages of a window: a private one overlaps none, a SHARED one only SHARED ones. -/
def State.tierFree_ (s : State) (port win : Nat) (h : HostWin) : Bool :=
  allWins.all fun x =>
    let g := s.hostWin x.1 x.2
    x == (port, win) || !g.valid || g.wing != h.wing || !(runsMeet g.base g.pages h.base h.pages) || (g.shared && h.shared)

/-- Whether a window may become VALID (R368). -/
def State.winOk (s : State) (port win : Nat) (h : HostWin) : Bool :=
  s.granted port h.wing && decide (1 ≤ h.pages) && s.inRanges h.wing (h.base * pageSize) (h.pages * pageSize)
    && s.dpaFree port win h && s.tierFree_ port win h

/-- A window entry that is written anew no longer stands for one handed over. -/
def State.renewWin (s : State) (port win : Nat) : State :=
  s.setPort port { s.port port with denied := (s.port port).denied.filter fun x => x != win }

/-- A write that sets VALID (R368, R369): discarded while the entry is being removed; recorded where the entry is VALID or a condition fails.
(log 88, DEDUCED) -/
def State.setWin (s : State) (src port win val : Nat) : State :=
  let off := winAReg port win
  if (s.port port).winBusy.contains win then s
  else if (s.hostWin port win).valid || !(s.winOk port win (winFields val (s.reg (winBReg port win)))) then s.lockVio src off
  else (s.setReg off val).renewWin port win

/-- HP_WIN_VALID_SET (R368). (log 88, DEDUCED) -/
def execHpWinValidSet (src port win val : Nat) (s : State) : Host.Outcome State Fault Refusal :=
  .next ((s.portRefused src (winAReg port win)).getD (s.setWin src port win (setBits val 0 0 1)))

/-- The removal of a window starts (R369): a SHARED one takes back its lines; the entry is free once none is left. -/
def State.removeWin (s : State) (port win : Nat) : State :=
  let h := s.hostWin port win
  let x := s.port port
  let s := s.setPort port { x with winBusy := insertNew x.winBusy win }
  (if h.shared then s.recallLines port h else s).endRemovals.retryMem

/-- A write with VALID at 0 (R369): it ends a VALID window, whose other fields stand; else it is stored, unless the entry is being removed.
(log 88, DEDUCED) -/
def clearWin (s : State) (port win val : Nat) : Host.Outcome State Fault Refusal :=
  let off := winAReg port win
  if (s.port port).winBusy.contains win then .next s
  else if (s.hostWin port win).valid then
    let t := s.setReg off (s.reg off - 1)
    work t (t.removeWin port win)
  else .next ((s.setReg off val).renewWin port win)

/-- HP_WIN_VALID_CLEAR (R369). -/
def execHpWinValidClear (src port win val : Nat) (s : State) : Host.Outcome State Fault Refusal :=
  match s.portRefused src (winAReg port win) with
  | some t => .next t
  | none => clearWin s port win (setBits val 0 0 0)

/-- A write to `HP_WIN_B` (R368, R369). -/
def State.writeWinB (s : State) (src port win val : Nat) : State :=
  let off := winBReg port win
  if (s.port port).winBusy.contains win then s
  else if (s.hostWin port win).valid then s.lockVio src off
  else (s.setReg off val).renewWin port win

/-! ## Hand-over (R382, R383) -/

/-- The window that a hand-over gives to its new port. -/
def State.handedWin (s : State) (x : HandOver) : HostWin := { s.hostWin x.from_ x.fromWin with dpa := x.toDpa }

/-- The checks of R382, but for the target beat. (log 88, DEDUCED) -/
def State.handoverOk (s : State) (x : HandOver) : Bool :=
  let h := s.hostWin x.from_ x.fromWin
  h.valid && h.shared && h.wing == x.wing && !(s.winInUse x.to_ x.toWin) && (s.port x.to_).st == .enabled
    && s.granted x.to_ x.wing && s.dpaFree x.to_ x.toWin (s.handedWin x)

/-- The hand-over a descriptor names (Table 15-4). -/
def handoverOf (f : Flight) : HandOver :=
  { fid := f.fid, wing := f.wing, from_ := f.u 16 1, to_ := f.u 17 1, fromWin := f.u 18 1, toWin := f.u 19 1
    toDpa := f.u 32 8 / pageSize }

/-- HOST_HANDOVER (R382). -/
def State.hostHandover (s : State) (f : Flight) : State :=
  let x := handoverOf f
  if !(f.zero [(12, 4), (20, 4), (40, 88)]) || decide (7 < x.from_) || decide (7 < x.to_) || x.from_ == x.to_ || decide (15 < x.fromWin)
      || decide (15 < x.toWin) || decide (f.u 32 8 % pageSize ≠ 0) || !(s.handoverOk x) then
    s.fixSt f.fid .invalid
  else
    match s.beatRefusal (f.u 24 8) with
    | some st => s.fixSt f.fid st
    | none => ({ s with handovers := s.handovers ++ [x] }.schedule (f.u 24 8) (.handover f.fid)).admitNow f.fid

def execHostHandover (fid : Nat) (s : State) : Host.Outcome State Fault Refusal :=
  work s (match s.ready? fid 0x950 with
    | some f => s.hostHandover f
    | none => s)

def startedMove (fid : Nat) (y : HandOver) : HandOver := if y.fid = fid then { y with moved := true } else y

/-- Gives the window to its new port, denies the old one, and starts the removal (R383). -/
def State.moveWin (s : State) (x : HandOver) : State :=
  let h := s.handedWin x
  let a := s.reg (winAReg x.from_ x.fromWin)
  let s := ((s.setReg (winAReg x.to_ x.toWin) a).setReg (winBReg x.to_ x.toWin) (h.pages + h.dpa * 2 ^ 32)).renewWin x.to_ x.toWin
  let s := s.setReg (winAReg x.from_ x.fromWin) (a - 1)
  let p := s.port x.from_
  let s := s.setPort x.from_ { p with denied := insertNew p.denied x.fromWin }
  { s with handovers := s.handovers.map (startedMove x.fid) }.removeWin x.from_ x.fromWin

/-- The target beat of a hand-over (R383). One that was stopped before does nothing (R409). -/
def State.handoverAt (s : State) (fid : Nat) : State :=
  match s.handovers.find? fun x => x.fid == fid with
  | none => s
  | some x =>
    let gone := { s with handovers := s.handovers.filter fun y => y.fid != fid }
    match s.active? fid 0x950 with
    | none => gone
    | some _ =>
      if (s.hostWin x.to_ x.toWin).valid || (s.port x.to_).st != .enabled || !(s.hostWin x.from_ x.fromWin).valid then gone.fixSt fid .invalid
      else s.moveWin x

/-! ## Management (R385, R386) -/

/-- Whether a path answers now: the mailboxes and DOE over the link, MCTP from the end of LINK on (R363, R479).
(log 90, DEDUCED) -/
def State.pathOpen (s : State) : MPath → Bool
  | .mailbox ld => s.power.rails == .good && s.link.trained && (ld == 0 || s.link.cxl)
  | .doe ld => s.power.rails == .good && s.link.trained && (ld == 0 || s.link.cxl)
  | .fmLd => s.power.rails == .good && s.link.cxl && !s.err.fatal
  | .mctp => s.power.rails == .good && s.link.everTrained

/-- Answers a management command. (log 11, PRESUMED) -/
def State.answer (s : State) (path : MPath) (cmd : Nat) (ok : Bool) (fields : List Nat) : State := s.emit (.mgmt path cmd ok fields)

/-- Paths that carry MLD commands (Table 15-5). -/
def carriesMld : MPath → Bool
  | .fmLd => true | .mctp => true
  | _ => false

/-- Paths that carry the memory-device commands of a logical device (Table 15-5). -/
def carriesMem (ld : Nat) : MPath → Bool
  | .mailbox n => n == ld
  | .mctp => ld == 0
  | _ => false

/-- An answer whose contents the spec does not state (R386). -/
def State.answerFree (s : State) (path : MPath) (cmd : Nat) : State := (s.answer path cmd true [s.free]).useFree

/-- A fraction of the link in units of `HP_BW.LIMIT`, rounded to the nearest. (log 89, DEDUCED) -/
def bwUnits (num den : Nat) : Nat := (2048 * num + den) / (2 * den)

/-- Sets a port's limit; a fraction that is none, or above 1, is refused (R386). (log 89, DEDUCED) -/
def State.setLimit (s : State) (path : MPath) (port num den : Nat) : State :=
  if den = 0 ∨ den < num then s.answer path 0x5409 false []
  else
    let t := s.setReg (hpReg port 0x18) (bwUnits num den)
    (t.within (t.limitSet port)).answer path 0x5409 true [port, bwUnits num den]

/-- Fields of an event record: code, unit, and its DPA + 1 or 0 (R503). -/
def EvRec.fields (r : EvRec) : List Nat := [r.code, r.unit, (r.dpa.map (· + 1)).getD 0]

/-- Clears the oldest event records; the overflow count returns to 0 with the last record (R503). (log 89, DEDUCED) -/
def State.clearEvents (s : State) (path : MPath) (ld log count : Nat) : State :=
  let k := ld * 4 + log
  let rest := (tget [] s.logs k).drop count
  let s := { s with
    logs := tset [] s.logs k rest
    logLost := if rest.isEmpty then tset 0 s.logLost k 0 else s.logLost }
  s.answer path 0x101 true []

/-- What a management command does once it is served: eight logical devices of 32 TiB each (R364, R367, R386); the limit in units of 1/1024 of
128 GB/s; media status READY after MOUNT (R521); the overflow count and then the event records, oldest first (R503); of interrupt policies
only "no interrupts". Fields that the spec does not state are free. (log 11, PRESUMED) -/
def State.mgmtRun (s : State) (path : MPath) : MgmtCmd → State
  | .getLdInfo => s.answer path 0x5400 true [8]
  | .getLdAllocations => s.answer path 0x5401 true (List.replicate 8 (2 ^ 45))
  | .getQosControl => s.answerFree path 0x5403
  | .getQosStatus => s.answerFree path 0x5405
  | .getQosAllocatedBw => s.answerFree path 0x5406
  | .getQosBwLimit port => s.answer path 0x5408 true [port, bits (s.reg (hpReg port 0x18)) 10 0]
  | .setQosBwLimit port num den => s.setLimit path port num den
  | .identify ld => s.answer path 0x4000 true [ld, 2 ^ 45]
  | .getHealthInfo ld => (s.answer path 0x4200 true [ld, b2n s.isReady, s.free]).useFree
  | .getEventRecords ld log =>
    s.answer path 0x100 true (tget 0 s.logLost (ld * 4 + log) :: ((tget [] s.logs (ld * 4 + log)).map EvRec.fields).flatten)
  | .clearEventRecords ld log count => s.clearEvents path ld log count
  | .setEventInterruptPolicy noInterrupts => s.answer path 0x103 noInterrupts []

/-- Whether the phase that a management command needs is reached: the firmware runs (R49, R479); a write to a host port block needs READY. -/
def State.mgmtReady (s : State) : MgmtCmd → Bool
  | .setQosBwLimit _ _ _ => s.boot.hkImage.isSome && s.isReady
  | _ => s.boot.hkImage.isSome

/-- Whether a path answers while no firmware runs (R479): the mailboxes, of LD 0 only where no image is found (R482), and MCTP.
(log 90, DEDUCED) -/
def State.earlyPath (s : State) : MPath → Bool
  | .mailbox ld => ld == 0 || !s.boot.noImage
  | .doe _ => true
  | .mctp => true
  | .fmLd => false

/-- Whether a management command over a path is heard. -/
def State.mgmtHeard (s : State) (path : MPath) : Bool := s.pathOpen path && (s.boot.hkImage.isSome || s.earlyPath path)

/-- A management command: unsupported on a path that does not carry it; one that needs a later phase waits for it (R385, R479).
(log 11, PRESUMED) -/
def managed (s : State) (path : MPath) (carries : Bool) (cmd : Nat) (c : MgmtCmd) : Host.Outcome State Fault Refusal :=
  .next (if !(s.mgmtHeard path) then s
    else if !carries then s.answer path cmd false []
    else if s.mgmtReady c then s.mgmtRun path c
    else { s with mgmtWaits := s.mgmtWaits ++ [(path, c)] })

/-- Serves the management commands whose phase is reached, in arrival order. -/
def State.mgmtServe (s : State) : State :=
  s.mgmtWaits.foldl (fun s x => if s.mgmtReady x.2 then s.mgmtRun x.1 x.2 else { s with mgmtWaits := s.mgmtWaits ++ [x] })
    { s with mgmtWaits := [] }

/-- A management command that no path carries (R385, R386). -/
def unsupported (s : State) (path : MPath) (cmd : Nat) : Host.Outcome State Fault Refusal :=
  .next (if s.mgmtHeard path then s.answer path cmd false [] else s)

/-- GET_LD_INFO (R364, R386). -/
def execGetLdInfo (path : MPath) (s : State) : Host.Outcome State Fault Refusal := managed s path (carriesMld path) 0x5400 .getLdInfo

/-- GET_LD_ALLOCATIONS (R386). -/
def execGetLdAllocations (path : MPath) (s : State) : Host.Outcome State Fault Refusal :=
  managed s path (carriesMld path) 0x5401 .getLdAllocations

/-- GET_QOS_CONTROL (R386). -/
def execGetQosControl (path : MPath) (s : State) : Host.Outcome State Fault Refusal :=
  managed s path (carriesMld path) 0x5403 .getQosControl

/-- GET_QOS_STATUS (R386). -/
def execGetQosStatus (path : MPath) (s : State) : Host.Outcome State Fault Refusal :=
  managed s path (carriesMld path) 0x5405 .getQosStatus

/-- GET_QOS_ALLOCATED_BW (R386). -/
def execGetQosAllocatedBw (path : MPath) (s : State) : Host.Outcome State Fault Refusal :=
  managed s path (carriesMld path) 0x5406 .getQosAllocatedBw

/-- GET_QOS_BW_LIMIT (R386). -/
def execGetQosBwLimit (path : MPath) (port : Nat) (s : State) : Host.Outcome State Fault Refusal :=
  managed s path (carriesMld path) 0x5408 (.getQosBwLimit port)

/-- SET_QOS_BW_LIMIT (R386): before READY it waits, as a write to a host port block needs READY (R479). (log 89, DEDUCED) -/
def execSetQosBwLimit (path : MPath) (port num den : Nat) (s : State) : Host.Outcome State Fault Refusal :=
  managed s path (carriesMld path) 0x5409 (.setQosBwLimit port num den)

/-- SET_LD_ALLOCATIONS: unsupported (R386). -/
def execSetLdAllocations (path : MPath) (s : State) : Host.Outcome State Fault Refusal := unsupported s path 0x5402

/-- SET_QOS_CONTROL: unsupported (R386). -/
def execSetQosControl (path : MPath) (s : State) : Host.Outcome State Fault Refusal := unsupported s path 0x5404

/-- SET_QOS_ALLOCATED_BW: unsupported (R386). (log 89, DEDUCED) -/
def execSetQosAllocatedBw (path : MPath) (s : State) : Host.Outcome State Fault Refusal := unsupported s path 0x5407

/-- UNSUPPORTED_COMMAND (R385). -/
def execUnsupportedCommand (path : MPath) (code : Nat) (s : State) : Host.Outcome State Fault Refusal := unsupported s path code

/-- IDENTIFY (R367, R385). (log 11, PRESUMED) -/
def execIdentify (path : MPath) (ld : Nat) (s : State) : Host.Outcome State Fault Refusal :=
  managed s path (carriesMem ld path) 0x4000 (.identify ld)

/-- GET_HEALTH_INFO (R385, R521). (log 11, PRESUMED) -/
def execGetHealthInfo (path : MPath) (ld : Nat) (s : State) : Host.Outcome State Fault Refusal :=
  managed s path (carriesMem ld path) 0x4200 (.getHealthInfo ld)

/-- GET_EVENT_RECORDS (R503). -/
def execGetEventRecords (path : MPath) (ld log : Nat) (s : State) : Host.Outcome State Fault Refusal :=
  managed s path (carriesMem ld path) 0x100 (.getEventRecords ld log)

/-- CLEAR_EVENT_RECORDS (R503). (log 89, DEDUCED) -/
def execClearEventRecords (path : MPath) (ld log count : Nat) (s : State) : Host.Outcome State Fault Refusal :=
  managed s path (carriesMem ld path) 0x101 (.clearEventRecords ld log count)

/-- SET_EVENT_INTERRUPT_POLICY (R503). -/
def execSetEventInterruptPolicy (path : MPath) (noInterrupts : Bool) (s : State) : Host.Outcome State Fault Refusal :=
  managed s path (carriesMem 0 path) 0x103 (.setEventInterruptPolicy noInterrupts)

end Sys2Proof.Machine
end

