-- ==== Sys2Proof/Machine/Power.lean ====
section
/-!
DEFINITION. Power, hold-up bank, cooling and resets (19, 20): sequencing, the power-fail flush, what outlives a reset, the power limiter,
temperatures, the Cellar mount.
-/
namespace Sys2Proof.Machine
open Sys2Proof

/-! ## What outlives a reset (R271, R472, Table 20-5) -/

/-- Ranges that outlive a reset. -/
def State.durableRanges (s : State) : List Range :=
  (s.ranges.filter fun r => r.tier == 2 && r.durable && r.ready).map fun r => { r with regions := [], fid := none, freeFrom := none, freeFor := [] }

/-- Whether a byte of the tiers, by wing and address, lies in one of some ranges. -/
def inSome (l : List Range) (w a : Nat) : Bool :=
  l.any fun r => r.wing == w && decide (r.base ≤ a / pageSize) && decide (a / pageSize < r.base + r.pages)

/-- The units of a range leave the map. -/
def Cellar.forgetRange (c : Cellar) (r : Range) : Cellar :=
  c.discard (unitKey r.wing (r.base * pageSize)) (unitKey r.wing (r.base * pageSize) + 16 * r.pages)

/-- Whether a collection comes back with committed content (R159). -/
def State.keptColl (s : State) (key : Nat) : Bool :=
  match tfind s.mirrors key with
  | some m => m.mem.isSome
  | none => false

/-- The units of a collection's internal pages leave the map. -/
def Cellar.forgetColl (c : Cellar) (w : Nat) (x : Coll) : Cellar :=
  c.discard (unitKey w (x.winBase * pageSize)) (unitKey w (x.winBase * pageSize) + 16 * x.winPages)

/-- The units of a session's spilled pages leave the map. -/
def Cellar.forgetSess (c : Cellar) (w : Nat) (x : Sess) : Cellar :=
  c.discard (unitKey w (x.winBase * pageSize)) (unitKey w (x.winBase * pageSize) + 16 * x.winPages)

/-- The Cellar as the next mount finds it: its flash, map, health and records; every range without DURABLE released. Without a closing record
the map is what checkpoint, journal and block headers give (R352).
(log 103, DEDUCED) -/
def State.keptCellar (s : State) : Cellar :=
  let c := if s.cellar.closed then s.cellar else s.cellar.recovered
  let c := (s.ranges.filter fun r => r.tier == 2 && !(r.durable && r.ready)).foldl Cellar.forgetRange c
  let c := (s.colls.filter fun e => e.2.winPages != 0 && !(s.keptColl e.1)).foldl (fun c e => c.forgetColl (e.1 / 65536) e.2) c
  let c := (s.sessions.filter fun e => e.2.winPages != 0).foldl (fun c e => c.forgetSess (e.1 / 65536) e.2) c
  { c.settle c.journalCyc with
    st := .mounting, unclean := false, ops := [], syncs := [], excluded := [], closing := false, chanDown := [], chanOff := [], bgFrom := none }

/-- What the Cellar keeps without power, and what the model keeps over every step. (log 103, DEDUCED) -/
def State.persist (s : State) : State :=
  let l := s.durableRanges
  { State.reset with
    cyc := s.cyc, ranges := l, mirrors := s.mirrors, cellar := s.keptCellar
    low := tkeep s.low fun k => inSome l (k / 2 ^ 52) (k % 2 ^ 52)
    lowBad := s.lowBad.filter fun k => inSome l (k / 2 ^ 46) (keyAddr k)
    boot := { bootArea := s.boot.bootArea }
    nextId := s.nextId, stamp := s.stamp, fresh := s.fresh, out := s.out, pending := s.pending }

/-- Every rail is removed: only the input stage runs (R472). -/
def State.railsOff (s : State) : State :=
  let p := s.power
  { s.persist with
    power := { input := p.input, pwrEn := p.pwrEn, offLatch := p.offLatch, perst := p.perst, bankOk := p.bankOk && p.input
               unsetCyc := p.unsetCyc, offCyc := if p.pwrEn then some s.cyc else none } }

/-- A module reset (Table 20-5): rails, straps, link training, the Cellar's contents and a verified image stay; start-up resumes at IMAGE.
Event records and SPDM states are not among what it clears. (log 103, DEDUCED) -/
def State.moduleReset (s : State) : State :=
  let b := s.boot
  { s.persist with
    cyc := 0, link := s.link, logs := s.logs, logLost := s.logLost, spdm := s.spdm
    signings := s.signings.filter fun x => match x with
      | .spdm _ _ _ _ => true
      | .identProof _ => false
    power := { s.power with flush := none, past := false, measured := false, lastOff := 0 }
    boot := { phase := phaseImage, bootArea := b.bootArea, staging := if b.stagingOk then b.staging else none, stagingOk := b.stagingOk
              profile := s.power.straps } }

/-! ## Power-up (R462, R470, R471) -/

/-- The rails start when the input is there, PWR_EN is asserted and no trip keeps the module off. -/
def State.startRails (s : State) : State :=
  let p := s.power
  if p.rails = .off ∧ p.input = true ∧ p.pwrEn = true ∧ p.offLatch = false then
    { s with power := { p with rails := .starting, startCyc := s.cyc, offCyc := none } }
  else s

/-- INPUT_START_THRESHOLD (R464, R470): the input reaches 47.0 V; an input restored ends a trip's hold (R476). (log 99, DEDUCED) -/
def execInputStartThreshold (s : State) : Host.Outcome State Fault Refusal :=
  let p := s.power
  .next ({ s with power := { p with input := true, offLatch := p.offLatch && p.input } }.startRails)

/-- 100 ms in cycles. -/
def cyc100ms : Nat := 150000000

/-- PWR_EN_ASSERT (R470, R476). -/
def execPwrEnAssert (s : State) : Host.Outcome State Fault Refusal :=
  let p := s.power
  if p.pwrEn then .next s
  else .next ({ s with power := { p with pwrEn := true, offLatch := p.offLatch && decide (s.cyc < p.unsetCyc + cyc100ms) } }.startRails)

/-- POWER_UP_DELAY_EXPIRY (R471): 100 ms after every rail went off with PWR_EN asserted. -/
def execPowerUpDelayExpiry (s : State) : Host.Outcome State Fault Refusal :=
  .next (match s.power.offCyc with
    | some c => if c + cyc100ms ≤ s.cyc then s.startRails else s
    | none => s)

/-- RAILS_GOOD (R462, R478): the straps are sampled, the resets released; the boot ROM starts. -/
def execRailsGood (straps : Nat) (s : State) : Host.Outcome State Fault Refusal :=
  .next (if s.power.rails = .starting then
    { s with
      cyc := 0, power := { s.power with rails := .good, straps := straps % 4, startBefore := s.cyc - s.power.startCyc }
      boot := { s.boot with phase := phaseImage, profile := straps % 4 } }
  else s)

/-! ## The power-fail flush (R353, R354, R465, R471, R493) -/

/-- A Bruvia port stops. -/
def BpSt.stopped (b : BpSt) : BpSt := { b with link := .down, txq := [], reqs := [], deferred := [] }

/-- Step 1: units stop, work in flight is abandoned. (log 102, DEDUCED) -/
def State.quiesce (s : State) : State :=
  let bps := s.bps.map fun (e : Nat × BpSt) => (e.1, e.2.stopped)
  { s with
    flights := [], reqs := [], stkOps := [], regionJobs := [], unitQ := [], sliceEnd := [], transit := [], progs := [], bricks := [], accesses := []
    memWaits := [], pins := [], embJobs := [], embFrames := [], bps }

/-- A flush begins; `after` is 0 when the rails go off after it, 1 for a module reset. One that runs goes to its end (R354): a power failure in the
cycle it began gives its cause, a power-down takes the place of a reset. (log 102, DEDUCED) -/
def State.beginFlush (s : State) (cause after : Nat) : State :=
  let p := s.power
  match p.flush with
  | some c =>
    { s with power := { p with
      flush := some (if cause = 1 ∧ c = 2 ∧ p.flushCyc = s.cyc then 1 else c), afterFlush := if after = 0 then 0 else p.afterFlush } }
  | none =>
    { s.quiesce with
      power := { p with flush := some cause, afterFlush := after, flushCyc := s.cyc }
      cellar := { s.cellar with st := if s.cellar.st = .mounting then .mounting else .flushing } }

/-- POWER_FAILURE (R464, R465): the input leaves its limits. -/
def execPowerFailure (s : State) : Host.Outcome State Fault Refusal :=
  let t := { s with power := { s.power with input := false } }
  .next (match s.power.rails with
    | .good => t.beginFlush 1 0
    | .starting => t.railsOff
    | .off => { t with power := { t.power with bankOk := false } })

/-- PWR_EN_DEASSERT (R471). -/
def execPwrEnDeassert (s : State) : Host.Outcome State Fault Refusal :=
  let t := { s with power := { s.power with pwrEn := false, unsetCyc := if s.power.pwrEn then s.cyc else s.power.unsetCyc } }
  .next (match s.power.rails with
    | .good => t.beginFlush 2 0
    | .starting => t.railsOff
    | .off => { t with power := { t.power with offCyc := none } })

/-- FLUSH_COMPLETE (R353, R354): the closing record is written; the rails go off or the reset acts. With the input back after a power failure
a full start-up follows at once. -/
def execFlushComplete (s : State) : Host.Outcome State Fault Refusal :=
  match s.power.flush with
  | none => .next s
  | some cause =>
    let t := if s.cellar.st = .mounting then s
      else (s.flushCellar cause).cel fun c => c.flushed ((s.cyc - s.power.flushCyc) / 1500) s.flushBytes
    if s.power.afterFlush = 1 then .next t.moduleReset
    else if cause = 1 then .next t.railsOff.startRails
    else .next t.railsOff

/-! ## The hold-up bank (R468, R469) -/

/-- A waiting mount proceeds. (log 103, DEDUCED) -/
def State.mountNow (s : State) : State :=
  if s.boot.phase = phaseBank ∧ s.boot.fail = false then { s with boot := { s.boot with phase := phaseMount } } else s

/-- BANK_CHARGED (R468): the bank holds 400 J. -/
def execBankCharged (s : State) : Host.Outcome State Fault Refusal :=
  .next (if s.power.input then { s with power := { s.power with bankOk := true } }.mountNow else s)

/-- The bank is low: the dirty budget is 0, durable pages are written back in TC7, a waiting mount proceeds (R469).
(log 102, DEDUCED) -/
def State.bankWeak (s : State) : State :=
  let t := ({ s with power := { s.power with bankLow := true } }.event 0x03 0).mountNow
  t.cleanDurable 7

/-- BANK_MEASURE (R469). (log 102, DEDUCED) -/
def execBankMeasure (joules : Nat) (s : State) : Host.Outcome State Fault Refusal :=
  .next (if s.power.rails ≠ .good ∨ s.power.flush.isSome = true then s
    else
      let first := !s.power.measured
      let t := { s with power := { s.power with bankJ := sat joules 10, measured := true } }
      if joules < 400 then t.bankWeak
      else if first then { t with power := { t.power with bankLow := false } } else t)

/-- BANK_OK_TIMEOUT (R469): 2 s after the start threshold. (log 99, DEDUCED) (log 118, DEDUCED) -/
def execBankOkTimeout (s : State) : Host.Outcome State Fault Refusal :=
  .next (if s.power.rails = .good ∧ s.power.bankOk = false ∧ s.power.bankLow = false ∧ 3000000000 < s.power.startBefore + s.cyc then s.bankWeak
    else s)

/-! ## The power limiter (R466, R467) -/

/-- The run of means above 2,000 W after a mean. -/
def Power.runAfter (p : Power) (mean : Nat) : Nat := if 2000 < mean then p.runAbove + 1 else 0

/-- Whether a sample breaks a limit of R466 with every step of the limiter in force (R467). (log 100, DEDUCED) -/
def Power.breaks (p : Power) (mean mean1s : Nat) : Bool :=
  p.limit && p.limitStep == 3 && (decide (2000 < mean1s) || decide (2200 < mean) || decide (100 < p.runAfter mean))

/-- A 100 us mean on the power state: the run above 2,000 W, the limiter and its steps, the limits broken. (log 100, DEDUCED) -/
def Power.sampled (p : Power) (mean mean1s vin : Nat) : Power :=
  let run := p.runAfter mean
  let engage := decide (80 ≤ run) || decide (2150 < mean) || decide (1950 < mean1s)
  let release := decide (mean < 1900) && decide (mean1s < 1900)
  let q := { p with
    vin := sat vin 16, pin := sat mean 16, runAbove := run, pinSum := p.pinSum + mean, pinN := p.pinN + 1
    past := p.past || p.breaks mean mean1s }
  if engage then { q with limit := true, limitStep := if p.limit then min 3 (p.limitStep + 1) else 1 }
  else if release then { q with limit := false, limitStep := 0 }
  else q

/-- POWER_SAMPLE (R466, R467): each run above 2,000 W is an excursion, counted when it begins. (log 100, DEDUCED) -/
def execPowerSample (mean100us mean1s vin : Nat) (s : State) : Host.Outcome State Fault Refusal :=
  .next (if s.power.rails ≠ .good then s
    else
      let q := s.power.sampled mean100us mean1s vin
      let t := { s with power := q }
      let t := if s.power.runAbove = 0 ∧ q.runAbove = 1 then t.bump 0x1048 else t
      let t := if s.power.breaks mean100us mean1s then t.markSet 0x1008 else t
      if q.past && !s.power.past then t.event 0x02 0 else t)

/-! ## Temperatures (R475, R476) -/

/-- A number for each sensor. -/
def sensorKey : Sensor → Nat
  | .hall i => i
  | .gateCellar i => 8 + i
  | .floor i => 16 + i
  | .nand i => 32 + i
  | .inlet => 128

/-- Throttle threshold in units of 0.1 degree (Table 19-9). -/
def throttleAt : Sensor → Int
  | .hall _ => 950
  | .gateCellar _ => 1000
  | .floor _ => 920
  | .nand _ => 700
  | .inlet => 420

/-- Trip temperature (Table 19-9). -/
def tripAt : Sensor → Int
  | .hall _ => 1050
  | .gateCellar _ => 1100
  | .floor _ => 1000
  | .nand _ => 800
  | .inlet => 500

/-- An action that starts at a threshold and ends at or below another temperature, as a list of the sensors it acts for. -/
def crossing (l : List Nat) (k : Nat) (start stop : Bool) : List Nat :=
  if start then (if l.contains k then l else l ++ [k]) else if stop then l.filter fun x => x != k else l

/-- A temperature as it is kept: units of 0.1 degree above -100 degrees. (log 101, DESIGN CHOICE) -/
def keptTemp (t : Int) : Nat := (t + 1000).toNat

/-- A sensor's reading on the power state. (log 101, DESIGN CHOICE) -/
def Power.felt (p : Power) (x : Sensor) (t : Int) : Power :=
  let k := (sensorKey x)
  let fast := match x with
    | .floor _ => crossing p.fastRefresh k (decide (850 ≤ t)) (decide (t < 820))
    | _ => p.fastRefresh
  let slow := match x with
    | .inlet => p.throttles
    | _ => crossing p.throttles k (decide (throttleAt x ≤ t)) (decide (t ≤ throttleAt x - 30))
  let hot := match x with
    | .inlet => if throttleAt x ≤ t then true else if t ≤ throttleAt x - 30 then false else p.hotInlet
    | _ => p.hotInlet
  { p with temps := tset 1000 p.temps k (keptTemp t), fastRefresh := fast, throttles := slow, hotInlet := hot }

/-- THERMAL_THRESHOLD (R475): the coolant inlet's crossing is a module event. (log 101, DESIGN CHOICE) -/
def execThermalThreshold (sensor : Sensor) (temp : Int) (s : State) : Host.Outcome State Fault Refusal :=
  .next (if s.power.rails ≠ .good then s
    else
      let q := s.power.felt sensor temp
      let t := { s with power := q }
      if q.hotInlet && !s.power.hotInlet then t.event 0x04 0 else t)

/-- THERMAL_TRIP (R476): a sensor stayed at or above its trip temperature for 1 ms. (log 99, DEDUCED) -/
def execThermalTrip (sensor : Sensor) (s : State) : Host.Outcome State Fault Refusal :=
  let t := { s with power := { s.power with offLatch := true, temps := tmod 1000 s.power.temps (sensorKey sensor) (max (keptTemp (tripAt sensor))) } }
  .next (match s.power.rails with
    | .good => t.beginFlush 3 0
    | .starting => t.railsOff
    | .off => s)

/-! ## The Cellar mount (R159, R271, R352) -/

/-- Takes frames for a returning collection, if they are to be had; no charge fails (R285). -/
def State.framesFor (s : State) (w : Nat) (l : List Nat) (t : List FrameAt) (n : Nat) : State × List FrameAt :=
  match s.takeFrames w l t n with
  | some x => x
  | none => (s, t)

/-- Parts of a returning collection that count as loaded. -/
def Mirror.loaded (m : Mirror) : List Loaded :=
  if m.mem.isNone then []
  else
    (([0, 1, 2, 3, 5, 7]).filter fun p => m.defn.has p && (p == 0 || p == 1 || p == 2 || p == 7 || m.defn.inCellar p)).map fun p =>
      { part := p, shard := 0, first := 0, count := if p = 1 ∨ p = 2 then m.defn.dim else m.defn.capacity }

/-- A collection from its durable mirror: in BUILDING at version 0 (R159). -/
def Mirror.back (m : Mirror) (dies : List Nat) (frames : List FrameAt) : Coll :=
  { defn := m.defn, dies, frames, mem := m.mem.getD [], bad := m.bad, loaded := m.loaded, winBase := m.winBase, winPages := m.defn.winPages
    zeros := m.zeros }

/-- A DURABLE collection is present again, its pages charged to its wing. -/
def State.returnColl (s : State) (x : Nat × Mirror) : State :=
  let d := x.2.defn
  let w := x.1 / 65536
  let dies := pickDies s.free d.shards
  let r := (dies.map fun i => (dieStacks i, d.shardPages)).foldl (fun (acc : State × List FrameAt) y => acc.1.framesFor w y.1 acc.2 y.2) (s.useFree, [])
  let r := r.1.framesFor w allStacks r.2 1
  let n := d.shards * d.shardPages + 1
  { r.1 with
    colls := tput r.1.colls x.1 (x.2.back dies r.2)
    intFloor := tset 0 r.1.intFloor w (tget 0 r.1.intFloor w + n)
    intCellar := tset 0 r.1.intCellar w (tget 0 r.1.intCellar w + d.cellarPages) }

/-- The mount on the Cellar: clean with a closing record, else counted as unclean (R352). -/
def Cellar.mounted (c : Cellar) (cyc : Nat) : Cellar :=
  let d := { c with
    st := if c.spare = 0 then .readOnly else .mounted, unclean := !c.closed, closed := false, cause := 0
    journalCyc := cyc, tempCyc := cyc }
  if c.closed then d else d.healthAdd 56 4 1

/-- Start-up halts in a phase (R479). -/
def State.startFails (s : State) (phase : Nat) : State :=
  { s with boot := { s.boot with fail := true, failPhase := phase } }.event 0x05 phase

/-- CELLAR_MOUNT_DONE (R352, R473, R478, R485): once the flush reserve holds 5 GiB of erased blocks again, the module is READY with the profile of
the straps; or start-up halts. -/
def execCellarMountDone (ok : Bool) (s : State) : Host.Outcome State Fault Refusal :=
  .next (
    if s.power.rails ≠ .good ∨ s.power.flush.isSome = true ∨ s.boot.phase ≠ phaseMount ∨ s.boot.fail = true then s
    else if !ok then s.startFails phaseMount
    else if !s.cellar.reserveFull then s
    else
      let s := { s with
        power := { s.power with lastOff := if s.cellar.closed then s.cellar.cause else 0 }
        boot := { s.boot with phase := phaseReady, profile := s.power.straps }, cellar := s.cellar.mounted s.cyc }
      (s.mirrors.foldl State.returnColl s).mgmtServe)

end Sys2Proof.Machine
end

