-- ==== Sys2Proof/Machine/Boot.lean ====
section
/-!
DEFINITION. Start-up, firmware, profiles, attestation and reset requests (20, 22): phases, images and their transfer, `PROF_SET`,
`RST_CTRL`, closing of set-up, SPDM, the Housekeeper.
-/
namespace Sys2Proof.Machine
open Sys2Proof

/-! ## The Housekeeper and its image (R480 to R484) -/

/-- Image that the Housekeeper starts from: a verified one in staging memory, else the boot area's. -/
def Boot.startImage (b : Boot) : Option Bytes := if b.stagingOk then b.staging else b.bootArea

/-- The Housekeeper starts (R484); management commands that waited for it are served (R479). (log 104, DEDUCED) -/
def State.startHk (s : State) : State :=
  { s with boot := { s.boot with hkImage := s.boot.startImage, hkFrom := s.cyc } }.mgmtServe

/-- Whether an image's header and digests are right (R481). -/
def imageOk (i : Bytes) : Bool :=
  let n := fld i 16 4
  i.take 4 == [0x45, 0x53, 0x46, 0x57] && fld i 4 2 == 1 && zeroAt i 6 2 && zeroAt i 12 4 && inside 4096 25165824 n && decide (n % 4096 = 0)
    && zeroAt i 20 4 && zeroAt i 3788 308 && i.length == 4096 + n && Config.sha3 (slice i 56 1312) == Config.romKeyHash
    && Config.mldsaVerify (slice i 56 1312) (slice i 0 56) (slice i 1368 2420) && Config.sha3 (i.drop 4096) == fld i 24 32

/-- The firmware starts and start-up goes on from the end of IMAGE. -/
def State.imageFound (s : State) : State := { s with boot := { s.boot with phase := phaseFloor, noImage := false } }.startHk

/-- IMAGE_VERIFY_DONE (R478, R481, R482): the boot area's image when it is valid, else the boot ROM waits for one. -/
def execImageVerifyDone (image : Option Bytes) (s : State) : Host.Outcome State Fault Refusal :=
  .next (if s.power.rails ≠ .good ∨ s.boot.phase ≠ phaseImage ∨ s.power.flush.isSome = true then s
    else
      let s := { s with boot := { s.boot with bootArea := image } }
      if s.boot.startImage.isSome then s.imageFound else { s with boot := { s.boot with noImage := true } })

/-- FLOOR_TRAIN_DONE (R478, R479): every stack trained, or start-up halts. -/
def execFloorTrainDone (failed : Option Nat) (s : State) : Host.Outcome State Fault Refusal :=
  .next (if s.power.rails ≠ .good ∨ s.boot.phase ≠ phaseFloor ∨ s.boot.fail = true ∨ s.power.flush.isSome = true then s
    else
      match failed with
      | some _ => s.startFails phaseFloor
      | none =>
        let t := { s with boot := { s.boot with phase := phaseBank } }
        if s.power.bankOk || s.power.bankLow then t.mountNow else t)

/-- Whether firmware commands are answered: the firmware runs, or the boot ROM waits for an image (R482). -/
def State.fwHeard (s : State) (path : MPath) : Bool := s.pathOpen path && (s.boot.hkImage.isSome || s.boot.noImage)

/-- A firmware command: unsupported on a path that does not carry it (Table 15-5). -/
def firmware (s : State) (path : MPath) (cmd : Nat) (f : State → State) : Host.Outcome State Fault Refusal :=
  .next (if !(s.fwHeard path) then s else if carriesMem 0 path then f s else s.answer path cmd false [])

/-- VERSION of an image (Table 20-2); 0 while none runs. -/
def imageVersion (i : Option Bytes) : Nat := (i.map fun b => fld b 8 4).getD 0

/-- GET_FW_INFO (R483): one slot, active and staged. -/
def execGetFwInfo (path : MPath) (s : State) : Host.Outcome State Fault Refusal :=
  firmware s path 0x200 fun s => s.answer path 0x200 true [1, 1, 1, imageVersion s.boot.hkImage]

/-- Return codes of Transfer FW. (log 11, PRESUMED) -/
def fwInvalidInput : Nat := 2
def fwBusy : Nat := 6
def fwOutOfOrder : Nat := 9
def fwBadImage : Nat := 10
def fwBadSlot : Nat := 11

def State.fwFails (s : State) (path : MPath) (code : Nat) : State := s.answer path 0x201 false [code]

/-- Staging memory with a part at an offset. -/
def Boot.put (b : Boot) (off : Nat) (data : Bytes) : Boot :=
  { b with staging := some (slice (b.staging.getD []) 0 off ++ data), xfer := true, xferOff := off + data.length, stagingOk := false }

/-- Staging memory emptied. -/
def Boot.emptied (b : Boot) : Boot := { b with staging := none, xfer := false, xferOff := 0, stagingOk := false }

/-- The check at the end of a transfer: valid goes to the boot area, invalid empties the staging memory (R483, R484). -/
def State.fwEnd (s : State) (path : MPath) : State :=
  if imageOk (s.boot.staging.getD []) then
    { s with boot := { s.boot with xfer := false, stagingOk := true, writing := true, bootArea := none } }.answer path 0x201 true []
  else { s with boot := s.boot.emptied }.fwFails path fwBadImage

/-- A part of a transfer (R483). -/
def State.fwPart (s : State) (path : MPath) (off : Nat) (data : Bytes) (last : Bool) : State :=
  if data.length % 128 ≠ 0 ∨ off % 128 ≠ 0 ∨ 33554432 < off + data.length then s.fwFails path fwInvalidInput
  else
    let t := { s with boot := s.boot.put off data }
    if last then t.fwEnd path else t.answer path 0x201 true []

/-- TRANSFER_FW (R483, R484). (log 11, PRESUMED) -/
def State.transferFw (s : State) (path : MPath) (action : FwAction) (slot off : Nat) (data : Bytes) : State :=
  if slot ≠ 1 then s.fwFails path fwBadSlot
  else if s.boot.writing then s.fwFails path fwBusy
  else
    match action with
    | .full => { s with boot := s.boot.emptied }.fwPart path 0 data true
    | .initiate => { s with boot := s.boot.emptied }.fwPart path off data false
    | .continue => if s.boot.xfer && decide (s.boot.xferOff ≤ off) then s.fwPart path off data false else s.fwFails path fwOutOfOrder
    | .finish => if s.boot.xfer && decide (s.boot.xferOff ≤ off) then s.fwPart path off data true else s.fwFails path fwOutOfOrder
    | .abort => if s.boot.xfer then { s with boot := s.boot.emptied }.answer path 0x201 true [] else s.fwFails path fwOutOfOrder

def execTransferFw (path : MPath) (action : FwAction) (slot off : Nat) (data : Bytes) (s : State) : Host.Outcome State Fault Refusal :=
  firmware s path 0x201 fun s => s.transferFw path action slot off data

/-- BOOT_AREA_WRITE_DONE (R482, R484): the boot area holds the image; start-up goes on, or a deferred reset acts. -/
def execBootAreaWriteDone (s : State) : Host.Outcome State Fault Refusal :=
  .next (if s.boot.writing = false then s
    else
      let t := { s with boot := { s.boot with writing := false, bootArea := s.boot.staging } }
      let t := if t.boot.noImage ∧ t.boot.phase = phaseImage then t.imageFound else t
      if s.boot.rstPending then { t with boot := { t.boot with rstPending := false } }.beginFlush 4 1 else t)

/-- ACTIVATE_FW (R484): at once, or on the next reset. -/
def execActivateFw (path : MPath) (online : Bool) (slot : Nat) (s : State) : Host.Outcome State Fault Refusal :=
  firmware s path 0x202 fun s =>
    if slot ≠ 1 ∨ s.boot.startImage = none then s.answer path 0x202 false [fwBadSlot]
    else (if online ∧ s.boot.hkImage.isSome = true then s.startHk else s).answer path 0x202 true []

/-- The cycle in which the Housekeeper's watchdog was last started: by the start of its firmware or by a service (Table 02-3). When the
firmware services it is free (log 119, DESIGN CHOICE). -/
def State.hkServed (s : State) : Nat := s.boot.hkFrom + s.free % (s.cyc - s.boot.hkFrom + 1)

/-- The cycle in which the Housekeeper's watchdog expires (R46). -/
def State.hkWdogAt (s : State) : Nat := roundUp (s.hkServed + 1500000 * bits (s.reg 0x2018) 15 0) 1500

/-- HK_WATCHDOG_EXPIRY (R49): the Housekeeper alone restarts. (log 104, DEDUCED) (log 118, DEDUCED) (log 119, DESIGN CHOICE) -/
def execHkWatchdogExpiry (s : State) : Host.Outcome State Fault Refusal :=
  .next (if s.boot.hkImage.isNone then s
    else if s.hkWdogAt < s.cyc then (s.useFree.startHk.bump 0x2068).event 0x01 0
    else s.useFree)

/-! ## Reset requests and closing of set-up (R493, R516, R518) -/

/-- A module reset is requested: after the flush, or after a boot-area write. (log 104, DEDUCED) -/
def State.askReset (s : State) : State :=
  if s.boot.rstPending then s
  else if s.boot.writing then { s with boot := { s.boot with rstPending := true } }
  else s.beginFlush 4 1

/-- RST_CTRL_MODULE (R518). -/
def execRstCtrlModule (src key : Nat) (s : State) : Host.Outcome State Fault Refusal :=
  .next (match s.setupRefused src with
    | some t => t
    | none => if s.boot.rstPending then s else if key ≠ 0xA5 then s.lockVio src 0x28 else s.askReset)

/-- MCTP_MODULE_RESET (R493). -/
def execMctpModuleReset (s : State) : Host.Outcome State Fault Refusal :=
  .next (if s.pathOpen .mctp then s.askReset else s)

/-- GLB_SETUP_CLOSE (R516). -/
def execGlbSetupClose (src : Nat) (s : State) : Host.Outcome State Fault Refusal :=
  .next (match s.setupRefused src with
    | some t => t
    | none => { s with boot := { s.boot with setupClosed := true } })

/-! ## Profiles (R485 to R487, R519) -/

/-- Whether a profile can take the present state. -/
def State.profFits (s : State) (p : Nat) : Bool :=
  decide (sumNat ((List.range 16).map s.floorUse) ≤ profPool p)
    && ((List.range 4).all fun i => decide (s.openRegions i ≤ profOpenMax p))
    && (s.progs.all fun e => e.2.bricks.all fun b => inWingPool p b.brick)
    && decide (sumNat ((List.range 16).map s.cacheMin) ≤ profWindow p)

def State.setProfStat (s : State) (st : Status) : State := { s with boot := { s.boot with profStat := st.code } }

/-- R486: the checks of a submission, in order. -/
def State.submitProfile (s : State) (p beat : Nat) : State :=
  if (List.range 16).any fun w => s.wingSt w != .disabled then s.setProfStat .busy
  else
    match s.beatRefusal beat with
    | some st => s.setProfStat st
    | none =>
      if s.boot.profTarget.isSome then s.setProfStat .busy
      else if !(s.profFits p) then s.setProfStat .noResource
      else
        let t := s.setProfStat .enablePending
        { t with boot := { t.boot with profTarget := some (p, beat) } }.schedule beat (.profile p)

/-- PROF_SET_FIRST_WORD (R519). -/
def execProfSetFirstWord (src val : Nat) (s : State) : Host.Outcome State Fault Refusal :=
  .next (match s.setupRefused src with
    | some t => t
    | none => { s with profS := tset 0 s.profS src (val % 2 ^ 64) })

/-- PROF_SET_SUBMIT (R486, R519). -/
def execProfSetSubmit (src val : Nat) (s : State) : Host.Outcome State Fault Refusal :=
  .next (match s.setupRefused src with
    | some t => t
    | none => { s with profS := tset 0 s.profS src 0 }.submitProfile (val % 4) (tget 0 s.profS src))

/-- Allotments outside a profile's wing pool are cleared (R416, R487). (log 105, DEDUCED) -/
def State.trimBricks (s : State) (p : Nat) : State :=
  (List.range 16).foldl (fun s w => (List.range 4).foldl (fun (s : State) n =>
    let off := wngReg w (0x2820 + 8 * n)
    let v := s.reg off
    let kept := sumNat ((List.range 64).map fun i => if bit v i && inWingPool p (64 * n + i) then 2 ^ i else 0)
    if kept = v then s else s.setReg off kept) s) s

/-- Oldest pages of a cache that is above its new share leave it: clean ones at once, dirty ones are written back (R487).
(log 105, DEDUCED) -/
def State.shrinkCache (s : State) : State :=
  (List.range 4).foldl (fun s d =>
    let past := sumNat ([3 * d + 1, 3 * d + 2].map fun i => s.cachedOn i - stackWindow s.prof i)
    ((sortBy olderEnt (s.eligible d)).take past).foldl (fun s e => if e.2.dirty then s.startWriteBack e.1 7 else s.evict e.1) s) s

/-- Durable pages beyond a smaller dirty budget are written back, oldest first (R487). -/
def State.shrinkDirty (s : State) : State :=
  (s.durableKeys.take (s.durableDirty - s.dirtyBudget)).foldl (fun s k =>
    if (s.page (k / 2 ^ 34) (k % 2 ^ 34)).filling then s else s.startWriteBack k 7) s

/-- The first event of a boundary (R487): the change applies, or is dropped. A profile without embedding bricks has no prefetch buffers
(R330). (log 105, DEDUCED) -/
def State.profileAt (s : State) (p : Nat) : State :=
  let s := { s with boot := { s.boot with profTarget := none } }
  if !(s.profFits p) then s.setProfStat .noResource
  else
    let s := s.setProfStat .ok
    let s := { s with boot := { s.boot with profile := p }, prefRows := if profEmbBricks p = 0 then [] else s.prefRows }
    ((s.trimBricks p).shrinkCache).shrinkDirty

/-! ## SPDM (R489 to R492) -/

/-- The requester of a path: each DOE mailbox, and MCTP as 8. -/
def spdmKey : MPath → Option Nat
  | .doe ld => some ld
  | .mctp => some 8
  | _ => none

/-- SPDM error codes: an unexpected request, an invalid one, an unsupported one, unspecified. (log 10, PRESUMED) -/
def spdmUnexpected : Nat := 4
def spdmInvalid : Nat := 1
def spdmUnspecified : Nat := 5

/-- Whether a requester has come far enough for a request (0 none, 1 version, 2 capabilities, 3 algorithms). -/
def SpdmSt.level (x : SpdmSt) : Nat := if x.algs then 3 else if x.caps then 2 else if x.version then 1 else 0

/-- An SPDM request of a code that needs a level; it goes into its requester's transcript. (log 10, PRESUMED) -/
def spdmReq (s : State) (path : MPath) (code level : Nat) (f : State → Nat → State) : Host.Outcome State Fault Refusal :=
  work s (if !(s.pathOpen path) then s
    else
      match spdmKey path with
      | none => s.answer path code false []
      | some k =>
        let x := tget {} s.spdm k
        if x.level < level then s.answer path code false [spdmUnexpected]
        else f { s with spdm := tset {} s.spdm k { x with transcript := x.transcript ++ [code] } } k)

def State.modSpdm (s : State) (k : Nat) (g : SpdmSt → SpdmSt) : State := { s with spdm := tmod {} s.spdm k g }

def SpdmSt.versioned (_ : SpdmSt) : SpdmSt := { version := true, transcript := [0x84] }
def SpdmSt.capable (x : SpdmSt) : SpdmSt := { x with caps := true }
def SpdmSt.agreed (x : SpdmSt) : SpdmSt := { x with algs := true }

/-- GET_VERSION (R490): 1.2 and 1.3; the requester starts again. -/
def execGetVersion (path : MPath) (s : State) : Host.Outcome State Fault Refusal :=
  spdmReq s path 0x84 0 fun s k => (s.modSpdm k SpdmSt.versioned).answer path 0x84 true [0x12, 0x13]

/-- GET_CAPABILITIES (R490): certificates, challenge and signed measurements; no secure sessions. -/
def execGetCapabilities (path : MPath) (s : State) : Host.Outcome State Fault Refusal :=
  spdmReq s path 0xE1 1 fun s k => (s.modSpdm k SpdmSt.capable).answer path 0xE1 true [1, 1, 1, 0]

/-- NEGOTIATE_ALGORITHMS (R490): no base asymmetric algorithm, one extended one, SHA3-256. -/
def execNegotiateAlgorithms (path : MPath) (s : State) : Host.Outcome State Fault Refusal :=
  spdmReq s path 0xE3 2 fun s k => (s.modSpdm k SpdmSt.agreed).answer path 0xE3 true [0, 1, 256]

/-- The chain cannot be read: a module event, and what the request answers then (R489). -/
def State.noChain (s : State) (path : MPath) (code : Nat) (ok : Bool) (fields : List Nat) : State :=
  (s.event 0x06 0).answer path code ok fields

/-- GET_DIGESTS (R489): the slots that are populated, and slot 0's digest. -/
def execGetDigests (path : MPath) (s : State) : Host.Outcome State Fault Refusal :=
  spdmReq s path 0x81 3 fun s _ =>
    if Config.certChain = [] then s.noChain path 0x81 true [0] else s.answer path 0x81 true [1, Config.sha3 Config.certChain]

/-- GET_CERTIFICATE (R489): a part of slot 0's chain. -/
def execGetCertificate (path : MPath) (slot off len : Nat) (s : State) : Host.Outcome State Fault Refusal :=
  spdmReq s path 0x82 3 fun s _ =>
    if Config.certChain = [] then s.noChain path 0x82 false [spdmUnspecified]
    else if slot ≠ 0 ∨ Config.certChain.length ≤ off then s.answer path 0x82 false [spdmInvalid]
    else s.answer path 0x82 true (((Config.certChain.drop off).take len).map fun b => b.toNat)

/-- Queues an SPDM signing behind every one that waits (R492). (log 10, PRESUMED) -/
def State.queueSpdm (s : State) (path : MPath) (code : Nat) (nonce : Bytes) (fields : List Nat) : State :=
  { s with signings := s.signings ++ [.spdm path code nonce fields] }

/-- CHALLENGE (R490). -/
def execChallenge (path : MPath) (nonce : Bytes) (s : State) : Host.Outcome State Fault Refusal :=
  spdmReq s path 0x83 3 fun s _ => s.queueSpdm path 0x83 nonce []

/-- A measurement by index (Table 20-4). -/
def State.measurement (s : State) (i : Nat) : List Nat :=
  if i = 1 then [1, Config.romDigest]
  else if i = 2 then [2, Config.sha3 (slice (s.boot.hkImage.getD []) 0 56)]
  else if i = 3 then [3, imageVersion s.boot.hkImage]
  else if i = 4 then [4, Config.romKeyHash]
  else if i = 5 then [5, Config.sha3 (natLe s.power.straps 1 ++ natLe s.boot.profile 1 ++ natLe (b2n s.boot.setupClosed) 1)]
  else []

/-- GET_MEASUREMENTS (R490, R491): one block, all (255), or how many there are (0). -/
def execGetMeasurements (path : MPath) (index : Nat) (signed : Bool) (s : State) : Host.Outcome State Fault Refusal :=
  spdmReq s path 0xE0 3 fun s _ =>
    let fields := if index = 0 then [5] else if index = 255 then ([1, 2, 3, 4, 5].map s.measurement).flatten else s.measurement index
    if fields = [] then s.answer path 0xE0 false [spdmInvalid]
    else if signed then s.queueSpdm path 0xE0 [] fields
    else s.answer path 0xE0 true fields

/-- What a signature covers: the requester's transcript, its nonce, what the response reports. (log 10, PRESUMED) -/
def signText (x : SpdmSt) (nonce : Bytes) (fields : List Nat) : Bytes :=
  (x.transcript.map fun c => natLe c 1).flatten ++ nonce ++ (fields.map fun c => natLe c 32).flatten

/-- SPDM_SIGN_DONE (R492): the signing that is served ends; its response goes out. (log 10, PRESUMED) -/
def execSpdmSignDone (s : State) : Host.Outcome State Fault Refusal :=
  work s (match s.signings with
    | [] => s
    | .identProof p :: t => { s with signings := t }.sendProof p
    | .spdm path code nonce fields :: t =>
      let x := tget {} s.spdm ((spdmKey path).getD 0)
      { s with signings := t }.answer path code true (fields ++ [leNat (Config.mldsaSign (signText x nonce fields))]))

end Sys2Proof.Machine
end

