-- ==== Sys2Proof/Machine/Join.lean ====
section
/-!
DEFINITION. Slot grants and Join (R84 to R87, R121 to R128): lists of the pipelines and of neighbours merged, results and statistics
written, completions fixed; a search received by FANOUT sends its lists back (R450, R451).
-/
namespace Sys2Proof.Machine
open Sys2Proof

/-- What a granted request does at once: attention over a session reads its pages, a ring member sends its block. -/
def State.afterGrant (s : State) (fid : Nat) : State :=
  match s.req? fid with
  | some r => if r.opcode = 0x312 then s.kvIssue r else if r.opcode = 0x318 then s.ringGranted fid else s
  | none => s

/-- SLOT_GRANT (R84 to R87): a waiting request takes all its slots and segments. -/
def execSlotGrant (fid : Nat) (s : State) : Host.Outcome State Fault Refusal :=
  work s (match s.req? fid, s.grantOf fid with
    | some r, some l =>
      let c := s.reqColl r
      let t := l.foldl (fun (t : State) x =>
        let t := t.bump (spReg x.1 0x40)
        if r.cls = 0 then t.bump (spReg x.1 0x48) else t) s
      (t.modReq fid fun r =>
        { r with waiting := false, handoffCyc := s.sinceDoorbell fid, searches := r.searches.map fun x => x.granted r c l }).afterGrant fid
    | _, _ => s)

/-! ## Statistics (Table 04-6) -/

def sumShards (l : List ShardQ) (g : ShardQ → Nat) : Nat := sumNat (l.map g)

/-- Stop reasons of four shards. -/
def stopBytes (l : List ShardQ) : Bytes :=
  ((List.range 4).map fun k => natLe (((l[k]?).map ShardQ.stop).getD 0xFF) 1).flatten

/-- The statistics record of a search. -/
def statsRecord (r : Req) (l : List ShardQ) (stall emit : Nat) : Bytes :=
  let f := fun (n : Nat) (g : ShardQ → Nat) => natLe (sat (sumShards l g) (8 * n)) n
  natLe r.version 4 ++ f 4 ShardQ.expanded ++ f 4 ShardQ.scored ++ f 4 ShardQ.passed ++ f 4 ShardQ.porchScored
    ++ f 2 ShardQ.refFloor ++ f 2 ShardQ.refCellar ++ f 2 ShardQ.miss ++ natLe (sat ((l.map ShardQ.widest).foldl max 0) 16) 2
    ++ stopBytes l ++ f 8 ShardQ.stackBytes ++ natLe (sat stall 32) 4 ++ natLe (sat r.handoffCyc 32) 4 ++ natLe (sat emit 32) 4
    ++ natLe 0 12

/-! ## Joining one search -/

/-- The lists Join merges for a search: its shards', then the parts' (R121). -/
def joinInput (x : Search) (parts : List PartWait) : List (List Cand) := x.shards.map ShardQ.mantel ++ parts.map PartWait.cands

/-- Counters of one join, and the merge passes of a K above 4,096 (Table 05-6, R115). -/
def State.countJoin (s : State) (r : Req) (lists : List (List Cand)) (j : Joined) : State :=
  let o := spReg r.host
  let s := ((s.bump (o 0x108)).bumpBy (o 0x110) j.dups).bumpBy (o 0x118) j.ties
  let n := sumNat (lists.map List.length)
  if r.k ≤ 4096 ∨ n ≤ 4096 then s
  else
    let runs := sumNat (lists.map fun l => cdiv l.length 4096)
    let s := s.bumpBy (o 0xF8) (passesFor runs runs)
    if s.mergeFits (r.host / 2) n then s else (s.bumpBy (o 0x100) runs).degrade r.fid

/-- Joins one search. -/
def State.joinOne (s : State) (r : Req) (x : Search) : State × Joined :=
  let lists := joinInput x r.parts
  let j := joinCands s.fresh r.k true lists
  ({ s with fresh := s.fresh + sumNat (lists.map List.length) }.countJoin r lists j, j)

/-- Joins every search of a request. -/
def State.joinEach (s : State) (r : Req) : List Search → State × List Joined
  | [] => (s, [])
  | x :: t =>
    let a := s.joinOne r x
    let b := a.1.joinEach r t
    (b.1, a.2 :: b.2)

/-- Whether every list that Join awaits is there (R121). -/
def Req.listsIn (r : Req) : Bool :=
  !r.waiting && r.searches.all (fun x => x.shards.all fun q => q.ph == .accepted)
    && r.parts.all fun p => p.nparts == some p.got

/-- The failing status of the lowest-numbered port (R451). (log 53, DEDUCED) -/
def failingPart (l : List PartWait) : Option Status :=
  ((l.filter fun p => !p.status.chainPasses).foldl (fun (best : Option PartWait) p => match best with
    | some b => if p.port < b.port then some p else some b
    | none => some p) none).map PartWait.status

/-- DEGRADED, STALLED and POISON_SEEN of the parts (R451). -/
def partFlags (l : List PartWait) : Nat :=
  l.foldl (fun acc p => acc ||| (p.flags &&& (flagDegraded + flagStalled + flagPoisonSeen))) 0

/-- Emit for a search or scan (R100, R125 to R128). -/
def State.emitSearch (s : State) (r : Req) (f : Flight) (x : Search) (j : Joined) : State :=
  let n := j.kept.length
  let st := searchStatus n r.k r.clauses.length
  let s := s.result f 0 (resultRecords r.k j.kept)
  let s := if r.stats then s.result f (roundUp (16 * r.k) 64) (statsRecord r x.shards f.stallCyc (s.sinceDoorbell r.fid)) else s
  let s := if st = .ok then s else s.bump (spReg r.host 0x120)
  s.fix r.fid { status := st, flags := (if j.past then flagTie else 0) ||| partFlags r.parts, count := searchCount n
                result := pack32 n j.ties }

/-- A search received by FANOUT: each pipeline's list as a part of at most 256 entries a frame (R450). -/
def State.sendParts (s : State) (r : Req) (p : Nat) (q : Frame) (x : Search) : State :=
  let n := x.shards.length
  let s := x.shards.foldl (fun (s : State) k =>
    let l := k.mantel.map fun c => { c with source := k.pipe }
    let st := searchStatus l.length r.k r.clauses.length
    let frames := max 1 (cdiv l.length 256)
    (List.range frames).foldl (fun (s : State) i =>
      s.respond p q 0x101 (natLe k.pipe 1 ++ natLe st.code 1 ++ natLe r.flags 1 ++ natLe n 1 ++ natLe (256 * i) 4 ++ natLe l.length 4)
        (((l.drop (256 * i)).take 256).map candRecord).flatten (i + 1 == frames)) s) s
  { s with reqs := s.reqs.filter fun y => y.fid != r.fid }

/-- Join of a graph search or flat scan. -/
def State.joinSearch (s : State) (r : Req) (x : Search) : State :=
  match r.fromPort with
  | some (p, q) => s.sendParts r p q x
  | none =>
    match s.flight? r.fid with
    | none => s
    | some f =>
      match failingPart r.parts with
      | some st => s.fix r.fid { status := st, flags := partFlags r.parts }
      | none => let t := s.joinOne r x; t.1.emitSearch r f x t.2

/-- Join of a request, by its opcode. -/
def State.joinReq (s : State) (r : Req) : State :=
  if r.opcode = 0x312 then
    match s.flight? r.fid, tfind s.sessions r.key with
    | some f, some e =>
      let w := s.winState r.fid kvTag
      match w.2 with
      | .wait => w.1
      | .failed => w.1.fixSt f.fid .mediaError
      | .here => (w.1.acceptAll r.fid).kvFinish r f e
    | _, _ => s
  else if r.opcode = 0x300 then
    match s.flight? r.fid, s.reqColl r with
    | some f, some c =>
      let t := s.joinEach r r.searches
      let w := s.attendReads r f c (t.2.map Joined.kept).flatten
      match w.2 with
      | .wait => w.1
      | .failed => w.1.fixSt f.fid .mediaError
      | .here =>
      let s := w.1
      let t := s.joinEach r r.searches
      let rows := s.memRows f c (t.2.map Joined.kept).flatten
      match rows.2.stop with
      | some (none, _) => rows.1
      | _ => t.1.memFinish r f c t.2
    | _, _ => s
  else
    match r.searches with
    | x :: _ => s.joinSearch r x
    | [] => s

/-- Whether Join may act: every list is there; attention over a session needs its slots only. -/
def Req.joinReady (r : Req) : Bool := if r.opcode = 0x312 then !r.waiting else r.opcode != 0x318 && r.listsIn

/-- JOIN (R121 to R128, R171 to R173, R187 to R189). -/
def execJoinLists (fid : Nat) (s : State) : Host.Outcome State Fault Refusal :=
  work s (match s.req? fid with
    | some r => if r.joinReady then s.joinReq r else s
    | none => s)

end Sys2Proof.Machine
end

