-- ==== Sys2Proof/Machine/Neighbour.lean ====
section
/-!
DEFINITION. Work that crosses Bruvia (18): policing of frames, the Annex as lender and as borrower, search fan-out, ring attention,
embedding rows and migrating rows, refusals; and descriptor timeouts, which end a neighbour's search too.
-/
namespace Sys2Proof.Machine
open Sys2Proof

/-! ## Work frames (R421, R448) -/

/-- A work frame of a mapped wing, policed by the wing's Bruvia meter of its channel; `g` gets the wing, the class it runs in and the
frame in its colour. -/
def State.forWing (s : State) (p : Nat) (f : Frame) (g : State → Nat → Nat → Frame → State) : State :=
  match s.mapWing p f.wing with
  | none => s.refuse p f .invalid
  | some w =>
    if 7 < f.chan then s.refuse p f .invalid
    else
      let r := s.police w 1 f.chan (64 + f.payload.length) f.colour
      if r.2.drop then r.1.refuse p f .policedDrop
      else g r.1 w (if r.2.demote then 7 else f.chan) { f with colour := r.2.colour }

/-- An Annex page request, which needs no mapping: policed where its wing is mapped. -/
def State.forPort (s : State) (p : Nat) (f : Frame) (g : State → Frame → State) : State :=
  match s.mapWing p f.wing with
  | none => g s f
  | some _ => s.forWing p f fun s _ _ f => g s f

/-! ## Grants as lender (R445, R453) -/

/-- BP_LEND.MAX. -/
def State.lendMax (s : State) (p : Nat) : Nat := bits (s.reg (bpReg p 0x18)) 21 0

/-- BP_LEND.LENT. -/
def BpSt.lentPages (b : BpSt) : Nat := sumNat (b.lent.map Prod.snd)

/-- The lowest run of n free neighbour page numbers of a port. -/
def BpSt.freeRun (b : BpSt) (n : Nat) : Option Nat :=
  leastOf ((0 :: b.lent.map fun x => x.1 + x.2).filter fun a =>
    decide (a + n ≤ 2097152) && !(b.lent.any fun x => runsMeet x.1 x.2 a n))

/-- Answers a grant request. (log 95, DEDUCED) -/
def State.sendGrant (s : State) (p : Nat) (f : Frame) (first pages status : Nat) : State :=
  s.respond p f 0x21 (natLe first 4 ++ natLe pages 4 ++ natLe status 1) [] true

/-- Pages for a neighbour: within MAX, page numbers and frames to be had. -/
def State.lend (s : State) (p : Nat) (f : Frame) (n : Nat) : State :=
  let b := s.bp p
  if s.lendMax p < b.lentPages + n then s.sendGrant p f 0 0 0x61
  else
    match b.freeRun n, s.takeFrames 16 allStacks [] n with
    | some first, some t =>
      let b := { b with
        lent := b.lent ++ [(first, n)], lentFrames := tput b.lentFrames first t.2
        grants := (b.grants ++ [Grant.mk f.tag first n]).drop (b.grants.length + 1 - 64) }
      (t.1.setBp p b).sendGrant p f first n 0
    | _, _ => s.sendGrant p f 0 0 0x61

/-- ANNEX_GRANT_REQ (R453): a repeated TAG is answered with the grant already made (R445). (log 95, DEDUCED) -/
def State.grantReq (s : State) (p : Nat) (f : Frame) : State :=
  match (s.bp p).grants.find? fun x => x.tag == f.tag with
  | some g => s.sendGrant p f g.first g.pages 0
  | none => if fld f.args 0 4 = 0 then s.refuse p f .invalid else s.lend p f (fld f.args 0 4)

def execAnnexGrantReq (port : Nat) (frame : Frame) (s : State) : Host.Outcome State Fault Refusal :=
  work s (s.arrive port frame fun s => s.grantReq port frame)

/-- ANNEX_RELEASE (R453): lent pages return to the pool. (log 95, DEDUCED) -/
def State.released (s : State) (p first pages : Nat) : State :=
  let b := s.bp p
  if b.lent.contains (first, pages) then
    (s.giveFrames (tget [] b.lentFrames first)).setBp p { b with
      lent := b.lent.filter fun x => x != (first, pages), lentFrames := tdel b.lentFrames first
      grants := b.grants.filter fun g => g.first != first
      lentMem := clearBytes b.lentMem (first * pageSize) (pages * pageSize)
      lentBad := b.lentBad.filter fun k => decide (k < first * 4096) || decide ((first + pages) * 4096 ≤ k) }
  else s

def execAnnexRelease (port : Nat) (frame : Frame) (s : State) : Host.Outcome State Fault Refusal :=
  work s (s.arrive port frame fun s => s.released port (fld frame.args 0 4) (fld frame.args 4 4))

/-! ## Grants as borrower (R269) -/

/-- The range of a waiting TIER_ALLOC that a grant fills. -/
def rangeGranted (fid first : Nat) (r : Range) : Range := if r.fid = some fid then { r with first, ready := true, fid := none } else r

/-- ANNEX_GRANT (R269): the TIER_ALLOC completes, or is refused; the pages of one that was stopped go back. -/
def State.grantCame (s : State) (p : Nat) (f : Frame) : State :=
  match s.reqOf p f with
  | some r =>
    let s := s.dropReq p f.tag
    match r.typ == 0x20, r.fid with
    | true, some fid =>
      if fld f.args 8 1 ≠ 0 then s.allocRefused fid
      else
        match s.ranges.find? fun x => x.fid == some fid && x.tier == 3 with
        | some x =>
          let s := { s with ranges := s.ranges.map (rangeGranted fid (fld f.args 0 4)) }
          if (s.active? fid 0x940).isSome then s.fixOk fid 0 (x.base * pageSize)
          else s.releaseRange { x with first := fld f.args 0 4, ready := true, fid := none }
        | none => s.sendRelease p (fld f.args 0 4) (fld f.args 4 4)
    | _, _ => s
  | none => s

def execAnnexGrant (port : Nat) (frame : Frame) (s : State) : Host.Outcome State Fault Refusal :=
  work s (s.arrive port frame fun s => s.grantCame port frame)

/-! ## Annex page accesses as lender (R447, R453) -/

/-- Whether a page request names lines of one lent page, and its payload fits. -/
def BpSt.pageReqOk (b : BpSt) (f : Frame) (write : Bool) : Bool :=
  let pg := fld f.args 0 4
  let off := fld f.args 4 4
  let n := fld f.args 8 4
  b.lent.any (fun x => decide (x.1 ≤ pg) && decide (pg < x.1 + x.2)) && decide (off % 64 = 0) && inside 64 4096 n && decide (n % 64 = 0)
    && decide (off + n ≤ pageSize) && (f.payload.length == if write then n else 0)

/-- Lines of a poison map, from a first line on. -/
def mapLines (first map n : Nat) : List Nat := ((List.range n).filter fun i => bit map i).map fun i => first + i

/-- Serves a page request of a lent page (Table 18-4). -/
def State.lendServe (s : State) (p : Nat) (f : Frame) (write : Bool) : State :=
  let b := s.bp p
  if !(b.pageReqOk f write) then s.refuse p f .invalid
  else
    let k := fld f.args 0 4 * pageSize + fld f.args 4 4
    let n := fld f.args 8 4
    let mine := fun x => decide (k / 64 ≤ x) && decide (x < (k + n) / 64)
    if write then
      (s.setBp p { b with
        lentMem := putBytes b.lentMem k f.payload
        lentBad := (b.lentBad.filter fun x => !(mine x)) ++ mapLines (k / 64) (fld f.args 16 8) (n / 64) }).respond p f f.typ
          (annexArgs (fld f.args 0 4) (fld f.args 4 4) n 0) [] true
    else
      let map := ((List.range (n / 64)).map fun i => if b.lentBad.contains (k / 64 + i) then 2 ^ i else 0).foldl (· + ·) 0
      s.respond p f f.typ (annexArgs (fld f.args 0 4) (fld f.args 4 4) n map) (getBytes b.lentMem k n) true

/-! ## Annex page accesses as borrower (R275, R447, R453) -/

/-- Wing and tier page of a neighbour page of a port. -/
def State.borrowed (s : State) (p pg : Nat) : Option (Nat × Nat) :=
  (s.ranges.find? fun r => r.tier == 3 && r.port == p && r.ready && !r.lost && decide (r.first ≤ pg) && decide (pg < r.first + r.pages)).map
    fun r => (r.wing, r.base + (pg - r.first))

/-- Bytes that no write since the fill's begin covers, with their offsets in the page. (log 66, DEDUCED) -/
def unwritten (wrote : List (Nat × Nat)) (off : Nat) (bs : Bytes) : List (Nat × Byte) :=
  (bs.zipIdx.map fun x => (off + x.2, x.1)).filter fun x => !(wrote.any fun r => decide (r.1 ≤ x.1) && decide (x.1 < r.1 + r.2))

def putEach (t : Tab Byte) (k : Nat) (l : List (Nat × Byte)) : Tab Byte := l.foldl (fun t x => tset 0 t (k + x.1) x.2) t

/-- Puts lines that the neighbour returned where they are held: the lower tier, and the frame that is being filled (R275, R279, R280).
(log 97, DEDUCED) -/
def State.linesCame (s : State) (w pg off : Nat) (bs : Bytes) (map : Nat) : State :=
  let e := s.page w pg
  let k := memKey w (pg * pageSize)
  let l := unwritten [] off bs
  let bad := (mapLines (lineKey w (pg * pageSize + off)) map (bs.length / 64))
  let first := lineKey w (pg * pageSize + off)
  let here := fun x => decide (first ≤ x) && decide (x < first + bs.length / 64)
  let s := { s with low := putEach s.low k l, lowBad := (s.lowBad.filter fun x => !(here x)) ++ bad }
  if e.filling then
    let done := (e.wrote.map fun x => (wholeLines (pg * pageSize + x.1) x.2).map (lineKey w)).flatten
    { s with
      frm := putEach s.frm k (unwritten e.wrote off bs)
      frmBad := (s.frmBad.filter fun x => !(here x) || done.contains x) ++ bad.filter fun x => !(done.contains x) }
  else s

/-- Kept-back page requests of a port that meet none outstanding are sent, in order (R453); `fuel` bounds them. -/
def State.sendDeferred (s : State) (p : Nat) : Nat → State
  | 0 => s
  | fuel + 1 =>
    let b := s.bp p
    match b.deferred with
    | [] => s
    | l =>
      match l.zipIdx.find? fun x => !(b.reqs.any x.1.meets) && !((l.take x.2).any x.1.meets) with
      | some x =>
        ((s.setBp p { b with deferred := eraseOne x.1 l }).sendAnnex p x.1).sendDeferred p fuel
      | none => s

/-- A page request has been answered. -/
def State.annexDone (s : State) (p tag : Nat) : State :=
  let s := s.dropReq p tag
  (s.sendDeferred p (s.bp p).deferred.length).retryMem

/-- The answer to a page read (Table 18-4). -/
def State.readCame_ (s : State) (p : Nat) (f : Frame) : State :=
  match s.reqOf p f with
  | none => s
  | some r =>
    if r.typ ≠ 0x300 then s
    else
      let s := match s.borrowed p (fld r.args 0 4) with
        | some x => s.linesCame x.1 x.2 (fld r.args 4 4) (slice f.payload 0 (fld r.args 8 4)) (fld f.args 16 8)
        | none => s
      let s := match r.access with
        | some id => { s with accesses := s.accesses.map (answered id false) }
        | none => s
      s.annexDone p f.tag

/-- The answer to a page write. -/
def State.writeCame (s : State) (p : Nat) (f : Frame) : State :=
  match s.reqOf p f with
  | some r => if r.typ = 0x301 then s.annexDone p f.tag else s
  | none => s

def execAnnexRd (port : Nat) (frame : Frame) (s : State) : Host.Outcome State Fault Refusal :=
  work s (s.arrive port frame fun s =>
    if frame.resp then s.readCame_ port frame else s.forPort port frame fun s f => s.lendServe port f false)

def execAnnexWr (port : Nat) (frame : Frame) (s : State) : Host.Outcome State Fault Refusal :=
  work s (s.arrive port frame fun s =>
    if frame.resp then s.writeCame port frame else s.forPort port frame fun s f => s.lendServe port f true)

/-! ## Embedding rows (R325, R336, R454) -/

/-- The wait of a job for one answer is over. -/
def EmbJob.answered (p tag : Nat) (j : EmbJob) : EmbJob := { j with waits := j.waits.filter fun x => !(x.1 == p && x.2.1 == tag) }

/-- The answer to a row request: to the descriptor, or on to the neighbour it was passed on for (R325). (log 97, DEDUCED) -/
def State.rowAnswer (s : State) (p : Nat) (f : Frame) : State :=
  match s.reqOf p f with
  | none => s
  | some r =>
    let s := s.dropReq p f.tag
    match r.relay, r.fid with
    | some x, _ => s.respond x.1 x.2 r.typ (r.args.take 8) f.payload true
    | none, some fid =>
      match s.job? fid, s.flight? fid with
      | some j, some fl =>
        let g := fld r.args 4 4
        let s := s.modJob fid (EmbJob.answered p f.tag)
        let s := if r.typ ≠ 0x310 then s
          else if j.next.contains (p, f.tag) then s.putPref fl (g % 4) g f.payload
          else match s.embOf fl with
            | some e => s.gotRow fid g (slice f.payload 0 e.rb)
            | none => s
        s.embFinish fid
      | _, _ => s
    | none, none => s

def State.rowFrame (s : State) (p : Nat) (f : Frame) (typ : Nat) : State :=
  if f.resp then (match s.reqOf p f with
    | some r => if r.typ = typ then s.rowAnswer p f else s
    | none => s)
  else s.forWing p f fun s w cls f => s.rowRequest p w cls f

def execAnnexRowRd (port : Nat) (frame : Frame) (s : State) : Host.Outcome State Fault Refusal :=
  work s (s.arrive port frame fun s => s.rowFrame port frame 0x310)

def execAnnexAtom (port : Nat) (frame : Frame) (s : State) : Host.Outcome State Fault Refusal :=
  work s (s.arrive port frame fun s => s.rowFrame port frame 0x311)

/-- The accepted migration of a table that awaits a row from a port. -/
def Emb.awaits (e : Emb) (p g : Nat) : Option Mig := e.migs.find? fun m => !m.out && e.portTo m.peer == p && m.unsettled g

/-- ROW_MIGRATE at the in side (R336, R337): taken by a matching accepted migration, whether or not its own boundary has come; refused
otherwise, and after an epoch change of its port. -/
def State.rowTaken (s : State) (p w : Nat) (f : Frame) : State :=
  let key := objKey w (fld f.args 0 4)
  let g := fld f.args 4 4
  match (if fld f.args 0 4 < 1024 then s.embAt key else none) with
  | none => s.refuse p f .invalid
  | some e =>
    match e.awaits p g with
    | some m =>
      if f.payload.length ≠ e.rb then s.refuse p f .invalid
      else if m.stale then ((s.settleRow m.fid g false []).refuse p f .invalid).retryRows
      else ((s.settleRow m.fid g true f.payload).respond p f 0x320 (f.args.take 8) [] true).retryRows
    | none => (s.bump (wngReg w 0x2380)).refuse p f .invalid

/-- The answer to ROW_MIGRATE at the out side: ownership has passed (R336). -/
def State.rowPassed (s : State) (p : Nat) (f : Frame) : State :=
  match s.reqOf p f with
  | some r =>
    match r.typ == 0x320, r.fid with
    | true, some fid => ((s.dropReq p f.tag).settleRow fid (fld r.args 4 4) true []).retryRows
    | _, _ => s
  | none => s

def execRowMigrate (port : Nat) (frame : Frame) (s : State) : Host.Outcome State Fault Refusal :=
  work s (s.arrive port frame fun s =>
    if frame.resp then s.rowPassed port frame else s.forWing port frame fun s w _ f => s.rowTaken port w f)

/-! ## Ring attention (R191, R192, R452) -/

def execRingBlock (port : Nat) (frame : Frame) (s : State) : Host.Outcome State Fault Refusal :=
  work s (s.arrive port frame fun s => s.forWing port frame fun s w _ f => s.ringBlock port w f)

/-! ## Search fan-out (R449 to R451) -/

/-- A neighbour that fails a search sends one part (R450). -/
def State.failPart (s : State) (p : Nat) (f : Frame) (st : Status) : State :=
  s.respond p f 0x101 (natLe 0 1 ++ natLe st.code 1 ++ natLe 0 1 ++ natLe 1 1) [] true

/-- Admits a whole FANOUT message: body bytes 16 to 127, query, clauses (R450). (log 96, DEDUCED) -/
def State.fanAdmit (s : State) (p w cls : Nat) (f : Frame) (c : Coll) (msg : Bytes) : State :=
  let raw := List.replicate 16 0 ++ msg.take 112
  let d := c.defn
  let qn := d.dim * fmtBytes (fld raw 30 1)
  let n := fld raw 56 1
  if !(searchFieldsOk false raw d) || msg.length != 112 + qn + 16 * n then s.failPart p f .invalid
  else
    match c.refusal with
    | some st => s.failPart p f st
    | none =>
      let query := fmtVec (fld raw 30 1) d.dim (slice msg 112 qn)
      let bs := chunks 16 n (slice msg (112 + qn) (16 * n))
      if !(allFinite query) || !(filterOk d.attrWords bs) then s.failPart p f .invalid
      else
        let r := searchReq false raw s.nextId w (objKey w (fld f.args 0 4)) (if cls = 0 then 1 else cls) c query (bs.map clauseOf) []
        { s with
          reqs := s.reqs ++ [{ r with fromPort := some (p, { f with payload := [] }), due := some (roundUp (s.cyc + 1500 * f.deadline) 1500) }]
          nextId := s.nextId + 1 }

/-- One frame of a FANOUT message: kept until the last one has come. -/
def State.fanFrame (s : State) (p w cls : Nat) (f : Frame) : State :=
  let b := s.bp p
  let msg := tget [] b.fanBuf f.tag ++ f.payload
  match (if fld f.args 0 4 < 4096 then tfind s.colls (objKey w (fld f.args 0 4)) else none) with
  | none => (s.setBp p { b with fanBuf := tdel b.fanBuf f.tag }).refuse p f .invalid
  | some c =>
    if !f.last then s.setBp p { b with fanBuf := tput b.fanBuf f.tag msg }
    else (s.setBp p { b with fanBuf := tdel b.fanBuf f.tag }).fanAdmit p w cls f c msg

def execFanoutFrame (port : Nat) (frame : Frame) (s : State) : Host.Outcome State Fault Refusal :=
  work s (s.arrive port frame fun s => s.forWing port frame fun s w cls f => s.fanFrame port w cls f)

/-- A result record of a neighbour's pipeline, with the source number it has here (R121). -/
def partCand (source : Nat) (bs : Bytes) : Cand :=
  let v := fld bs 0 8
  { score := BitVec.ofNat 32 (fld bs 8 4), node := 0, vid := v % 2 ^ 48, sq8 := bit v 57, porch := bit v 56, source }

/-- One frame of a part: its entries; the part counts with its last frame (R450, R451). (log 53, DEDUCED) -/
def PartWait.take (x : PartWait) (f : Frame) : PartWait :=
  let q := fld f.args 0 1
  let st := Status.ofCode (fld f.args 1 1)
  { x with
    nparts := some (fld f.args 3 1), got := x.got + b2n f.last
    cands := x.cands ++ (chunks 16 (f.payload.length / 16) f.payload).map (partCand (0x10 + 8 * x.port + q % 8))
    status := if x.status.chainPasses && !st.chainPasses then st else x.status, flags := x.flags ||| fld f.args 2 1 }

def takePart (p : Nat) (f : Frame) (x : PartWait) : PartWait := if x.port = p ∧ x.tag = f.tag then x.take f else x

/-- Whether every part of a request's message has come. -/
def partDone (p : Nat) (f : Frame) (r : Req) : Bool := r.parts.any fun x => x.port == p && x.tag == f.tag && x.nparts == some x.got

/-- RESULT_PART (R451): given to the origin's Join. (log 53, DEDUCED) -/
def State.partCame (s : State) (p : Nat) (f : Frame) : State :=
  match s.reqOf p f with
  | some r =>
    match r.typ == 0x100, r.fid with
    | true, some fid =>
      let s := s.modReq fid fun r => { r with parts := r.parts.map (takePart p f) }
      match s.reqs.find? fun r => r.fid == fid with
      | some r => if partDone p f r then s.dropReq p f.tag else s
      | none => if f.last then s.dropReq p f.tag else s
    | _, _ => s
  | none => s

def execResultPart (port : Nat) (frame : Frame) (s : State) : Host.Outcome State Fault Refusal :=
  work s (s.arrive port frame fun s => s.partCame port frame)

/-! ## Refusals (R448) -/

/-- A refused page request: its descriptor completes with the status, a host access gets poison, a fill's lines are poisoned.
(log 95, DEDUCED) -/
def State.pageRefused (s : State) (p : Nat) (r : BpReq) (st : Status) : State :=
  let s := match r.access with
    | some id => { s with accesses := s.accesses.map (answered id true) }
    | none =>
      match r.typ == 0x300, s.borrowed p (fld r.args 0 4) with
      | true, some x =>
        let n := fld r.args 8 4 / 64
        s.linesCame x.1 x.2 (fld r.args 4 4) (s.tierBytes x.1 (x.2 * pageSize + fld r.args 4 4) (64 * n)) (2 ^ n - 1)
      | _, _ => s
  let s := match r.fid with
    | some fid => s.fixSt fid st
    | none => s
  s.annexDone p r.tag

/-- What a refused request leaves, by its type. -/
def State.reqRefused (s : State) (p : Nat) (r : BpReq) (st : Status) : State :=
  if r.typ = 0x300 ∨ r.typ = 0x301 then s.pageRefused p r st
  else
    let s := s.dropReq p r.tag
    match r.relay, r.fid with
    | some x, _ => s.refuse x.1 x.2 st
    | none, some fid =>
      if r.typ = 0x320 then (s.settleRow fid (fld r.args 4 4) false []).retryRows
      else if r.typ = 0x20 then
        { s with ranges := s.ranges.filter fun x => !(x.fid == some fid && x.tier == 3) }.fixSt fid st
      else s.fixSt fid st
    | none, none => s

/-- REFUSE (R448). -/
def State.refused (s : State) (p : Nat) (f : Frame) : State :=
  let st := Status.ofCode (fld f.args 0 1)
  let s := s.bump (bpReg p 0x98)
  match s.reqOf p f with
  | some r => s.reqRefused p r st
  | none =>
    match (s.bp p).ringTags.find? fun x => x.1 == f.tag with
    | some x => if fld f.args 2 2 = 0x200 then s.fixSt x.2 st else s
    | none => s

def execRefuseFrame (port : Nat) (frame : Frame) (s : State) : Host.Outcome State Fault Refusal :=
  work s (s.arrive port frame fun s => s.refused port frame)

/-! ## Timeouts -/

/-- DESCRIPTOR_TIMEOUT (R47, R407): a descriptor whose timeout has expired is stopped; so is a neighbour's search (R450).
(log 118, DEDUCED) -/
def execDescriptorTimeout (fid : Nat) (s : State) : Host.Outcome State Fault Refusal :=
  work s (match s.flight? fid with
    | some f => if f.expired s.cyc then s.timeOut fid else s
    | none =>
      match s.req? fid with
      | some r => (match r.due with
        | some d => if d < s.cyc then s.endReq r .timeout none else s
        | none => s)
      | none => s)

end Sys2Proof.Machine
end

