-- ==== Sys2Proof/Machine/BrickCtl.lean ====
section
/-!
DEFINITION. Meanings of the controller instructions of a brick (09): scalar, store, control and latch classes. Each runs the
instruction at pc of the named brick when it is that operation; where it is not, or must wait, nothing changes.
-/
namespace Sys2Proof.Machine
open Sys2Proof

/-! ## Shared forms -/

/-- Goes on with the next instruction. -/
def Run.step (r : Run) : CtlRes := .next r (pcAfter r.br.ctx.pc)

/-- sD = v. -/
def Run.setD (r : Run) (w : Nat) (v : Word64) : CtlRes := (r.mod fun c => c.sput (insnD w) v).step

def Run.sA (r : Run) (w : Nat) : Word64 := r.br.ctx.sget (insnA w)
def Run.sB (r : Run) (w : Nat) : Word64 := r.br.ctx.sget (insnB w)

/-- sD = sA op sB (Table 09-5). -/
def aluOp (g : Word64 → Word64 → Word64) (_ : State) (r : Run) (w : Nat) : CtlRes := r.setD w (g (r.sA w) (r.sB w))

/-- 1 or 0 as a word. -/
def flag64 (b : Bool) : Word64 := if b then 1 else 0

/-- The address sA + sext(IMM). -/
def Run.memAddr (r : Run) (w : Nat) : Nat := (r.sA w + insnSext w).toNat

/-- A load of n bytes into sD, zero-extended. -/
def loadOp (n : Nat) (_ : State) (r : Run) (w : Nat) : CtlRes :=
  if r.memAddr w % n ≠ 0 then .fault fIllegal
  else
    match r.load (r.memAddr w) n with
    | .ok bs => r.setD w (BitVec.ofNat 64 (leNat bs))
    | .error code => .fault code

/-- A store of the low n bytes of sB. -/
def storeOp (n : Nat) (_ : State) (r : Run) (w : Nat) : CtlRes :=
  if r.memAddr w % n ≠ 0 then .fault fIllegal
  else
    match r.put (r.memAddr w) (natLe (r.sB w).toNat n) with
    | .ok x => x.step
    | .error code => .fault code

/-- pc + 8 * sext(IMM), 23 bits (Table 09-2). (log 58, DEDUCED) -/
def branchTo (pc w : Nat) : Nat := (((pc : Int) + 8 * sext (insnImm w) 25) % (2 ^ 23 : Int)).toNat

/-- A branch when a test of sA holds. -/
def branchOp (test : Word64 → Bool) (_ : State) (r : Run) (w : Nat) : CtlRes :=
  if test (r.sA w) then .next r (branchTo r.br.ctx.pc w) else r.step

/-! ## Meanings -/

/-- ADD (R222, Table 09-5). -/
def execOpAdd (brick : Nat) (s : State) : Host.Outcome State Fault Refusal := work s (s.control brick 0 0 (aluOp fun a b => a + b))

/-- SUB (R222, Table 09-5). -/
def execOpSub (brick : Nat) (s : State) : Host.Outcome State Fault Refusal := work s (s.control brick 0 1 (aluOp fun a b => a - b))

/-- AND (R222, Table 09-5). -/
def execOpAnd (brick : Nat) (s : State) : Host.Outcome State Fault Refusal := work s (s.control brick 0 2 (aluOp fun a b => a &&& b))

/-- OR (R222, Table 09-5). -/
def execOpOr (brick : Nat) (s : State) : Host.Outcome State Fault Refusal := work s (s.control brick 0 3 (aluOp fun a b => a ||| b))

/-- XOR (R222, Table 09-5). -/
def execOpXor (brick : Nat) (s : State) : Host.Outcome State Fault Refusal := work s (s.control brick 0 4 (aluOp fun a b => a ^^^ b))

/-- SHL (R222, Table 09-5). -/
def execOpShl (brick : Nat) (s : State) : Host.Outcome State Fault Refusal := work s (s.control brick 0 5 (aluOp fun a b => a <<< (b.toNat % 64)))

/-- SHR (R222, Table 09-5). -/
def execOpShr (brick : Nat) (s : State) : Host.Outcome State Fault Refusal := work s (s.control brick 0 6 (aluOp fun a b => a >>> (b.toNat % 64)))

/-- SAR (R222, Table 09-5). -/
def execOpSar (brick : Nat) (s : State) : Host.Outcome State Fault Refusal := work s (s.control brick 0 7 (aluOp fun a b => a.sshiftRight (b.toNat % 64)))

/-- MUL (R222, Table 09-5). -/
def execOpMul (brick : Nat) (s : State) : Host.Outcome State Fault Refusal := work s (s.control brick 0 8 (aluOp fun a b => a * b))

/-- ADDI (R222, Table 09-5). -/
def execOpAddi (brick : Nat) (s : State) : Host.Outcome State Fault Refusal := work s (s.control brick 0 9 fun _ r w => r.setD w (r.sA w + insnSext w))

/-- MOVHI (R222, Table 09-5). -/
def execOpMovhi (brick : Nat) (s : State) : Host.Outcome State Fault Refusal := work s (s.control brick 0 10 fun _ r w => r.setD w (r.sA w <<< 25 ||| BitVec.ofNat 64 (insnImm w)))

/-- SLT (R222, Table 09-5). -/
def execOpSlt (brick : Nat) (s : State) : Host.Outcome State Fault Refusal := work s (s.control brick 0 11 (aluOp fun a b => flag64 (a.slt b)))

/-- SLTU (R222, Table 09-5). -/
def execOpSltu (brick : Nat) (s : State) : Host.Outcome State Fault Refusal := work s (s.control brick 0 12 (aluOp fun a b => flag64 (a.ult b)))

/-- SEQ (R222, Table 09-5). -/
def execOpSeq (brick : Nat) (s : State) : Host.Outcome State Fault Refusal := work s (s.control brick 0 13 (aluOp fun a b => flag64 (a == b)))

/-- LD (R222, Table 09-5). -/
def execOpLd (brick : Nat) (s : State) : Host.Outcome State Fault Refusal := work s (s.control brick 1 0 (loadOp 8))

/-- ST (R222, Table 09-5). -/
def execOpSt (brick : Nat) (s : State) : Host.Outcome State Fault Refusal := work s (s.control brick 1 1 (storeOp 8))

/-- LDW (R222, Table 09-5). -/
def execOpLdw (brick : Nat) (s : State) : Host.Outcome State Fault Refusal := work s (s.control brick 1 2 (loadOp 4))

/-- STW (R222, Table 09-5). -/
def execOpStw (brick : Nat) (s : State) : Host.Outcome State Fault Refusal := work s (s.control brick 1 3 (storeOp 4))

/-- BEQZ (R222, Table 09-5). -/
def execOpBeqz (brick : Nat) (s : State) : Host.Outcome State Fault Refusal := work s (s.control brick 2 0 (branchOp fun a => a == 0))

/-- BNEZ (R222, Table 09-5). -/
def execOpBnez (brick : Nat) (s : State) : Host.Outcome State Fault Refusal := work s (s.control brick 2 1 (branchOp fun a => a != 0))

/-- sD = pc + 8; pc = pc + 8 * sext(IMM). -/
def jalOp (_ : State) (r : Run) (w : Nat) : CtlRes :=
  .next (r.mod fun c => c.sput (insnD w) (BitVec.ofNat 64 (pcAfter r.br.ctx.pc))) (branchTo r.br.ctx.pc w)

/-- JAL (R222, Table 09-5). -/
def execOpJal (brick : Nat) (s : State) : Host.Outcome State Fault Refusal := work s (s.control brick 2 2 jalOp)

/-- pc = sA; a target that is no multiple of 8 is ILLEGAL when it is fetched (R222). (log 58, DEDUCED) -/
def jrOp (_ : State) (r : Run) (w : Nat) : CtlRes := .next r ((r.sA w).toNat % 2 ^ 23)

/-- JR (R222, Table 09-5). -/
def execOpJr (brick : Nat) (s : State) : Host.Outcome State Fault Refusal := work s (s.control brick 2 3 jrOp)

/-- Waits until every engine is idle, then halts normally. -/
def haltOp (_ : State) (r : Run) (_ : Nat) : CtlRes :=
  if r.br.ctx.quiet then
    .next { r with br := { r.br with st := .halted, fault := 0, ctx := { r.br.ctx with halted := true } } } r.br.ctx.pc
  else .hold

/-- HALT (R222, Table 09-5, R240). -/
def execOpHalt (brick : Nat) (s : State) : Host.Outcome State Fault Refusal := work s (s.control brick 2 4 haltOp)

/-- Restarts the watchdog with the program's period (R232). -/
def wdogOp (s : State) (r : Run) (_ : Nat) : CtlRes :=
  Run.step { r with br := { r.br with wdogFrom := s.cyc, ctx := { r.br.ctx with wdogLeft := r.prog.wdogUs } } }

/-- WDOG (R232). -/
def execOpWdog (brick : Nat) (s : State) : Host.Outcome State Fault Refusal := work s (s.control brick 2 5 wdogOp)

/-- RDCYC (R222, Table 09-5). -/
def execOpRdcyc (brick : Nat) (s : State) : Host.Outcome State Fault Refusal := work s (s.control brick 2 6 fun s r w => r.setD w (BitVec.ofNat 64 s.cyc))

/-- RDBEAT (R222, Table 09-5). -/
def execOpRdbeat (brick : Nat) (s : State) : Host.Outcome State Fault Refusal := work s (s.control brick 2 7 fun s r w => r.setD w (BitVec.ofNat 64 s.beatNum))

/-- FENCE (R222, Table 09-5). -/
def execOpFence (brick : Nat) (s : State) : Host.Outcome State Fault Refusal := work s (s.control brick 2 8 fun _ r _ => if r.br.ctx.quiet then r.step else .hold)

/-- Clears the numeric-status bits set in IMM[8:0] (Table 09-17). -/
def clrsatOp (_ : State) (r : Run) (w : Nat) : CtlRes :=
  (r.mod fun c => c.numClear (bits (insnImm w) 8 0)).step

/-- CLRSAT (R222, Table 09-5). -/
def execOpClrsat (brick : Nat) (s : State) : Host.Outcome State Fault Refusal := work s (s.control brick 2 9 clrsatOp)

/-- The latch that IMM[5:0] names. -/
def immLatch (w : Nat) : Nat := bits (insnImm w) 5 0

/-- Signals a latch; above 255 it keeps 255 and the brick faults (R225). -/
def sigOp (_ : State) (r : Run) (w : Nat) : CtlRes :=
  if r.br.ctx.full (immLatch w) then .fault fLatchOvf else (r.mod fun c => c.signal (immLatch w) 0 c.pc).step

/-- Waits on a latch and takes one (R224, R225); the controller's code is the lowest, so it goes first. -/
def waitOp (_ : State) (r : Run) (w : Nat) : CtlRes :=
  if (r.br.ctx.latchAt (immLatch w)).value = 0 then .hold else (r.mod fun c => c.takeLatch (immLatch w)).step

/-- Takes one and answers 1, or answers 0 at once. -/
def tryOp (_ : State) (r : Run) (w : Nat) : CtlRes :=
  if (r.br.ctx.latchAt (immLatch w)).value = 0 then r.setD w 0 else (r.mod fun c => c.takeLatch (immLatch w)).setD w 1

/-- sD = the value of a latch. -/
def rdlOp (_ : State) (r : Run) (w : Nat) : CtlRes := r.setD w (BitVec.ofNat 64 (r.br.ctx.latchAt (immLatch w)).value)

/-- Latch IMM[5:0] = IMM[13:6] (R226). -/
def setlOp (_ : State) (r : Run) (w : Nat) : CtlRes := (r.mod fun c => c.setLatch (immLatch w) (bits (insnImm w) 13 6)).step

/-- SIG (R224 to R226, Table 09-5). -/
def execOpSig (brick : Nat) (s : State) : Host.Outcome State Fault Refusal := work s (s.control brick 3 0 sigOp)

/-- WAIT (R224 to R226, Table 09-5). -/
def execOpWait (brick : Nat) (s : State) : Host.Outcome State Fault Refusal := work s (s.control brick 3 1 waitOp)

/-- TRY (R224 to R226, Table 09-5). -/
def execOpTry (brick : Nat) (s : State) : Host.Outcome State Fault Refusal := work s (s.control brick 3 2 tryOp)

/-- RDL (R224 to R226, Table 09-5). -/
def execOpRdl (brick : Nat) (s : State) : Host.Outcome State Fault Refusal := work s (s.control brick 3 3 rdlOp)

/-- SETL (R224 to R226, Table 09-5). -/
def execOpSetl (brick : Nat) (s : State) : Host.Outcome State Fault Refusal := work s (s.control brick 3 4 setlOp)

/-- The cycle in which a brick's watchdog expires (R46, R232). (log 60, DEDUCED) -/
def Brick.wdogAt (b : Brick) : Nat := roundUp (b.wdogFrom + 1500 * b.ctx.wdogLeft) 1500

/-- BRICK_WATCHDOG_EXPIRY (R232): a running brick whose watchdog has expired faults; engine and address are free (log 21, DESIGN CHOICE).
(log 60, DEDUCED) (log 118, DEDUCED) -/
def execBrickWatchdogExpiry (brick : Nat) (s : State) : Host.Outcome State Fault Refusal :=
  work s (match s.run? brick with
    | some r =>
      if r.br.wdogAt < s.cyc then
        (s.useFree.useFree).brickFault brick (s.free % 5) (Config.freeNat (s.fresh + 1) % 2 ^ 23) fWatchdog
      else s
    | none => s)

end Sys2Proof.Machine
end

