-- ==== Sys2Proof/Machine/BrickMove.lean ====
section
/-!
DEFINITION. Meanings of the Mover's and the Post's instructions (09): transfers through the program's windows, packets between
bricks of a wing, and the delivery of a packet.
-/
namespace Sys2Proof.Machine
open Sys2Proof

/-! ## The Mover (R234, R237) -/

/-- Whether [a, a + n) lies wholly in one window entry that grants a permission: bit 0 read, bit 1 write. -/
def BrickEnt.grants (e : BrickEnt) (perm a n : Nat) : Bool :=
  e.wins.any fun x => bit x.perm perm && decide (x.base ≤ a) && decide (a + n ≤ x.base + 4096 * x.pages)

/-- The fault of a tier read that gave no bytes (Table 09-8). (log 83, DEDUCED) -/
def moverFault : Status → Nat
  | .poisoned => fPoison
  | .mediaError => fMedia
  | _ => fWindow

/-- The Mover as one that makes accesses. -/
def Run.who (r : Run) : Who := { brick := some r.b }

/-- How far the Mover of a brick is in its instruction (R244). -/
def State.setMoved (s : State) (b k : Nat) : State := s.setBrick b { s.brick b with ctx := { (s.brick b).ctx with moved := k } }

/-- A piece of a transfer: n tier bytes at a into the store at d. -/
def moverRead (s : State) (r : Run) (a d n : Nat) : EngRes :=
  if n = 0 then .done s
  else if !(r.ent.holds d n) then .fault s fStoreRange
  else if !(r.ent.grants 0 a n) then .fault s fWindow
  else
    let t := s.readRange r.who r.wing a n
    match t.2 with
    | .stop none _ => .wait t.1
    | .stop (some st) _ => .fault t.1 (moverFault st)
    | .bytes bs => .done ((t.1.setBrick r.b ((t.1.brick r.b).writeLoose d bs)).bumpBy (brkReg r.b 0x58) n)

/-- The chunks of at most 4 KiB of a transfer of n bytes that are still to be moved, by their offset (R244). -/
def chunksFrom (m n : Nat) : List Nat := (List.range (cdiv (n - m) 4096)).map fun i => m + 4096 * i

/-- Moves chunks one after another; the first that waits or faults stops it, and what came before it stands. -/
def moveChunks (r : Run) (piece : State → Nat → EngRes) (s : State) : List Nat → EngRes
  | [] => .done s
  | o :: os =>
    match piece s o with
    | .done s => moveChunks r piece (s.setMoved r.b (o + 4096)) os
    | x => x

/-- MGET: sD bytes from tier address sA to sB, in chunks. (log 83, DEDUCED) -/
def mget (s : State) (r : Run) (q : QEnt) : EngRes :=
  let n := q.d.toNat
  if n ≠ 0 ∧ r.ent.holds q.b.toNat n = false then .fault s fStoreRange
  else if n ≠ 0 ∧ r.ent.grants 0 q.a.toNat n = false then .fault s fWindow
  else moveChunks r (fun s o => moverRead s r (q.a.toNat + o) (q.b.toNat + o) (min 4096 (n - o))) s (chunksFrom r.br.ctx.moved n)

/-- A piece of a transfer: store bytes written to a tier address. -/
def moverWrite (r : Run) (s : State) (a : Nat) (bs : Bytes) : EngRes :=
  let n := bs.length
  if s.fillingIn r.wing a n || s.floorBusy r.wing a n || s.heldIn r.wing a n then
    .wait ((s.askHolders r.wing a n).issue r.who r.wing a n false)
  else
    let met := (s.endAccess r.who r.wing a n).injected r.wing a n
    let t := met.writeTier r.wing r.prog.ptc a bs (s.mergedBy r.who r.wing) (n / pageSize + 2)
    if s.mergeFailed r.who r.wing then .fault (met.endMerge r.who r.wing) fMedia
    else if t.2.stop.isSome then .fault t.1 fMedia
    else if t.2.merge ≠ [] then .wait (s.askMerge r.who r.wing t.2.merge)
    else .done ((t.1.endMerge r.who r.wing).bumpBy (brkReg r.b 0x58) n)

/-- MPUT: sD bytes from sB to tier address sA, in chunks; complete when the tier has accepted the write (R224). (log 83, DEDUCED) -/
def mput (s : State) (r : Run) (q : QEnt) : EngRes :=
  let n := q.d.toNat
  if n = 0 then .done s
  else
    match r.load q.b.toNat n with
    | .error e => .fault s e
    | .ok bs =>
      if !(r.ent.grants 1 q.a.toNat n) || !(s.inRanges r.wing q.a.toNat n) then .fault s fWindow
      else moveChunks r (fun s o => moverWrite r s (q.a.toNat + o) (slice bs o (min 4096 (n - o)))) s (chunksFrom r.br.ctx.moved n)

/-- Whether a gather block is in range: lengths and addresses in multiples of 64 bytes, 1 to 4,096 rows. -/
def gatherOk (g : Bytes) : Bool :=
  decide (fld g 0 8 % 64 = 0) && decide (fld g 8 4 % 64 = 0) && inside 1 4096 (fld g 12 4) && decide (fld g 16 4 % 64 = 0)
    && decide (fld g 20 4 % 64 = 0)

/-- Reads the rows of a gather one after another; the first that waits or faults stops it. -/
def gatherRows (r : Run) (g idx : Bytes) (s : State) : List Nat → EngRes
  | [] => .done s
  | k :: ks =>
    let n := fld g 8 4
    match moverRead s r (fld g 0 8 + fld idx (4 * k) 4 * n) (fld g 20 4 + k * n) n with
    | .done s => gatherRows r g idx (s.setMoved r.b (k + 1)) ks
    | x => x

/-- MGATHER: rows under the 32-byte gather block at sA, written consecutively. -/
def mgather (s : State) (r : Run) (q : QEnt) : EngRes :=
  match r.load q.a.toNat 32 with
  | .error e => .fault s e
  | .ok g =>
    if !(gatherOk g) then .fault s fIllegal
    else
      match r.load (fld g 16 4) (4 * fld g 12 4) with
      | .error e => .fault s e
      | .ok idx => gatherRows r g idx s ((List.range (fld g 12 4)).drop r.br.ctx.moved)

/-- MFILL: sD bytes at sB filled with the 64-bit pattern sA. (log 25, DEDUCED) -/
def mfill (r : Run) (q : QEnt) : Except Nat Run :=
  if q.d.toNat ≠ 0 ∧ r.ent.holds q.b.toNat q.d.toNat = false then .error fStoreRange
  else r.put q.b.toNat (List.replicate (q.d.toNat / 8) (natLe q.a.toNat 8)).flatten

/-- MGET (R237). -/
def execOpMget (brick : Nat) (s : State) : Host.Outcome State Fault Refusal := work s (s.engine brick 6 0 mget)

/-- MPUT (R237). -/
def execOpMput (brick : Nat) (s : State) : Host.Outcome State Fault Refusal := work s (s.engine brick 6 1 mput)

/-- MGATHER. -/
def execOpMgather (brick : Nat) (s : State) : Host.Outcome State Fault Refusal := work s (s.engine brick 6 2 mgather)

/-- MFILL; the bytes it fills count as moved (log 25, DEDUCED). -/
def execOpMfill (brick : Nat) (s : State) : Host.Outcome State Fault Refusal :=
  work s (s.engine brick 6 3 fun s r q => onBrickFor 0x58 q.d.toNat mfill s r q)

/-! ## Packets (R227, R228) -/

/-- Words that a packet takes in a FIFO. -/
def Packet.words (p : Packet) : Nat := 2 + p.payload.length / 8

/-- Header word 0 of Table 09-7. -/
def headWord (src dst fifo host wing sprog len dprog : Nat) : Word64 :=
  BitVec.ofNat 64 (src + dst * 2 ^ 8 + fifo * 2 ^ 16 + host * 2 ^ 18 + wing * 2 ^ 20 + sprog * 2 ^ 24 + len * 2 ^ 32 + dprog * 2 ^ 48)

/-- Words held in a FIFO, by its 12-bit pointers. -/
def Fifo.used (f : Fifo) : Nat := (f.wr + 4096 - f.rd) % 4096

/-- Whether a packet fits a FIFO of 2,048 words. -/
def Fifo.room (f : Fifo) (p : Packet) : Bool := decide (f.used + p.words ≤ 2048)

/-- Writes a packet whole. -/
def Fifo.push (f : Fifo) (p : Packet) : Fifo := { f with pkts := f.pkts ++ [p], wr := (f.wr + p.words) % 4096 }

/-- Removes the head packet. -/
def Fifo.pop (f : Fifo) : Fifo :=
  match f.pkts with
  | p :: ps => { f with pkts := ps, rd := (f.rd + p.words) % 4096 }
  | [] => f

/-- The not-valid word (R230). -/
def notValid : Word64 := BitVec.ofNat 64 (2 ^ 63)

def Packet.bytes (p : Packet) : Bytes := natLe p.w0.toNat 8 ++ natLe p.w1.toNat 8 ++ p.payload

def Ctx.setFifo (c : Ctx) (n : Nat) (f : Fifo) : Ctx := { c with fifo := tset {} c.fifo n f }

/-! ## Post instructions (R229, R230) -/

/-- PSEND: a destination in another wing is POST_WING; else the packet goes on its way and the instruction waits for its outcome.
(log 59, DEDUCED) -/
def psend (s : State) (r : Run) (q : QEnt) : EngRes :=
  let a := q.a.toNat
  let dst := bits a 7 0
  let len := insnImm q.word.toNat
  if (match s.brickWing dst with
    | some w => w != r.wing
    | none => false) then .fault s fPostWing
  else
    match r.load q.b.toNat len with
    | .error e => .fault s e
    | .ok payload =>
      let pkt : Packet :=
        { w0 := headWord r.b dst (bits a 9 8) 0 r.wing (r.key % 65536) len (bits a 23 16)
          w1 := BitVec.ofNat 64 (bits a 63 32), payload }
      let t : Transit :=
        { id := s.nextId, src := some r.b, fid := none, dst, fifo := bits a 9 8, dprog := objKey r.wing (bits a 23 16), pkt }
      .hold { s.setBrick r.b (r.mod fun c => { c with sending := true }).br with transit := s.transit ++ [t], nextId := s.nextId + 1 }

/-- FIFO IMM[1:0]. -/
def immFifo (q : QEnt) : Nat := bits (insnImm q.word.toNat) 1 0

/-- PHEAD: header word 0 of the head packet, or the not-valid word. -/
def phead (r : Run) (q : QEnt) : Except Nat Run :=
  let v := match (r.br.ctx.fifoAt (immFifo q)).pkts with
    | p :: _ => p.w0
    | [] => notValid
  .ok (r.mod fun c => c.sput (insnD q.word.toNat) v)

/-- PTAKE: the head packet to sA, header included; removed; sD its header word 0. -/
def ptake (r : Run) (q : QEnt) : Except Nat Run :=
  let f := r.br.ctx.fifoAt (immFifo q)
  match f.pkts with
  | [] => .ok (r.mod fun c => c.sput (insnD q.word.toNat) notValid)
  | p :: _ =>
    match r.put q.a.toNat p.bytes with
    | .ok r => .ok (r.mod fun c => (c.setFifo (immFifo q) f.pop).sput (insnD q.word.toNat) p.w0)
    | .error e => .error e

/-- PDROP: removes the head packet. -/
def pdrop (r : Run) (q : QEnt) : Except Nat Run := .ok (r.mod fun c => c.setFifo (immFifo q) (c.fifoAt (immFifo q)).pop)

/-- PBIND: binds FIFO IMM[1:0] to latch IMM[7:2], or unbinds it. -/
def pbind (r : Run) (q : QEnt) : Except Nat Run :=
  let imm := insnImm q.word.toNat
  let bound := if bit imm 8 then some (bits imm 7 2, q.addr) else none
  .ok (r.mod fun c => c.setFifo (immFifo q) { c.fifoAt (immFifo q) with bind := bound })

/-- PSEND (R229). -/
def execOpPsend (brick : Nat) (s : State) : Host.Outcome State Fault Refusal := work s (s.engine brick 7 0 psend)

/-- PHEAD (R230). -/
def execOpPhead (brick : Nat) (s : State) : Host.Outcome State Fault Refusal := work s (s.engine brick 7 1 (onBrick phead))

/-- PTAKE (R230). -/
def execOpPtake (brick : Nat) (s : State) : Host.Outcome State Fault Refusal := work s (s.engine brick 7 2 (onBrick ptake))

/-- PDROP (R230). -/
def execOpPdrop (brick : Nat) (s : State) : Host.Outcome State Fault Refusal := work s (s.engine brick 7 3 (onBrick pdrop))

/-- PBIND (R230). -/
def execOpPbind (brick : Nat) (s : State) : Host.Outcome State Fault Refusal := work s (s.engine brick 7 4 (onBrick pbind))

/-! ## Delivery (R229, R230, R242) -/

/-- Whether a program is resident and running at a brick. -/
def State.postTo (s : State) (key b : Nat) : Bool :=
  match tfind s.progs key with
  | some p => p.st == .running && p.resident && (s.brick b).prog == some key
  | none => false

/-- The next SEQ from a source to a destination FIFO, and the state that has counted it (Table 09-7). (log 59, DEDUCED) -/
def State.takeSeq (s : State) (t : Transit) : State × Nat :=
  let k := t.dst * 4 + t.fifo
  match t.src with
  | some b =>
    let br := s.brick b
    (s.setBrick b { br with ctx := { br.ctx with seqs := tset 0 br.ctx.seqs k (tget 0 br.ctx.seqs k + 1) } }, tget 0 br.ctx.seqs k)
  | none =>
    match tfind s.progs t.dprog with
    | some p => (s.modProg t.dprog fun p => { p with hostSeq := tset 0 p.hostSeq k (tget 0 p.hostSeq k + 1) }, tget 0 p.hostSeq k)
    | none => (s, 0)

/-- Writes a packet into its FIFO and signals the latch bound to it, LATCH_OVF above 255 (R225, R230). -/
def State.putPacket (s : State) (t : Transit) : State :=
  let n := s.takeSeq t
  let s := n.1
  let pkt := { t.pkt with w1 := BitVec.ofNat 64 (t.pkt.w1.toNat % 2 ^ 32 + n.2 % 2 ^ 32 * 2 ^ 32) }
  let br := s.brick t.dst
  let f := br.ctx.fifoAt t.fifo
  let c := br.ctx.setFifo t.fifo (f.push pkt)
  let s := s.bump (brkReg t.dst 0x68)
  match f.bind with
  | none => s.setBrick t.dst { br with ctx := c }
  | some (l, addr) =>
    let s := s.setBrick t.dst { br with ctx := c.signal l 4 addr }
    if c.full l && br.st == .running then s.brickFault t.dst 4 addr fLatchOvf else s

/-- The sender's PSEND completes: sD is 0 when the packet has been written, 1 when it was not resident (R229). (log 59, DEDUCED) -/
def State.sendDone (s : State) (b : Nat) (v : Word64) (counter : Nat) : State :=
  match s.run? b with
  | none => s
  | some r =>
    match r.br.ctx.queueOf 4 with
    | [] => s
    | q :: _ =>
      let x := r.mod fun c => { c.sput (insnD q.word.toNat) v with sending := false }
      ((s.setBrick b x.br).bump (brkReg b counter)).engineDone b 4 q

/-- Whether a PROG_POST to the same FIFO is ahead of this one in its ring (R242). (log 59, DEDUCED) -/
def State.postAhead (s : State) (t : Transit) : Bool :=
  match t.fid.bind s.flight? with
  | none => false
  | some f => s.flights.any fun g =>
      decide (g.fid < f.fid) && g.wing == f.wing && g.sq == f.sq && g.phase != .done && hOpcode g.raw == 0x504
        && g.u 16 1 == t.dst && g.u 17 1 == t.fifo && hHandle g.raw == hHandle f.raw

/-- POST_PACKET_DELIVER for one packet. (log 59, DEDUCED) -/
def State.deliver (s : State) (t : Transit) : State :=
  let gone := { s with transit := s.transit.filter fun x => x.id != t.id }
  if s.postTo t.dprog t.dst then
    if !(((s.brick t.dst).ctx.fifoAt t.fifo).room t.pkt) || s.postAhead t then s
    else
      let s := gone.putPacket t
      let s := match t.src with
        | some b => s.sendDone b 0 0x60
        | none => s
      match t.fid with
      | some fid => s.fixOk fid 0 0
      | none => s
  else
    let s := match t.src with
      | some b => gone.sendDone b 1 0x70
      | none => gone
    match t.fid with
    | some fid =>
      s.fixSt fid (match tfind s.progs t.dprog with
        | some p => if p.st = .running then .busy else .invalid
        | none => .invalid)
    | none => s

/-- POST_PACKET_DELIVER (R229, R230): a packet on its way reaches its destination, and is written once its FIFO has room. -/
def execPostPacketDeliver (packet : Nat) (s : State) : Host.Outcome State Fault Refusal :=
  work s (match s.transit.find? fun t => t.id == packet with
    | some t => if s.err.fatal then s else s.deliver t
    | none => s)

end Sys2Proof.Machine
end

