-- ==== Sys2Proof/Machine/Prog.lean ====
section
/-!
DEFINITION. Programs (09): loading an image, starting, waiting, stopping, posting, unloading, slice groups and their switches.
-/
namespace Sys2Proof.Machine
open Sys2Proof

/-! ## Slice groups (R243, R245) -/

def Prog.uses (p : Prog) : List Nat := p.bricks.map BrickEnt.brick

def overlaps (a b : List Nat) : Bool := a.any fun x => b.contains x

/-- The programs of a wing, with their keys. -/
def State.wingProgs (s : State) (w : Nat) : Tab Prog := s.progs.filter fun e => e.1 / 65536 == w

/-- Bricks joined to some bricks by programs that share one; `fuel` bounds the rounds. -/
def joinBricks (ps : Tab Prog) : Nat → List Nat → List Nat
  | 0, bs => bs
  | n + 1, bs =>
    joinBricks ps n (bs ++ ((ps.filter fun e => overlaps e.2.uses bs).flatMap fun e => e.2.uses).filter fun x => !(bs.contains x))

/-- Puts a program into a list in load order. (log 61, DEDUCED) -/
def byOrder (x : Nat × Prog) : List (Nat × Prog) → List (Nat × Prog)
  | [] => [x]
  | y :: t => if y.2.order ≤ x.2.order then y :: byOrder x t else x :: y :: t

/-- The slice group of some bricks of a wing, in load order. (log 61, DEDUCED) -/
def State.sliceGroup (s : State) (w : Nat) (bs : List Nat) : List (Nat × Prog) :=
  let ps := s.wingProgs w
  let all := joinBricks ps ps.length bs
  (ps.filter fun e => overlaps e.2.uses all).foldl (fun l x => byOrder x l) []

/-- Whether a brick entry's store range overlaps another program's range on the same brick. -/
def BrickEnt.shares (e : BrickEnt) (others : List Prog) : Bool :=
  others.any fun p => p.bricks.any fun x =>
    x.brick == e.brick && decide (x.base < e.base + e.bytes) && decide (e.base < x.base + x.bytes)

/-- Tier pages of a brick's save area (R245). -/
def savePages (e : BrickEnt) (shared : Bool) : Nat := cdiv (131072 + (if shared then e.bytes else 0)) pageSize

/-! ## PROG_LOAD (R235 to R238) -/

/-- Field ranges of Table 09-10. -/
def loadOk (f : Flight) : Bool :=
  inside 1 256 (f.u 16 2) && decide (f.u 18 1 ≤ 7) && decide (1 ≤ f.u 19 1) && inside 1 10000000 (f.u 20 4) && decide (f.u 24 1 ≤ 1)
    && decide (f.u 25 1 ≤ 32) && f.zero [(26, 6), (48, 80)] && aligned64 (f.u 32 8) && decide (f.u 40 8 ≤ 2147483648)
    && decide (64 * f.u 16 2 ≤ f.u 40 8)

/-- Window entry i at an offset of an image (R237). -/
def winOf (img : Bytes) (off i : Nat) : Win :=
  { base := fld img (off + 16 * i) 8, pages := fld img (off + 16 * i + 8) 4, perm := fld img (off + 16 * i + 12) 1 }

/-- Brick entry k of an image (Table 09-11). -/
def entOf (img : Bytes) (k : Nat) : BrickEnt :=
  let u := fun o n => fld img (64 * k + o) n
  { brick := u 0 1, base := u 4 4, bytes := u 8 4, entry := u 12 4, pscale := u 16 4
    wins := (List.range (u 1 1)).map (winOf img (u 40 8)) }

/-- Bytes of the image's initial contents of brick entry k. -/
def initOf (img : Bytes) (k : Nat) : Bytes := slice img (fld img (64 * k + 24) 8) (fld img (64 * k + 32) 8)

def winsApart : List Win → Bool
  | [] => true
  | x :: t => t.all (fun y => decide (x.base + 4096 * x.pages ≤ y.base) || decide (y.base + 4096 * y.pages ≤ x.base)) && winsApart t

/-- Checks of a brick entry (R236 to R238). -/
def State.entOk (s : State) (w priv size : Nat) (img : Bytes) (k : Nat) : Bool :=
  let u := fun o n => fld img (64 * k + o) n
  let e := entOf img k
  decide (u 1 1 ≤ 16) && zeroAt img (64 * k + 2) 2 && zeroAt img (64 * k + 20) 4 && zeroAt img (64 * k + 48) 16
    && s.allotted w e.brick && e.base % 64 == 0 && e.bytes % 64 == 0 && decide (64 ≤ e.bytes)
    && decide (e.base + e.bytes ≤ storeBytes) && e.entry % 8 == 0 && e.holds e.entry 8
    && (if priv = 0 then e.pscale == 0xFFFFFFFF else e.pscale % 16 == 0 && e.holds e.pscale (16 * priv))
    && u 24 8 % 64 == 0 && decide (u 32 8 ≤ e.bytes) && decide (u 24 8 + u 32 8 ≤ size)
    && u 40 8 % 16 == 0 && decide (u 40 8 + 16 * u 1 1 ≤ size)
    && (List.range (u 1 1)).all (fun i => zeroAt img (u 40 8 + 16 * i + 13) 3)
    && e.wins.all (fun x => x.base % 4096 == 0 && decide (1 ≤ x.pages) && inside 1 3 x.perm && s.inRanges w x.base (4096 * x.pages)
      && !(s.freeing none w x.base (4096 * x.pages)))
    && winsApart e.wins

def noRepeat : List Nat → Bool
  | [] => true
  | x :: t => !(t.contains x) && noRepeat t

/-- Floor demands of a load for its own save areas (R245). -/
def saveDemands (new : List BrickEnt) (others : List Prog) : List (List Nat × Nat) :=
  new.map fun e => (dieStacks (brickDie e.brick), savePages e (e.shares others))

/-- The other members of a slice group than one. -/
def restOf (group : List (Nat × Prog)) (key : Nat) : List Prog := (group.filter fun x => x.1 != key).map Prod.snd

/-- What a load adds to the save areas of a member whose ranges become saved by it (R245). -/
def addedDemands (new : Prog) (group : List (Nat × Prog)) (x : Nat × Prog) : List (List Nat × Nat) :=
  x.2.bricks.map fun e =>
    (dieStacks (brickDie e.brick), savePages e (e.shares (new :: restOf group x.1)) - savePages e (e.shares (restOf group x.1)))

/-- Gives the members of a slice group the pages that a load adds to their save areas. -/
def State.growSaves (s : State) (w : Nat) (new : Prog) (group : List (Nat × Prog)) : Option State :=
  group.foldl (fun (acc : Option State) x => acc.bind fun s =>
    (s.allocInternal w (addedDemands new group x)).map fun r =>
      r.1.modProg x.1 fun p => { p with frames := p.frames ++ r.2, pages := p.pages + r.2.length }) (some s)

/-- The store range of a switched-out member that a load makes shared: it stands in the store as the member left it, and is saved before another
program takes its place (R245). -/
def State.keepRange (s : State) (key : Nat) (e : BrickEnt) : State :=
  let br := s.brick e.brick
  let inRange := fun k => decide (e.base ≤ 64 * k) && decide (64 * k < e.base + e.bytes)
  s.modProg key fun p =>
    if (tfind p.savedStore e.brick).isSome then p
    else { p with
      savedStore := tput p.savedStore e.brick (shiftRange br.store e.base e.bytes e.base)
      savedBad := tput p.savedBad e.brick (br.bad.filter inRange) }

/-- Saves such ranges of every member of a slice group that is switched out. -/
def State.keepRanges (s : State) (new : Prog) (group : List (Nat × Prog)) : State :=
  (group.filter fun x => !x.2.resident && !x.2.switching).foldl (fun s x =>
    (x.2.bricks.filter fun e => e.shares [new]).foldl (fun s e => s.keepRange x.1 e) s) s

/-- The program an image makes. -/
def progOf (f : Flight) (img : Bytes) (order : Nat) : Prog :=
  { bricks := (List.range (f.u 16 2)).map (entOf img), ptc := f.u 18 1, quantum := f.u 19 1, wdogUs := f.u 20 4, priv := f.u 25 1, order }

/-- A store with a range set to initial contents, the rest of the range 0 (Table 09-11). -/
def Brick.initRange (br : Brick) (e : BrickEnt) (init : Bytes) : Brick :=
  { br with
    store := putBytes (clearBytes br.store e.base e.bytes) e.base init
    bad := br.bad.filter fun k => !(decide (e.base ≤ 64 * k) && decide (64 * k < e.base + e.bytes)) }

/-- Places a program that may take its bricks at once. -/
def State.placeProg (s : State) (key : Nat) (p : Prog) (img : Bytes) : State :=
  let s := { s with progs := tput s.progs key { p with resident := true } }
  p.bricks.zipIdx.foldl (fun s x =>
    let br := (s.brick x.1.brick).initRange x.1 (initOf img x.2)
    s.setBrick x.1.brick { store := br.store, bad := br.bad, prog := some key }) s

/-- Places a program of a busy slice group in its save areas (R245). -/
def State.parkProg (s : State) (key : Nat) (p : Prog) (img : Bytes) : State :=
  let saved := p.bricks.foldl (fun t e => tput t e.brick {}) []
  let stores := p.bricks.zipIdx.foldl (fun t x => tput t x.1.brick (putBytes [] x.1.base (initOf img x.2))) []
  { s with progs := tput s.progs key { p with saved, savedStore := stores } }

/-- PROG_LOAD of an image whose bytes are there. -/
def State.loadImage (s : State) (f : Flight) (img : Bytes) : State :=
  let key := f.obj
  let n := f.u 16 2
  let p := progOf f img s.nextId
  let group := s.sliceGroup f.wing p.uses
  if !((List.range n).all (s.entOk f.wing p.priv (f.u 40 8) img)) || !(noRepeat p.uses) then s.fixSt f.fid .invalid
  else if s.progs.length ≥ 1024 ∨ group.length ≥ 16 then s.fixSt f.fid .noResource
  else
    match (s.allocInternal f.wing (saveDemands p.bricks (group.map Prod.snd))).bind fun r =>
        (r.1.growSaves f.wing p group).map fun t => (t, r.2) with
    | none => s.fixSt f.fid .noResource
    | some (t, frames) =>
      let p := { p with frames, pages := frames.length }
      let t := { t.keepRanges p group with nextId := t.nextId + 1 }
      let busy := group.any fun e => e.2.resident || e.2.switching
      ((if busy then t.parkProg key p img else t.placeProg key p img).admitNow f.fid).fixOk f.fid 0 0

/-- The program that a descriptor's HANDLE names (R235). -/
def State.progAt (s : State) (f : Flight) : Option Prog :=
  if hHandle f.raw < 256 then tfind s.progs f.obj else none

/-- PROG_LOAD (R238). -/
def execProgLoad (fid : Nat) (src : Dma) (s : State) : Host.Outcome State Fault Refusal :=
  work s (match s.ready? fid 0x500 with
    | none => s
    | some f =>
      if !(loadOk f) || decide (256 ≤ hHandle f.raw) || (s.progAt f).isSome then s.fixSt fid .invalid
      else
        let r := s.readSrc f (f.u 24 1) (f.u 32 8) (f.u 40 8) src 0
        match r.2 with
        | .stop st n => r.1.stopAt fid st n
        | .bytes img => r.1.loadImage f img)

/-! ## PROG_START (R239) -/

/-- Every brick of a program starts at ENTRY in the same cycle, with all its registers 0 (R220, R239). (log 62, DEDUCED) -/
def State.beginProg (s : State) (key : Nat) : State :=
  match tfind s.progs key with
  | none => s
  | some p =>
    let s := s.modProg key fun p => { p with st := .running, startFid := none, startBeat := none, cycles := 0, since := s.cyc }
    let s := p.bricks.foldl (fun s e =>
      let br := s.brick e.brick
      s.setBrick e.brick { br with
        st := .running, fault := 0, fEngine := 0, fAddr := 0, wdogFrom := s.cyc, ctx := { pc := e.entry, wdogLeft := p.wdogUs } }) s
    let s := match p.startFid with
      | some fid => s.fixOk fid 0 0
      | none => s
    p.bricks.foldl (fun s e => s.settle e.brick) s

/-- A start whose beat has come: at once where the program is resident, else at its first resident cycle (R239).
(log 27, DEDUCED) -/
def State.startNow (s : State) (key : Nat) : State :=
  match tfind s.progs key with
  | none => s
  | some p =>
    let s := s.modProg key fun p => { p with startBeat := none }
    if p.resident then (s.modProg key fun p => { p with turnLeft := p.quantum }).beginProg key else s

/-- A turn that begins at this boundary, which does not count among those that end it (R243). -/
def Prog.fromHere (p : Prog) : Prog := { p with turnLeft := p.turnLeft + 1 }

/-- The beat event of a start (R27): due when the start still waits for that beat. -/
def State.progBeat (s : State) (key n : Nat) : State :=
  match tfind s.progs key with
  | none => s
  | some p =>
    match p.startBeat with
    | some b => if p.startFid.isSome ∧ p.st = .loaded ∧ b ≤ n then (s.startNow key).modProg key Prog.fromHere else s
    | none => s

/-- PROG_START. (log 62, DEDUCED) -/
def State.progStart (s : State) (f : Flight) (p : Prog) : State :=
  let beat := f.u 24 8
  let key := f.obj
  let wait := fun (s : State) (b : Option Nat) =>
    (s.modProg key fun p => { p with startFid := some f.fid, startBeat := b }).admitNow f.fid
  if !(f.zero [(16, 8), (32, 96)]) || p.st != .loaded || p.startFid.isSome then s.fixSt f.fid .invalid
  else if beat = 0 then (wait s none).startNow key
  else
    match s.beatRefusal beat with
    | some st => s.fixSt f.fid st
    | none => (wait s (some beat)).schedule beat (.progStart key)

/-- PROG_START (R239). -/
def execProgStart (fid : Nat) (s : State) : Host.Outcome State Fault Refusal :=
  work s (match s.ready? fid 0x501 with
    | none => s
    | some f =>
      match s.progAt f with
      | none => s.fixSt fid .invalid
      | some p => s.progStart f p)

/-! ## PROG_WAIT, PROG_STOP, PROG_UNLOAD (R240, R241) -/

/-- PROG_WAIT (R240). (log 62, DEDUCED) -/
def execProgWait (fid : Nat) (s : State) : Host.Outcome State Fault Refusal :=
  work s (match s.ready? fid 0x502 with
    | none => s
    | some f =>
      match s.progAt f with
      | none => s.fixSt fid .invalid
      | some p =>
        if !(f.zero [(16, 112)]) then s.fixSt fid .invalid
        else if p.st = .ended then (s.admitNow fid).fix fid p.endCpl
        else (s.modProg f.obj fun p => { p with waits := p.waits ++ [fid] }).admitNow fid)

/-- Stops every brick that has not halted; the program is then ENDED, and a start that still waited is refused (R241).
(log 62, DEDUCED) -/
def State.stopProg (s : State) (key : Nat) (p : Prog) : State :=
  let live := p.uses.filter fun b => !(s.brickHalted key p b)
  let first := live.foldl (fun (m : Option Nat) b => some (match m with
    | some x => min x b
    | none => b)) none
  let s := p.uses.foldl (fun s b => s.stopBrick key b) s
  let q := (tfind s.progs key).getD p
  let q := { q with
    st := .ended, cycles := p.resCycles s.cyc, since := s.cyc, waits := [], startFid := none, startBeat := none
    firstFault := q.firstFault <|> first.map fun b => (b, fStopped, 0) }
  let s := (s.modProg key fun _ => q).tellFault key p
  let s := match p.startFid with
    | some fid => s.fixSt fid .invalid
    | none => s
  p.waits.foldl (fun s fid => s.fix fid q.endCpl) s

/-- PROG_STOP (R241). -/
def execProgStop (fid : Nat) (s : State) : Host.Outcome State Fault Refusal :=
  work s (match s.ready? fid 0x503 with
    | none => s
    | some f =>
      match s.progAt f with
      | none => s.fixSt fid .invalid
      | some p =>
        if !(f.zero [(16, 112)]) then s.fixSt fid .invalid
        else ((if p.st = .ended then s else s.stopProg f.obj p).admitNow fid).fixOk fid 0 0)

/-- Releases a program: its save areas, and the context its bricks hold (R241). -/
def State.unloadProg (s : State) (w key : Nat) (p : Prog) : State :=
  let s := p.uses.foldl (fun s b =>
    if (s.brick b).prog = some key then s.setBrick b { store := (s.brick b).store, bad := (s.brick b).bad } else s) s
  let s := { s.freeInternal w p.frames with progs := tdel s.progs key }
  let s := match p.startFid with
    | some fid => s.fixSt fid .invalid
    | none => s
  p.waits.foldl (fun s fid => s.fixSt fid .invalid) s

/-- PROG_UNLOAD (R241). -/
def execProgUnload (fid : Nat) (s : State) : Host.Outcome State Fault Refusal :=
  work s (match s.ready? fid 0x505 with
    | none => s
    | some f =>
      match s.progAt f with
      | none => s.fixSt fid .invalid
      | some p =>
        if !(f.zero [(16, 112)]) then s.fixSt fid .invalid
        else if p.st = .running then s.fixSt fid .busy
        else ((s.unloadProg f.wing f.obj p).admitNow fid).fixOk fid 0 0)

/-! ## PROG_POST (R242) -/

/-- Field checks of PROG_POST; bytes beyond an inline payload are 0 (R80). -/
def postOk (f : Flight) : Bool :=
  decide (f.u 17 1 ≤ 3) && decide (f.u 18 2 ≤ 4096) && f.u 18 2 % 8 == 0 && decide (f.u 24 1 ≤ 2) && f.zero [(25, 7), (40, 88)]
    && aligned64 (f.u 32 8) && (f.u 24 1 != 2 || (f.u 32 8 == 0 && zeroAt f.cont (f.u 18 2) (f.cont.length - f.u 18 2)))

/-- The packet of a PROG_POST: HOST set, SRC 0; its SPROG is free (log 26, DESIGN CHOICE). -/
def State.hostPacket (s : State) (f : Flight) (payload : Bytes) : Packet :=
  { w0 := headWord 0 (f.u 16 1) (f.u 17 1) 1 f.wing (s.free % 256) (f.u 18 2) (hHandle f.raw)
    w1 := BitVec.ofNat 64 (f.u 20 4), payload }

/-- PROG_POST. -/
def State.progPost (s : State) (f : Flight) (src : Dma) : State :=
  match s.progAt f with
  | none => s.fixSt f.fid .invalid
  | some p =>
    if !(postOk f) || !(p.uses.contains (f.u 16 1)) || p.st != .running then s.fixSt f.fid .invalid
    else if !(s.postTo f.obj (f.u 16 1)) then s.fixSt f.fid .busy
    else
      let r := s.readSrc f (f.u 24 1) (f.u 32 8) (f.u 18 2) src 0
      match r.2 with
      | .stop st n => r.1.stopAt f.fid st n
      | .bytes payload =>
        let s := r.1
        let t : Transit :=
          { id := s.nextId, src := none, fid := some f.fid, dst := f.u 16 1, fifo := f.u 17 1, dprog := f.obj
            pkt := s.hostPacket f payload }
        ({ s.useFree with transit := s.transit ++ [t], nextId := s.nextId + 1 }).admitNow f.fid

/-- PROG_POST (R242). -/
def execProgPost (fid : Nat) (src : Dma) (s : State) : Host.Outcome State Fault Refusal :=
  work s (match s.ready? fid 0x504 with
    | none => s
    | some f => s.progPost f src)

/-! ## Switches (R243 to R245) -/

/-- Whether a program takes part in turns: RUNNING, or with a start that only waits for its first resident cycle (log 27, DEDUCED). -/
def Prog.wantsTurn (p : Prog) : Bool := p.st == .running || (p.startFid.isSome && p.startBeat.isNone && p.st == .loaded)

/-- A PSEND that waits is withdrawn: it runs again after restore, with the latch it took (R244). -/
def Ctx.withdraw (c : Ctx) : Ctx :=
  if c.sending then
    match c.queueOf 4 with
    | _ :: _ => { c.startHead 4 with sending := false }
    | [] => c
  else c

/-- A brick's context as a switch saves it: the watchdog keeps the ticks it had left (R232, R244). -/
def Brick.saveCtx (b : Brick) (now : Nat) : Ctx :=
  { b.ctx.withdraw with wdogLeft := if b.st = .running then b.ctx.wdogLeft - (now / 1500 - b.wdogFrom / 1500) else b.ctx.wdogLeft }

/-- One brick of the outgoing program (R244, R245). -/
def State.saveBrick (s : State) (key : Nat) (others : List Prog) (e : BrickEnt) : State :=
  let br := s.brick e.brick
  let inRange := fun k => decide (e.base ≤ 64 * k) && decide (64 * k < e.base + e.bytes)
  let s := s.modProg key fun p => { p with
    saved := tput p.saved e.brick (br.saveCtx s.cyc)
    savedStore := if e.shares others then tput p.savedStore e.brick (shiftRange br.store e.base e.bytes e.base) else tdel p.savedStore e.brick
    savedBad := if e.shares others then tput p.savedBad e.brick (br.bad.filter inRange) else tdel p.savedBad e.brick }
  let s := { s with
    transit := s.transit.filter fun t => t.src != some e.brick
    accesses := s.accesses.filter fun x => x.brick != some e.brick }
  (s.setBrick e.brick { store := br.store, bad := br.bad }).bump (brkReg e.brick 0x80)

/-- The outgoing program leaves its bricks. (log 61, DEDUCED) -/
def State.switchOut (s : State) (key : Nat) (p : Prog) (others : List Prog) : State :=
  (p.bricks.foldl (fun s e => s.saveBrick key others e) s).modProg key fun q =>
    { q with resident := false, cycles := if p.st = .ended then q.cycles else p.resCycles s.cyc, turnLeft := 0 }

/-- A PSEND ends while its program leaves: the controller dispatches nothing more (R244). -/
def State.lastSend (s : State) (b : Nat) (v : Word64) (counter : Nat) : State :=
  let br := s.brick b
  match br.ctx.queueOf 4 with
  | [] => s
  | q :: rest =>
    let w := q.word.toNat
    let c := { (br.ctx.setQueue 4 rest).sput (insnD w) v with sending := false }
    let s := (s.setBrick b { br with ctx := if insnSE w then c.signal (insnSL w) 4 q.addr else c }).bump (brkReg b counter)
    if insnSE w && br.ctx.full (insnSL w) then s.brickFault b 4 q.addr fLatchOvf else s

/-- A PSEND under way at a switch: one that waits for FIFO room stays, to be withdrawn; a packet for a program that leaves or comes is not
resident; any other arrives (R244). -/
def State.leaveSend (s : State) (going : List Nat) (t : Transit) (b : Nat) : State :=
  let gone := { s with transit := s.transit.filter fun x => x.id != t.id }
  if s.postTo t.dprog t.dst && (!(((s.brick t.dst).ctx.fifoAt t.fifo).room t.pkt) || s.postAhead t) then s
  else if going.contains t.dprog || !(s.postTo t.dprog t.dst) then gone.lastSend b 1 0x70
  else (gone.putPacket t).lastSend b 0 0x60

/-- Every PSEND of a program that leaves its bricks. -/
def State.leaveSends (s : State) (going : List Nat) (p : Prog) : State :=
  p.uses.foldl (fun s b => match s.transit.find? fun t => t.src == some b with
    | some t => s.leaveSend going t b
    | none => s) s

/-- The incoming program begins to restore. (log 61, DEDUCED) -/
def State.switchIn (s : State) (key : Nat) (p : Prog) : State :=
  (p.bricks.foldl (fun s e =>
    (s.setBrick e.brick { s.brick e.brick with prog := some key, st := .switching }).bump (brkReg e.brick 0x80)) s).modProg key
      fun q => { q with switching := true, turnLeft := q.quantum }

/-- The member of a slice group whose turn is next after a program, in load order. -/
def nextTurn (group : List (Nat × Prog)) (key : Nat) : Option (Nat × Prog) :=
  let order := ((group.find? fun e => e.1 == key).map fun e => e.2.order).getD 0
  let want := group.filter fun e => e.1 != key && e.2.wantsTurn
  match want.find? fun e => decide (order < e.2.order) with
  | some e => some e
  | none => want.head?

/-- The member of a slice group that has its turn among the resident ones: the first in load order that takes part. -/
def turnNow (group : List (Nat × Prog)) : Option (Nat × Prog) :=
  let res := group.filter fun e => e.2.resident
  match res.find? fun e => e.2.wantsTurn with
  | some e => some e
  | none => res.head?

/-- The member that has its turn after a boundary, where `x` had it before (R243). -/
def turnAfter (group : List (Nat × Prog)) (x : Nat × Prog) : Nat × Prog :=
  match nextTurn group x.1 with
  | none => x
  | some e => if x.2.wantsTurn ∧ 1 < x.2.turnLeft then x else e

/-- Gives a member its turn: the other resident members leave, where they take part or its own bricks have to be restored (R243, R244). -/
def State.giveTurn (s : State) (group : List (Nat × Prog)) (x y : Nat × Prog) : State :=
  let out := group.filter fun e => e.2.resident && e.1 != y.1 && (e.2.wantsTurn || !y.2.resident)
  let going := y.1 :: out.map Prod.fst
  let s := out.foldl (fun s e => s.leaveSends going e.2) s
  let s := out.foldl (fun s e => s.switchOut e.1 e.2 (restOf group e.1)) s
  if !y.2.resident then s.switchIn y.1 y.2
  else if x.1 = y.1 then s
  else s.modProg y.1 fun p => { p with turnLeft := p.quantum }

/-- What a boundary does to one slice group (R243, R244). -/
def State.sliceGroupBoundary (s : State) (group : List (Nat × Prog)) : State :=
  let s := group.foldl (fun s e => s.modProg e.1 fun p =>
    { p with turnLeft := if p.resident || p.switching then p.turnLeft - 1 else p.turnLeft }) s
  if group.any fun e => e.2.switching then s
  else
    match turnNow group with
    | none =>
      match group.find? fun e => e.2.wantsTurn with
      | some e => s.switchIn e.1 e.2
      | none => s
    | some x => s.giveTurn group x (turnAfter group x)

/-- Every slice group at a boundary: each is dealt with at its first member in load order. (log 61, DEDUCED) -/
def State.sliceBoundary (s : State) : State :=
  s.progs.foldl (fun t e =>
    let group := s.sliceGroup (e.1 / 65536) e.2.uses
    if group.head?.map Prod.fst = some e.1 then t.sliceGroupBoundary group else t) s

/-- One brick of the incoming program is restored; one that had halted stays halted. -/
def State.restoreBrick (s : State) (key : Nat) (p : Prog) (e : BrickEnt) : State :=
  let br := s.brick e.brick
  let ctx := tget {} p.saved e.brick
  let outside := fun k => !(decide (e.base ≤ 64 * k) && decide (64 * k < e.base + e.bytes))
  let back := match tfind p.savedStore e.brick with
    | some t => { br with store := copyRange t br.store e.base e.bytes e.base, bad := br.bad.filter outside ++ tget [] p.savedBad e.brick }
    | none => br
  s.setBrick e.brick { back with
    prog := some key, ctx, wdogFrom := s.cyc
    st := if p.st = .running then (if ctx.halted then .halted else .running) else .idle }

/-- SLICE_RESUME (R244): restore has finished, the incoming program resumes on all its bricks; a start that waited for residence
begins. (log 27, DEDUCED) -/
def State.resume (s : State) (key : Nat) (p : Prog) : State :=
  let s := p.bricks.foldl (fun s e => s.restoreBrick key p e) s
  let s := s.modProg key fun q => { q with resident := true, switching := false, since := s.cyc }
  if p.startFid.isSome ∧ p.startBeat.isNone ∧ p.st = .loaded then s.beginProg key
  else p.bricks.foldl (fun s e => s.settle e.brick) s

/-- SLICE_RESUME (R244). -/
def execSliceResume (wing prog : Nat) (s : State) : Host.Outcome State Fault Refusal :=
  work s (match tfind s.progs (objKey wing prog) with
    | some p => if p.switching then s.resume (objKey wing prog) p else s
    | none => s)

end Sys2Proof.Machine
end

