-- ==== Sys2Proof/Machine/Update.lean ====
section
/-!
DEFINITION. Meanings of the update and version commands (06): staging and its sweeps, publish, discard, retire, the switch at a beat,
and the Mortar engine.
-/
namespace Sys2Proof.Machine
open Sys2Proof

/-! ## Change sets (R132, R133, R144) -/

def Coll.cset (c : Coll) (i : Nat) : CSet := tget {} c.csets i

def Coll.setCset (c : Coll) (i : Nat) (x : CSet) : Coll := { c with csets := tset {} c.csets i x }

/-- Everything staged in a change set is dropped, and it becomes EMPTY. -/
def Coll.dropCset (c : Coll) (i : Nat) : Coll :=
  let c := c.setCset i {}
  { c with
    porch := c.porch.filter fun e => !(e.cset == i && e.vis.isNone)
    tombs := c.tombs.filter fun t => !(t.cset == i && t.del.isNone) }

/-- Completes with VERSION_CONFLICT and the latest version (R133, R142). -/
def State.conflict (s : State) (fid latest : Nat) : State := s.fix fid { status := .versionConflict, result := latest % 2 ^ 32 }

/-- Empties a change set: its staging descriptors that are not resolved complete with VERSION_CONFLICT (R133, R144). -/
def State.emptyCset (s : State) (key i : Nat) : State :=
  match tfind s.colls key with
  | none => s
  | some c =>
    let fids := (c.stage.filter fun j => j.cset == i).map StageJob.fid
    fids.foldl (fun s fid => s.conflict fid c.latest) (s.modColl key fun c => c.dropCset i)

/-! ## VEC_INSERT, VEC_DELETE: admission (R135 to R141) -/

/-- Size of an insert record (R136). -/
def insertRec (d : CollDef) (q : Nat) : Nat := roundUp (8 + 4 * d.attrWords + d.dim * fmtBytes q) 64

/-- Elements of an insert record. -/
def recVec (d : CollDef) (q : Nat) (r : Bytes) : List Word32 := fmtVec q d.dim (r.drop (8 + 4 * d.attrWords))

/-- Whether an insert record is allowed (R137). -/
def recOk (d : CollDef) (q : Nat) (r : Bytes) : Bool :=
  let n := 8 + 4 * d.attrWords + d.dim * fmtBytes q
  decide (fld r 0 8 < 0xFFFFFFFFFFFF) && allFinite (recVec d q r) && zeroAt r n (insertRec d q - n)

/-- Fields of a VEC_INSERT (Table 06-3). -/
def insertOk (f : Flight) (d : CollDef) : Bool :=
  decide (f.u 16 1 ≤ 7) && decide (f.u 17 1 ≤ 1) && decide (f.u 18 1 ≤ 2) && inside 1 4096 (f.u 20 4) && aligned64 (f.u 32 8)
    && f.u 40 8 == f.u 20 4 * insertRec d (f.u 18 1) && f.zero [(19, 1), (24, 8), (48, 80)]

/-- Fields of a VEC_DELETE (R140). -/
def deleteOk (f : Flight) : Bool :=
  decide (f.u 16 1 ≤ 7) && decide (f.u 17 1 ≤ 1) && inside 1 65536 (f.u 20 4) && aligned64 (f.u 32 8) && f.u 40 8 == 8 * f.u 20 4
    && f.zero [(18, 2), (24, 8), (48, 80)]

/-- Admits a staging descriptor into its change set (R133). -/
def State.stage (s : State) (f : Flight) (c : Coll) (insert : Bool) (recs : List (Nat × Bytes)) : State :=
  let i := f.u 16 1
  let x := c.cset i
  if x.st = .publishing then s.fixSt f.fid .busy
  else if x.st = .staging ∧ x.base ≠ c.latest then (s.emptyCset f.obj i).conflict f.fid c.latest
  else
    let job : StageJob := { fid := f.fid, cset := i, insert, efmt := f.u 18 1, recs }
    let set : CSet := if x.st = .empty then { st := .staging, base := c.latest } else x
    (s.modColl f.obj fun c => { c.setCset i set with stage := c.stage ++ [job] }).admitNow f.fid

/-- VEC_INSERT. -/
def State.vecInsert (s : State) (f : Flight) (c : Coll) (src : Dma) : State :=
  let r := s.readSrc f (f.u 17 1) (f.u 32 8) (f.u 40 8) src 0
  match r.2 with
  | .stop st n => r.1.stopAt f.fid st n
  | .bytes bs =>
    let recs := chunks (insertRec c.defn (f.u 18 1)) (f.u 20 4) bs
    if !(recs.all (recOk c.defn (f.u 18 1))) then r.1.fixSt f.fid .invalid
    else r.1.stage f c true (recs.map fun b => (fld b 0 6, b))

/-- VEC_DELETE. -/
def State.vecDelete (s : State) (f : Flight) (c : Coll) (src : Dma) : State :=
  let r := s.readSrc f (f.u 17 1) (f.u 32 8) (f.u 40 8) src 0
  match r.2 with
  | .stop st n => r.1.stopAt f.fid st n
  | .bytes bs =>
    let ents := chunks 8 (f.u 20 4) bs
    if ents.any fun b => fld b 6 2 != 0 then r.1.fixSt f.fid .invalid
    else r.1.stage f c false (ents.map fun b => (fld b 0 6, []))

/-- The checks that every descriptor of Table 06-1 shares: collection, fields, state (R131). -/
def State.onColl (s : State) (f : Flight) (ok : CollDef → Bool) (run : Coll → State) : State :=
  match s.collOf f with
  | none => s.fixSt f.fid .invalid
  | some c =>
    if !(ok c.defn) then s.fixSt f.fid .invalid
    else
      match c.refusal with
      | some st => s.fixSt f.fid st
      | none => run c

def execVecInsert (fid : Nat) (src : Dma) (s : State) : Host.Outcome State Fault Refusal :=
  work s (match s.ready? fid 0x200 with
    | some f => s.onColl f (insertOk f) fun c => s.vecInsert f c src
    | none => s)

def execVecDelete (fid : Nat) (src : Dma) (s : State) : Host.Outcome State Fault Refusal :=
  work s (match s.ready? fid 0x201 with
    | some f => s.onColl f (fun _ => deleteOk f) fun c => s.vecDelete f c src
    | none => s)

/-! ## Resolution (R134, R138, R139, R141) -/

/-- Whether a node holds a vector of the base version: used, or a Porch entry published up to it, and not dead. -/
def Coll.inBase (c : Coll) (base n : Nat) : Bool :=
  !(c.dead base n) && (c.used n || c.porch.any fun e => e.node == n && match e.vis with
    | some v => decide (v ≤ base)
    | none => false)

/-- The node of a vector ID that is live for a change set: in its base, and not deleted by the set itself. -/
def Coll.liveNode (c : Coll) (i base vid : Nat) : Option Nat :=
  (List.range c.defn.capacity).find? fun n =>
    c.vid n == vid && c.inBase base n && !(c.tombs.any fun t => t.node == n && t.cset == i && t.del.isNone)

/-- Free node slots of a shard, ascending (R138). -/
def Coll.freeSlots (c : Coll) (shard : Nat) : List Nat :=
  (List.range c.defn.capacity).filter fun n =>
    n % c.defn.shards == shard && !(c.used n) && !(c.porch.any fun e => e.node == n)

/-- The slot a new record takes: in the shard with most free slots, the lowest index (R138). -/
def Coll.takeSlot (c : Coll) : Option Nat :=
  let best := (List.range c.defn.shards).foldl (fun (b : Nat × List Nat) k =>
    let l := c.freeSlots k
    if l.length > b.2.length then (k, l) else b) (0, [])
  best.2.head?

/-- Cancels a vector ID staged earlier in the change set; answers whether there was one (R139, R141). -/
def Coll.cancel (c : Coll) (i vid : Nat) : Coll × Bool :=
  let mine := fun (e : PorchEnt) => e.cset == i && e.vis.isNone && e.vid == vid
  ({ c with porch := c.porch.filter fun e => !(mine e) }, c.porch.any mine)

/-- Gives a live vector of the base a tombstone of the change set; answers whether there was one. -/
def Coll.bury (c : Coll) (i base vid : Nat) : Coll × Bool :=
  match c.liveNode i base vid with
  | some n => ({ c with tombs := c.tombs ++ [{ node := n, vid, cset := i, del := none }] }, true)
  | none => (c, false)

/-- Writes a record's codes, attributes and vector ID into a slot, USED left at 0 (R137, R138). -/
def Coll.fillSlot (c : Coll) (q n vid : Nat) (r : Bytes) : Coll :=
  let v := recVec c.defn q r
  let x := if c.defn.metric = 2 then fNormalise v else v
  let others := c.zeros.filter fun m => m != n
  let c := { c with zeros := if c.defn.metric = 2 ∧ fNoNorm v then others ++ [n] else others }
  let c := c.write (c.key 3 n) (c.encode8 x)
  let c := if c.defn.sq4 then c.write (c.key 4 n) (c.encode4 x) else c
  let c := if c.defn.bf16 then c.write (c.key 5 n) (encodeBf16 x) else c
  let c := c.write (c.key 7 n) (slice r 8 (4 * c.defn.attrWords))
  c.setEntry n vid

/-- One insert record: the collection, and how many records replaced a vector so far. -/
def insertOne (i base q : Nat) (acc : Coll × Nat) (r : Nat × Bytes) : Coll × Nat :=
  let a := acc.1.cancel i r.1
  let b := a.1.bury i base r.1
  match b.1.takeSlot with
  | some n =>
    let c := b.1.fillSlot q n r.1 r.2
    ({ c with porch := c.porch ++ [{ node := n, vid := r.1, cset := i, vis := none }] }, acc.2 + b2n (a.2 || b.2))
  | none => acc

/-- One deleted vector ID: the collection, and how many were deleted or cancelled so far. -/
def deleteOne (i base : Nat) (acc : Coll × Nat) (r : Nat × Bytes) : Coll × Nat :=
  let a := acc.1.cancel i r.1
  let b := a.1.bury i base r.1
  (b.1, acc.2 + b2n (a.2 || b.2))

/-- The first shard whose Porch or tombstone list would be too long (R138, R141). -/
def Coll.fullShard (c : Coll) : Option Nat :=
  (List.range c.defn.shards).find? fun k =>
    decide (16384 < (c.porch.filter fun e => e.node % c.defn.shards == k).length)
      || decide (16384 < (c.tombs.filter fun t => t.node % c.defn.shards == k).length)

/-- What a resolved staging descriptor leaves: the collection and inline result, or why nothing of it is staged. Every record counts as
staged, one that a later record of the descriptor supersedes too (log 125, DESIGN CHOICE). -/
def Coll.resolve (c : Coll) (j : StageJob) : Except (Status × Option Nat) (Coll × Nat) :=
  let base := (c.cset j.cset).base
  let free := sumNat ((List.range c.defn.shards).map fun k => (c.freeSlots k).length)
  if j.insert ∧ free < j.recs.length then .error (.noResource, none)
  else
    let r := j.recs.foldl (if j.insert then insertOne j.cset base j.efmt else deleteOne j.cset base) (c, 0)
    match r.1.fullShard with
    | some k => .error (.busy, some k)
    | none => .ok (r.1, if j.insert then pack32 j.recs.length r.2 else pack32 r.2 (j.recs.length - r.2))

/-- What the records of a job write to internal pages of the Cellar window (R64, R280). -/
def State.insertWin (s : State) (key : Nat) (j : StageJob) (c c' : Coll) : State × Wrote :=
  let nodes := (c'.porch.filter fun e => !(c.porch.contains e)).map PorchEnt.node
  let cls := ((s.flight? j.fid).map Flight.cls).getD 7
  s.winWrite (key / 65536) cls (nodes.map fun n => c.defn.winParts.map fun p => (c.winAddr p n, c.defn.recSize p)).flatten

/-- Resolves one job: applied whole or not at all (R134). A job that would fill several shards counts on the die of the lowest-numbered
one (log 126, DESIGN CHOICE). -/
def State.resolveJob (s : State) (key : Nat) (j : StageJob) : State :=
  match tfind s.colls key with
  | none => s
  | some c =>
    match c.resolve j with
    | .error (st, full) =>
      let s := match full with
        | some k => s.bump (mortarReg (c.die k) 0x78)
        | none => s
      s.fixSt j.fid st
    | .ok (c', res) =>
      let q := s.insertWin key j c c'
      match q.2.stop with
      | some st => q.1.fixSt j.fid st
      | none => ((q.1.modColl key fun _ => c').degradeIf j.fid q.2.degraded).fixOk j.fid 0 res

/-- STAGING_SWEEP (R134): resolves the staging descriptors queued on the sweep, in admission order. -/
def execStagingSweep (wing handle : Nat) (s : State) : Host.Outcome State Fault Refusal :=
  work s (
    let key := objKey wing handle
    match tfind s.colls key with
    | none => s
    | some c =>
      if c.stage = [] then s
      else
        let n := sumNat (c.stage.map fun j => j.recs.length)
        let t := c.dies.foldl (fun (t : State) d => (t.bump (mortarReg d 0x68)).bumpBy (mortarReg d 0x70) n) s
        c.stage.foldl (fun t j => t.resolveJob key j) t)

/-! ## VERSION_PUBLISH, CSET_DISCARD, VERSION_RETIRE (R142 to R150) -/

/-- Whether a target beat is not above that of every publish of the collection that waits (R142). -/
def Coll.publishBehind (c : Coll) (beat : Nat) : Bool :=
  c.csets.any fun x => match x.2.switchS with
    | some b => decide (beat ≤ b)
    | none => false

/-- The first check of R142 that applies after the comparison with the latest version. -/
def State.publishRefusal (s : State) (f : Flight) (c : Coll) : Option Status :=
  match s.beatRefusal (f.u 24 8) with
  | some st => some st
  | none =>
    let late := match c.destroyS with
      | some d => c.st == .closing && decide (d ≤ f.u 24 8)
      | none => false
    if c.publishBehind (f.u 24 8) || late || decide (0xFFFFFFFF < f.u 20 4 + 1) then some .invalid else none

/-- A change set whose publish is accepted as a version: its entries and tombstones take their dates. -/
def Coll.published (c : Coll) (i ver beat : Nat) : Coll :=
  let date := fun (own : Nat) (d : Option Nat) => if own = i ∧ d.isNone then some ver else d
  { c.setCset i { c.cset i with st := .publishing, switchS := some beat } with
    latest := ver
    porch := c.porch.map fun e => { e with vis := date e.cset e.vis }
    tombs := c.tombs.map fun t => { t with del := date t.cset t.del } }

/-- VERSION_PUBLISH (R142, R143). -/
def State.publish (s : State) (f : Flight) (c : Coll) : State :=
  let i := f.u 16 1
  let base := f.u 20 4
  let x := c.cset i
  if x.st = .publishing ∨ (c.stage.any fun j => j.cset == i) then s.fixSt f.fid .busy
  else if x.st = .staging ∧ base ≠ x.base then s.fixSt f.fid .invalid
  else if base ≠ c.latest then
    (if x.st = .staging then s.emptyCset f.obj i else s).conflict f.fid c.latest
  else
    match s.publishRefusal f c with
    | some st => s.fixSt f.fid st
    | none =>
      let t := ((s.modColl f.obj fun c => c.published i (base + 1) (f.u 24 8)).schedule (f.u 24 8) (.version f.obj i (base + 1))).admitNow f.fid
      if c.defn.durable then t else t.fixOk f.fid 0 (base + 1)

def execVersionPublish (fid : Nat) (s : State) : Host.Outcome State Fault Refusal :=
  work s (match s.ready? fid 0x210 with
    | some f =>
      s.onColl f (fun _ => decide (f.u 16 1 ≤ 7) && f.zero [(17, 3), (32, 96)]) fun c => s.publish f c
    | none => s)

/-- CSET_DISCARD (R144). -/
def State.csetDiscard (s : State) (f : Flight) (c : Coll) : State :=
  if (c.cset (f.u 16 1)).st = .publishing then s.fixSt f.fid .busy
  else ((s.emptyCset f.obj (f.u 16 1)).admitNow f.fid).fixOk f.fid 0 0

def execCsetDiscard (fid : Nat) (s : State) : Host.Outcome State Fault Refusal :=
  work s (match s.ready? fid 0x211 with
    | some f => s.onColl f (fun _ => decide (f.u 16 1 ≤ 7) && f.zero [(17, 111)]) fun c => s.csetDiscard f c
    | none => s)

/-- Ends the requests pinned to versions of a collection that satisfy p (R151); answers how many. -/
def State.retire (s : State) (key : Nat) (p : Nat → Bool) : State × Nat :=
  let l := (s.pinned key).filter fun r => p r.version
  (l.foldl (fun s r => s.endReq r .versionGone none) s, l.length)

/-- VERSION_RETIRE (R150). -/
def State.versionRetire (s : State) (f : Flight) (c : Coll) : State :=
  let upto := f.u 20 4
  if c.version < upto then s.fixSt f.fid .invalid
  else
    let r := (s.admitNow f.fid).retire f.obj fun v => decide (v < upto)
    r.1.fixOk f.fid 0 (r.2 % 2 ^ 32)

def execVersionRetire (fid : Nat) (s : State) : Host.Outcome State Fault Refusal :=
  work s (match s.ready? fid 0x212 with
    | some f => s.onColl f (fun _ => f.zero [(16, 4), (24, 104)]) fun c => s.versionRetire f c
    | none => s)

/-- At a switch, the oldest versions go until four are retained (R149). -/
def State.keepFour (s : State) (key : Nat) : State :=
  match tfind s.colls key with
  | none => s
  | some c =>
    let l := s.retained key c
    let gone := l.take (l.length - 4)
    (s.retire key fun v => gone.contains v).1

/-- The switch beat of a publish (R143, R145). An event whose collection is gone finds no change set that waits for its beat. -/
def State.switchAt (s : State) (key i ver beat : Nat) : State :=
  match tfind s.colls key with
  | none => s
  | some c =>
    if (c.st = .active ∨ c.st = .closing) ∧ (c.cset i).switchS = some beat then (s.modColl key fun c => { c.setCset i {} with version := ver }).keepFour key else s

/-! ## Mortar (R152 to R155) -/

/-- Whether a die's Mortar engine is paused. -/
def State.mortarPaused (s : State) (die : Nat) : Bool := bit (s.reg (mortarReg die 0)) 0

/-- Elements that stand for a node in the encoding Mortar searches with (R153), not scaled in a COSINE collection
(log 124, DESIGN CHOICE). -/
def Coll.nodeVec (c : Coll) (n : Nat) : List Word32 :=
  let codes := if c.defn.sq4 then c.codes4 n else c.codes8 n
  codes.zipIdx.map fun p => codeVal (c.scale (if c.defn.sq4 then 2 else 1) p.2) p.1

/-- Score of node x against node m. -/
def Coll.between (c : Coll) (m x : Nat) : Word32 := c.score (!c.defn.sq4) (c.nodeVec m) x

/-- Candidates in the order of their scores against a node, ties to the lower index, without dead, free and repeated ones. -/
def Coll.ranked (c : Coll) (m : Nat) (l : List Nat) : List Nat :=
  let live := (l.foldl insertAsc []).filter fun x => x != m && !(c.tomb x) && !(c.codePoison (!c.defn.sq4) x)
  (sortBy beamBefore (live.map fun x => ({ score := c.between m x, node := x, expanded := false } : BeamEnt))).map BeamEnt.node

/-- Whether a candidate scores higher against node m than against every neighbour kept (R153). -/
def Coll.keepable (c : Coll) (m : Nat) (kept : List Nat) (x : Nat) : Bool :=
  kept.all fun k => ranksAbove (c.between m x) (c.between k x)

/-- R153: the selection of up to DEGREE neighbours of a node. -/
def Coll.select (c : Coll) (m : Nat) (l : List Nat) : List Nat :=
  (c.ranked m l).foldl (fun kept x =>
    if kept.length < degSlots c.defn.degree ∧ c.keepable m kept x = true then kept ++ [x] else kept) []

/-- Runs a merge search to its end; `fuel` bounds its expansions. -/
def ShardWork.build (e : QEnv) (o : ShardWork) : Nat → ShardWork
  | 0 => o
  | fuel + 1 => if o.q.ph = .expanding then (o.expand e).build e fuel else o

/-- A merge search with a beam, run to its end (R153). (log 55, DEDUCED) -/
def Coll.buildWork (c : Coll) (n beam : Nat) : ShardWork :=
  let r : Req := { fid := 0, opcode := 0, wing := 0, key := 0, cls := 7, version := c.version, k := beam, beam, beamMax := beam }
  let e : QEnv := { c, r, query := c.nodeVec n, sq8 := !c.defn.sq4, L := 1 }
  let q : ShardQ := { shard := n % c.defn.shards, die := 0, pipe := 0 }
  (({ q } : ShardWork).seed e).build e (c.defn.capacity + 1)

/-- The nodes that a merge search keeps. -/
def Coll.buildSearch (c : Coll) (n beam : Nat) : List Nat := (c.buildWork n beam).q.beam.map BeamEnt.node

/-- The nodes that a merge search scores. -/
def Coll.buildReads (c : Coll) (n beam : Nat) : List Nat := (c.buildWork n beam).reads.reverse

/-- Slots whose value differs between two adjacency records. -/
def slotChanges (a b : List Nat) : Nat := ((a.zip b).filter fun p => p.1 != p.2).length

/-- Whether the adjacency record of a node is poisoned. (log 56, DEDUCED) -/
def Coll.adjPoison (c : Coll) (n : Nat) : Bool := c.poisoned (c.key 6 n) (adjBytes c.defn.degree)

/-- Gives neighbour m a reverse edge to node n: a slot, or a new selection (R153); a poisoned record is rebuilt (R498). -/
def Coll.reverse (c : Coll) (n m : Nat) : Coll × Nat :=
  let before := c.slots m
  let nb := if c.adjPoison m then [] else c.neighbours m
  let l := if nb.contains n then nb else if nb.length < degSlots c.defn.degree then nb ++ [n] else c.select m (nb ++ [n])
  let c := c.setNeighbours m l
  (c, slotChanges before (c.slots m))

/-- The slots of a node before its merge: a record that was never loaded and that no merge has written counts as empty
(log 31, DEDUCED). -/
def Coll.slotsBefore (c : Coll) (n : Nat) : List Nat :=
  if c.edged.contains n || c.isLoaded 6 n then c.slots n else List.replicate (degSlots c.defn.degree) 0xFFFFFFFF

/-- Links a node into its shard's graph; answers with the slots whose value changed, forward and reverse (R153, Table 06-5). -/
def Coll.link (c : Coll) (n beam : Nat) : Coll × Nat :=
  if c.defn.degree = 0 then (c, 0)
  else
    let kept := c.select n (c.buildSearch n beam)
    let c1 := { c.setNeighbours n kept with edged := if c.edged.contains n then c.edged else c.edged ++ [n] }
    kept.foldl (fun acc m => let r := acc.1.reverse n m; (r.1, acc.2 + r.2)) (c1, slotChanges (c.slotsBefore n) (c1.slots n))

/-- The Porch entries of a die that may merge, in their order: ascending VIS, then node (R152). -/
def mergeBefore (a b : PorchEnt) : Bool :=
  decide (a.vis.getD 0 < b.vis.getD 0) || (a.vis == b.vis && decide (a.node < b.node))

/-- Entries of a shard eligible to merge, first to merge first (R152). (log 56, DEDUCED) -/
def State.mergeable (s : State) (key : Nat) (c : Coll) (shard : Nat) : List PorchEnt :=
  sortBy mergeBefore (c.porch.filter fun e => e.node % c.defn.shards == shard && match e.vis with
    | some v => decide (v ≤ s.oldest key c)
    | none => false)

/-- Nodes whose codes the linking of a node reads: its own, those its search scores, those of neighbours whose record is selected anew. -/
def Coll.linkReads (c : Coll) (n beam : Nat) : List Nat :=
  if c.defn.degree = 0 then []
  else
    let all := c.buildReads n beam
    let kept := c.select n (c.buildSearch n beam)
    n :: all ++ (kept.map fun m => if (c.neighbours m).length < degSlots c.defn.degree then [] else m :: c.neighbours m).flatten

/-- Mortar's reads of SQ8 codes that lie in the Cellar window (R93, log 33, DEDUCED). -/
def State.mortarReads (s : State) (key : Nat) (c : Coll) (l : List Nat) : State := if c.defn.sq4 then s else s.winTouch (key / 65536) 7 3 c l

/-- Cycles in which a die's Mortar engine worked (Table 06-5): at least one for a step of its work, how many more is free
(log 49, DESIGN CHOICE). -/
def State.mortarWork (s : State) (die : Nat) : State := (s.bumpBy (mortarReg die 0x80) (s.free + 1)).useFree

/-- Merges a Porch entry: linked, USED set, taken from the Porch (R152, R153). (log 31, DEDUCED) -/
def State.mergeEntry (s : State) (key : Nat) (c : Coll) (e : PorchEnt) : State :=
  let die := c.die (e.node % c.defn.shards)
  let beam := bits (s.reg (mortarReg die 0)) 26 16
  let r := c.link e.node beam
  let s := s.mortarReads key c (c.linkReads e.node beam)
  let ent := r.1.entry e.node
  let c := r.1.setEntry e.node (ent ||| 2 ^ 49)
  let c := { c with porch := c.porch.filter fun x => x.node != e.node }
  (((s.modColl key fun _ => c).bump (mortarReg die 0x40)).bumpBy (mortarReg die 0x48) r.2).mortarWork die

/-- MORTAR_MERGE (R152, R153): the entry whose turn it is. -/
def execMortarMerge (wing handle node : Nat) (s : State) : Host.Outcome State Fault Refusal :=
  work s (
    let key := objKey wing handle
    match tfind s.colls key with
    | none => s
    | some c =>
      let k := node % c.defn.shards
      match (s.mergeable key c k).find? fun e => !(c.poisoned (c.key 0 e.node) 8) with
      | some e => if e.node = node ∧ s.mortarPaused (c.die k) = false then s.mergeEntry key c e else s
      | none => s)

/-- MORTAR_TOMB_APPLY (R154). -/
def execMortarTombApply (wing handle node : Nat) (s : State) : Host.Outcome State Fault Refusal :=
  work s (
    let key := objKey wing handle
    match tfind s.colls key with
    | none => s
    | some c =>
      let die := c.die (node % c.defn.shards)
      let due := fun (t : Tomb) => t.node == node && match t.del with
        | some d => decide (d ≤ s.oldest key c)
        | none => false
      if s.mortarPaused die ∨ c.tombs.any due = false then s
      else
        let c' := c.setEntry node (c.entry node ||| 2 ^ 48)
        ((s.modColl key fun _ => { c' with tombs := c.tombs.filter fun t => !(due t) }).bump (mortarReg die 0x50)).mortarWork die)

/-- The live neighbour of a dead node that replaces it in node n's record (R154). -/
def Coll.substitute (c : Coll) (n dead : Nat) (kept : List Nat) : Option Nat :=
  (c.ranked n ((c.neighbours dead).filter c.used)).find? fun x => !(kept.contains x) && c.keepable n kept x

/-- Repairs one record: slots of dead nodes replaced or emptied, packed to the front, or a poisoned record rebuilt
(R498); answers with the slots it repaired (R154). -/
def Coll.repairNode (c : Coll) (beam n : Nat) : Coll × Nat :=
  if c.adjPoison n then (c.setNeighbours n (c.select n (c.buildSearch n beam)), 0)
  else
    let nb := c.neighbours n
    let live := nb.filter fun x => !(c.tomb x)
    let r := nb.foldl (fun (acc : List Nat × List Nat) x =>
      if c.tomb x then
        match c.substitute n x (live ++ acc.2) with
        | some y => (acc.1 ++ [y], acc.2 ++ [y])
        | none => acc
      else (acc.1 ++ [x], acc.2)) ([], [])
    let dead := nb.length - live.length
    if dead = 0 then (c, 0) else (c.setNeighbours n r.1, dead)

/-- The best live neighbour that replaces a dead entry-list node (R154). -/
def Coll.entryFor (c : Coll) (list : List Nat) (dead : Nat) : Nat :=
  match (c.ranked dead ((c.neighbours dead).filter fun x => c.used x && !(list.contains x))).head? with
  | some y => y
  | none => dead

/-- Repairs the entry list of a shard. -/
def Coll.repairEntries (c : Coll) (shard : Nat) : Coll :=
  (List.range (c.entries shard).length).foldl (fun (c : Coll) i =>
    let l := c.entries shard
    let x := l.getD i 0
    if c.tomb x then { c with mem := putBytes c.mem (entryKey shard + 4 * i) (natLe (c.entryFor l x) 4) } else c) c

/-- Dead nodes of a shard that become free when a repair sweep ends (R154). -/
def Coll.freeable (c : Coll) (shard : Nat) : List Nat :=
  (c.usedIn shard).filter fun n => c.tomb n && !((c.entries shard).contains n) && !(c.poisoned (c.key 0 n) 8)

/-- A whole repair sweep of a shard; answers with the slots repaired and the nodes freed. (log 56, DEDUCED) -/
def Coll.repair (c : Coll) (beam shard : Nat) : Coll × Nat × Nat :=
  let r := (if c.defn.degree = 0 then [] else c.usedIn shard).foldl (fun (acc : Coll × Nat) n =>
    let x := acc.1.repairNode beam n
    (x.1, acc.2 + x.2)) (c, 0)
  let c1 := if c.defn.degree = 0 then r.1 else r.1.repairEntries shard
  let l := c1.freeable shard
  (l.foldl (fun (c : Coll) n => c.setEntry n (c.vid n)) c1, r.2, l.length)

/-- Nodes whose codes a repair sweep reads: of each record it changes, the node and what it may put there. -/
def Coll.repairReads (c : Coll) (beam shard : Nat) : List Nat :=
  if c.defn.degree = 0 then []
  else
    ((c.usedIn shard).map fun n =>
      if c.adjPoison n then n :: c.buildReads n beam
      else
        let dead := (c.neighbours n).filter c.tomb
        if dead = [] then [] else n :: c.neighbours n ++ (dead.map c.neighbours).flatten).flatten

/-- MORTAR_REPAIR_SWEEP (R154). -/
def execMortarRepairSweep (wing handle shard : Nat) (s : State) : Host.Outcome State Fault Refusal :=
  work s (
    let key := objKey wing handle
    match tfind s.colls key with
    | none => s
    | some c =>
      let die := c.die shard
      if shard ≥ c.defn.shards ∨ s.mortarPaused die ∨ (c.st ≠ .active ∧ c.st ≠ .closing) then s
      else
        let beam := bits (s.reg (mortarReg die 0)) 26 16
        let r := c.repair beam shard
        ((((s.mortarReads key c (c.repairReads beam shard)).modColl key fun _ => r.1).bumpBy (mortarReg die 0x58) r.2.1).bumpBy (mortarReg die 0x60)
          r.2.2).mortarWork die)

/-- MORTAR_PAUSE (R155): a write of MORTAR_CTRL.PAUSE by the set-up device. -/
def execMortarPause (src die : Nat) (on : Bool) (s : State) : Host.Outcome State Fault Refusal :=
  .next (match s.setupRefused src with
    | some t => t
    | none => if die < 4 then s.setReg (mortarReg die 0) (setBits (s.reg (mortarReg die 0)) 0 0 (b2n on)) else s)

end Sys2Proof.Machine
end

