-- ==== Sys2Proof/Machine/Beat.lean ====
section
/-!
DEFINITION. The beat receiver and the beat number (02): edges and the acceptance window, generated boundaries, the boundary itself with the
events that fire there, offers and announces. Times are in units of 1/24 ns: a cycle is 16, P is 24 for each nanosecond.
-/
namespace Sys2Proof.Machine
open Sys2Proof

/-- The start of this cycle. -/
def State.cycT (s : State) : Nat := 16 * s.cyc

/-- P, and P/8. -/
def Beat.period (b : Beat) : Nat := 24 * b.periodNs
def Beat.slack (b : Beat) : Nat := 3 * b.periodNs

/-- Whether a time lies within P/8 of another. -/
def Beat.near (b : Beat) (t x : Nat) : Bool := decide (x ≤ t + b.slack) && decide (t ≤ x + b.slack)

/-- The end of the acceptance window, E + P/8 (R32). -/
def Beat.windowEnd (b : Beat) : Nat := b.refT + b.period + b.slack

/-- A boundary with a reference time: its cycle is the one that holds that time, plus 96 (R28). -/
def Beat.boundaryAt (b : Beat) (t : Nat) (relock : Bool) : Beat :=
  { b with refT := t, pend := b.pend ++ [{ due := t / 16 + 96, relock }] }

/-- An edge that is not qualified, or comes in FREE, starts a qualification as its first edge (R33). -/
def Beat.firstEdge (b : Beat) (t : Nat) : Beat := { b with rx := .reacq, prevEdge := t, qual := 0 }

/-- An edge in REACQ (R33): the fifth qualified one becomes a boundary. -/
def Beat.reacqEdge (b : Beat) (t : Nat) : Beat :=
  if !(b.near t (b.prevEdge + b.period)) then b.firstEdge t
  else if b.qual < 4 then { b with prevEdge := t, qual := b.qual + 1 }
  else { b with rx := .locked, prevEdge := t, qual := 0 }.boundaryAt t true

/-- The loss of the pulse at the end of the acceptance window: a generated boundary there, and FREE (R32). -/
def State.losePulse (s : State) : State :=
  ({ s with beat := { s.beat.boundaryAt s.beat.windowEnd false with rx := .free, lost := true } }.markSet 0x88).bump 0xC8

/-- BEAT_EDGE (R28, R32, R33, R35): an edge shown by the synchroniser in this cycle. One that comes when the window has ended finds the
receiver in FREE. (log 109, DEDUCED) -/
def execBeatEdge (s : State) : Host.Outcome State Fault Refusal :=
  let b := s.beat
  .next (if s.power.rails ≠ .good then s
    else match b.rx with
      | .free => { s with beat := b.firstEdge s.cycT }
      | .reacq => { s with beat := b.reacqEdge s.cycT }
      | .locked =>
        if b.near s.cycT (b.refT + b.period) then { s with beat := b.boundaryAt s.cycT false }
        else if b.windowEnd < s.cycT then { s.losePulse with beat := s.losePulse.beat.firstEdge s.cycT }
        else s.bump 0xC0)

/-- BEAT_WINDOW_CLOSE (R32, R35): the cycle of the window's end has passed with no edge in it. (log 118, DEDUCED) -/
def execBeatWindowClose (s : State) : Host.Outcome State Fault Refusal :=
  let b := s.beat
  .next (if s.power.rails = .good ∧ b.rx = .locked ∧ b.windowEnd < s.cycT then s.losePulse else s)

/-- BEAT_GENERATED_BOUNDARY (R524): P after the last reference time, in FREE and REACQ. -/
def execBeatGeneratedBoundary (s : State) : Host.Outcome State Fault Refusal :=
  let b := s.beat
  .next (if s.power.rails = .good ∧ b.rx ≠ .locked ∧ b.refT + b.period < s.cycT + 16 then
      { s with beat := b.boundaryAt (b.refT + b.period) false }
    else s)

/-! ## The beat number (R36 to R39) -/

/-- Whether an offer was received after another, or in the same cycle behind it. -/
def laterOffer (a b : Offer) : Bool := decide (a.cyc < b.cyc) || (a.cyc == b.cyc && decide (a.port ≤ b.port))

/-- The offered number for a boundary: the last one received before its cycle (R36, R520). -/
def Beat.offered (b : Beat) (due : Nat) : Option Offer :=
  (b.offers.filter fun o => decide (o.cyc < due)).foldl (fun best o => match best with
    | some x => if laterOffer x o then some o else some x
    | none => some o) none

/-- R37: adopt. -/
def Beat.adopt (b : Beat) (n : Nat) : Beat :=
  match b.number with
  | none => { b with number := some n, held := 0, unconf := false }
  | some c => if c < n then { b with number := some n, held := 0, unconf := false } else { b with held := c - n, unconf := false }

/-- R37: advance. -/
def Beat.advance (b : Beat) : Beat :=
  match b.number with
  | none => b
  | some c => if 0 < b.held then { b with held := b.held - 1 } else { b with number := some (c + 1) }

/-- Whether the offer of a boundary is adopted (R37). -/
def Beat.adopts (b : Beat) (o : Offer) (relock : Bool) : Bool := b.number.isNone || b.unconf || relock || o.port == 6

/-- The number a boundary is expected to bring. -/
def Beat.expected (b : Beat) : Nat := b.number.getD 0 + 1 - b.held

/-- What a boundary does to the number (R37, R39); the result says whether an offer was ignored. -/
def Beat.count (b : Beat) (offer : Option Offer) (relock : Bool) : Beat × Bool :=
  match offer with
  | some o => if b.adopts o relock then (b.adopt o.n, false) else (b.advance, o.n != b.expected)
  | none => ({ b.advance with unconf := b.unconf || (relock && b.number.isSome) }, false)

/-! ## Events at a boundary (R42, R43, Table 02-2) -/

/-- Place of an event in Table 02-2. Destroys come before other collection events of their beat (R67); a program start comes with the slices.
(log 109, DEDUCED) -/
def SchedKind.order : SchedKind → Nat
  | .profile _ => 10
  | .handover _ => 20
  | .destroyColl _ => 30
  | .version _ _ _ => 31
  | .openColl _ => 31
  | .migrate _ => 40
  | .pantry _ => 50
  | .progStart _ => 60

/-- One event takes effect at its beat. -/
def State.fireEvent (s : State) (n : Nat) : SchedKind → State
  | .profile p => s.profileAt p
  | .handover fid => s.handoverAt fid
  | .version key i ver => s.switchAt key i ver n
  | .openColl key => s.openAt key n
  | .destroyColl key => s.destroyAt key
  | .migrate fid => s.migSwitch fid
  | .pantry key => s.modEmb key fun e => e.applySet n
  | .progStart key => s.progBeat key n

/-- Whether one of the beats lo to hi is a refresh beat of a table (R332). -/
def Emb.refreshIn (e : Emb) (lo hi : Nat) : Bool :=
  match e.pantryFrom with
  | some b => decide ((if lo ≤ b then b else b + cdiv (lo - b) e.period * e.period) ≤ hi)
  | none => false

/-- The Pantry refreshes of beats lo to hi. -/
def State.refreshSpan (s : State) (lo hi : Nat) : State :=
  if hi < lo then s else s.embs.foldl (fun s e => if e.2.refreshIn lo hi then s.pantryRefresh e.1 else s) s

/-- The earliest beat with an event due by beat hi. -/
def Beat.nextEvent (b : Beat) (hi : Nat) : Option Nat :=
  ((b.sched.filter fun e => decide (e.beat ≤ hi)).map Sched.beat).foldl (fun (best : Option Nat) n => match best with
    | some x => some (min x n)
    | none => some n) none

/-- The events of one beat, in the order of Table 02-2 and of acceptance. (log 109, DEDUCED) -/
def State.fireBeat (s : State) (n : Nat) : State :=
  let l := s.beat.sched.filter fun e => e.beat == n
  let s := { s with beat := { s.beat with sched := s.beat.sched.filter fun e => e.beat != n } }
  (sortBy (fun (a b : Sched) => decide (a.kind.order < b.kind.order)) l).foldl (fun s e => s.fireEvent n e.kind) s

/-- The events of beats lo to hi, in ascending beat number (R43); `fuel` bounds the beats that have one. -/
def State.fireBeats (s : State) (lo hi : Nat) : Nat → State
  | 0 => s.refreshSpan lo hi
  | fuel + 1 =>
    match s.beat.nextEvent hi with
    | none => s.refreshSpan lo hi
    | some n => ((s.refreshSpan lo (n - 1)).fireBeat n).fireBeats n hi fuel

/-- What a new beat number brings; nothing when the number stays (R38). -/
def State.newNumber (s : State) (old : Option Nat) : State :=
  match s.beat.number with
  | none => s
  | some n =>
    let lo := match old with
      | some c => c + 1
      | none => n
    if n < lo then s else (s.fireBeats lo n (s.beat.sched.length + 1)).retryRows

/-! ## The boundary (R28 to R30, R276, R456) -/

/-- The record of the beat that ends: what each wing did, mean input power, the load rings of the tables. -/
def State.closeBeat (s : State) (due : Nat) : State :=
  let last := (List.range 16).foldl (fun (t : Tab WingBeat) w =>
    tset {} t w { tget {} s.wingNow w with inFlight := (s.wingFlights w).length }) []
  let p := s.power
  let mean := if p.pinN = 0 then p.pin else p.pinSum / p.pinN
  { s with
    wingLast := last, wingNow := [], power := { p with pinMean := mean, pinSum := 0, pinN := 0 }
    beat := { s.beat with
      posBase := due, beats := s.beat.beats + 1, announced := false, healthSent := [], ended := s.beatNum
      periodNs := bits (s.reg 0x80) 23 0 } }

/-- The load rings turn to the beat that begins (R338). (log 109, DEDUCED) -/
def State.turnLoads (s : State) (ended : Nat) : State :=
  { s with embs := s.embs.map fun (e : Nat × Emb) => (e.1, e.2.turnBeat ended s.beatNum) }

/-- The receiver and the number as they were before events fired: events change scheduled events only. -/
def State.keepBeat (s t : State) : State := { t with beat := { s.beat with sched := t.beat.sched } }

/-- One boundary: the beat ends, the number is adopted or advanced, its events fire, time slices end. (log 109, DEDUCED) -/
def State.boundary (s : State) (x : PendBoundary) : State :=
  let old := s.beat.number
  let was := s.beatNum
  let offer := s.beat.offered x.due
  let s := s.closeBeat x.due
  let r := s.beat.count offer x.relock
  let s := { s with beat := { r.1 with
    kept := old.isSome && r.1.number == old, offers := r.1.offers.filter fun o => !(decide (o.cyc < x.due)) } }
  let s := if r.2 then s.bump 0xD0 else s
  s.keepBeat (((s.turnLoads was).newNumber old).sliceBoundary)

/-- BEAT_BOUNDARY (R28, R37): the cycle of the oldest boundary has come. -/
def execBeatBoundary (s : State) : Host.Outcome State Fault Refusal :=
  .next (match s.beat.pend with
    | x :: rest =>
      if s.power.rails = .good ∧ x.due ≤ s.cyc then { s with beat := { s.beat with pend := rest } }.boundary x else s
    | [] => s)

/-! ## Registers and announces (R30, R36, R40) -/

/-- BEAT_NEXT_WRITE (R36). -/
def execBeatNextWrite (src val : Nat) (s : State) : Host.Outcome State Fault Refusal :=
  .next (match s.setupRefused src with
    | some t => t
    | none => s.offer (val % 2 ^ 64) 6)

/-- A write of `BEAT_CFG` (R30). -/
def State.writeBeatCfg (s : State) (src val : Nat) : State :=
  if 10000 ≤ bits val 23 0 ∧ bits val 23 0 ≤ 10000000 then s.setReg 0x80 val else s.lockVio src 0x80

/-- BEAT_CFG_WRITE. -/
def execBeatCfgWrite (src val : Nat) (s : State) : Host.Outcome State Fault Refusal :=
  .next (match s.setupRefused src with
    | some t => t
    | none => s.writeBeatCfg src val)

/-- Sends the announce of a beat on every port of ANN_TX whose link is up. (log 109, DEDUCED) -/
def State.announce (s : State) (c : Nat) : State :=
  ((List.range 6).filter fun p => bit (s.reg 0x80) (32 + p) && (s.bp p).link == .up).foldl
    (fun s p => s.sendFrame p { blankFrame with typ := 0x10, chan := 9, args := argsOf (natLe (c + 1) 8) }) s

/-- BEAT_ANNOUNCE_SEND (R40): once in each beat whose number is set and not held, when `BEAT_POS` has reached half of P. -/
def execBeatAnnounceSend (s : State) : Host.Outcome State Fault Refusal :=
  .next (match s.beat.number with
    | some c =>
      if s.beat.kept = false ∧ s.beat.announced = false ∧ s.err.fatal = false ∧ s.beat.period ≤ 2 * 16 * s.beatPos then
        let t := s.within (s.announce c)
        { t with beat := { t.beat with announced := true } }
      else s
    | none => s)

end Sys2Proof.Machine
end

