-- ==== Sys2Proof/Machine/Err.lean ====
section
/-!
DEFINITION. Errors and recovery (21): injection, patrol scrub, the fatal stop, recovery of compute stacks and Cellar channels, the error ring
of a wing.
-/
namespace Sys2Proof.Machine
open Sys2Proof

/-! ## Injection and error rings (R500, R507, R508) -/

/-- A write of `ERR_INJECT` (Table 21-10): KIND and WING are locked and ARM is discarded once set-up is closed; KIND 3 is out of range.
(log 112, DEDUCED) -/
def State.writeInject (s : State) (src val : Nat) : State :=
  let kept := val &&& 0xF03
  if s.boot.setupClosed then (if kept = s.reg 0x2020 then s else s.lockVio src 0x2020)
  else if bits val 1 0 = 3 then s.lockVio src 0x2020
  else
    let s := s.setReg 0x2020 kept
    if bit val 2 then { s with err := { s.err with armed := true } } else s

/-- ERR_INJECT_ARM (R507). -/
def execErrInjectArm (src val : Nat) (s : State) : Host.Outcome State Fault Refusal :=
  match s.setupRefused src with
  | some t => .next t
  | none => .next (s.writeInject src val)

/-- A write of `WNG_ERR_CFG` (R500, R508): SIZE_LOG2 is 6 to 12 and stands while EN is 1; EN needs a port granted the wing, and puts HEAD
and TAIL at 0. -/
def State.writeErrCfg (s : State) (src w val : Nat) : State :=
  let off := wngReg w 0x3808
  let old := s.errCfg w
  let lg := bits val 3 0
  let starts := bit val 4 && !(bit old 4)
  if lg < 6 ∨ 12 < lg ∨ (bit old 4 = true ∧ lg ≠ bits old 3 0) ∨ (starts = true ∧ s.granted (bits val 10 8) w = false) then s.lockVio src off
  else
    let s := s.setReg off val
    if starts then { s.setReg (wngReg w 0x3810) 0 with errRings := tset {} s.errRings w {} } else s

/-- WNG_ERR_ENABLE (R500). -/
def execWngErrEnable (src wing val : Nat) (s : State) : Host.Outcome State Fault Refusal :=
  match s.wingRefused src wing 0x3808 with
  | some t => .next t
  | none => .next (s.writeErrCfg src wing val)

/-! ## The fatal stop (R496) -/

/-- What stops with the module: pipelines, bricks, compute stacks, Bruvia ports. (log 106, DEDUCED) -/
def State.unitsStop (s : State) : State :=
  let bps := s.bps.map fun (e : Nat × BpSt) => (e.1, { e.2 with txq := [], reqs := [], deferred := [] })
  { s with reqs := [], stkOps := [], regionJobs := [], unitQ := [], sliceEnd := [], transit := [], accesses := [], embJobs := []
           embFrames := [], bps }

/-- Requests of CXL.mem that wait when the module stops are answered as later ones are. (log 106, DEDUCED) -/
def State.answerAll (s : State) : State :=
  let waiting := s.memWaits ++ (s.ports.map fun e => e.2.queue).flatten
  let ports := s.ports.map fun (e : Nat × Port) => (e.1, { e.2 with queue := [] })
  waiting.foldl State.answerNone { s with memWaits := [], ports }

/-- The stop itself: every descriptor that is not complete ends with ABORTED, the Cellar writes what a flush writes, each wing gets a record.
(log 106, DEDUCED) -/
def State.fatalNow (s : State) (cause : Nat) : State :=
  let s := { s with err := { s.err with fatal := true, fatalCause := cause } }
  let s := s.abortFlights ((s.flights.filter fun f => f.phase != .done).map Flight.fid)
  let s : State := s.unitsStop.answerAll
  let s := if s.cellar.st = .mounting then s else s.flushCellar 0
  let s := s.event 0x0D 0
  (List.range 16).foldl (fun s w => s.wingRecord w 9 4 0 0 0 []) s

/-- FATAL_STOP: FATAL_CAUSE is 1 bond, 2 hub memory or 3 directory. -/
def execFatalStop (cause : Nat) (s : State) : Host.Outcome State Fault Refusal :=
  work s (if s.power.rails = .good ∧ s.err.fatal = false ∧ 1 ≤ cause ∧ cause ≤ 3 then s.fatalNow cause else s)

/-! ## Patrol scrub (R495) -/

/-- A Floor line of a stack was read by the scrub, and corrected. (log 107, DEDUCED) -/
def State.scrubbed (s : State) (stack : Nat) (ecc : LineEcc) : State :=
  let s := (s.bump 0x2050).bump (stkReg stack 0x50)
  match ecc with
  | .clean => s
  | .corrected => (s.bump 0x2040).bump (stkReg stack 0x40)
  | .uncorrectable => (s.bump 0x2048).bump (stkReg stack 0x48)

/-- Whether some regions hold an open one: those lines are not scrubbed. -/
def State.anyOpen (s : State) (l : List Nat) : Bool := l.any fun k => (s.region k).st == .opened

/-- A line of an internal page is poisoned and recorded to its wing (R502). -/
def State.noteRecord (s : State) (w : Nat) (n : Note) : State := s.wingRecord w 1 1 n.addr n.kind n.unit n.detail

/-- A line of a tier range, when its page lies in Floor and in no open region. (log 107, DEDUCED) -/
def State.scrubRange (s : State) (w a : Nat) (ecc : LineEcc) : State :=
  let p := a / pageSize
  let isOpen := match s.pageRegion w p with
    | some k => s.anyOpen [k]
    | none => false
  if (s.page w p).resident = false ∨ (s.rangeAt w p).isNone = true ∨ isOpen = true then s
  else
    let s := s.scrubbed (s.page w p).stack ecc
    if ecc = .uncorrectable then (s.poisonLine w (a / 64 * 64)).lineRecord w a else s

/-- A line of a collection. (log 107, DEDUCED) -/
def State.scrubColl (s : State) (w handle line : Nat) (ecc : LineEcc) : State :=
  let key := w * 65536 + handle
  match tfind s.colls key with
  | none => s
  | some c =>
    let part := 64 * line / 2 ^ 48
    let at_ := s.page w (c.winAddr part (64 * line % 2 ^ 48 / c.defn.recSize part) / pageSize)
    if s.anyOpen (c.partRegions part) || (c.defn.inCellar part && !at_.resident) then s
    else
      let n := c.noteAt handle (64 * line)
      let n := if c.defn.inCellar part then { n with unit := at_.stack } else n
      let s := s.scrubbed n.unit ecc
      if ecc = .uncorrectable then (s.modColl key fun c => { c with bad := insertNew c.bad line }).noteRecord w n else s

/-- A line of a KV session. -/
def State.scrubSess (s : State) (w handle line : Nat) (ecc : LineEcc) : State :=
  let key := w * 65536 + handle
  match tfind s.sessions key with
  | none => s
  | some e =>
    let n := e.noteAt handle line
    let s := s.scrubbed n.unit ecc
    if ecc = .uncorrectable then (s.modSess key fun e => { e with bad := insertNew e.bad line }).noteRecord w n else s

/-- A line of an embedding table. -/
def State.scrubEmb (s : State) (w handle line : Nat) (ecc : LineEcc) : State :=
  let key := w * 65536 + handle
  match tfind s.embs key with
  | none => s
  | some e =>
    if s.anyOpen e.regions then s
    else
      let n := e.noteAt handle (64 * line / e.rb)
      let s := s.scrubbed n.unit ecc
      if ecc = .uncorrectable then (s.modEmb key fun e => { e with bad := insertNew e.bad line }).noteRecord w n else s

/-- A line of a brick store: uncorrectable, it halts its brick with fault POISON; the engine and the address of a line that no engine read
are free (log 21, DESIGN CHOICE). -/
def State.scrubStore (s : State) (b addr : Nat) (ecc : LineEcc) : State :=
  let s := s.bump 0x2050
  if ecc = .uncorrectable then
    let br := s.brick b
    let s := (s.setBrick b { br with bad := insertNew br.bad (addr / 64) }).bump 0x2058
    if br.st = .running then (s.useFree.useFree).brickFault b (s.free % 5) (Config.freeNat (s.fresh + 1) % 2 ^ 23) fPoison else s
  else s

/-- PATROL_SCRUB (R495). An uncorrectable line of the hub memory stops the module (Table 21-1). (log 107, DEDUCED) -/
def State.patrol (s : State) (line : ScrubLine) (ecc : LineEcc) : State :=
  match line with
  | .range w a => s.scrubRange w a ecc
  | .coll w h l => s.scrubColl w h l ecc
  | .sess w h l => s.scrubSess w h l ecc
  | .emb w h l => s.scrubEmb w h l ecc
  | .internal st => s.scrubbed st ecc
  | .store b a => s.scrubStore b a ecc
  | .hub =>
    let s := s.bump 0x2050
    if ecc = .uncorrectable then s.fatalNow 2 else s

def execPatrolScrub (line : ScrubLine) (ecc : LineEcc) (s : State) : Host.Outcome State Fault Refusal :=
  work s (if s.power.rails = .good ∧ s.err.fatal = false then s.patrol line ecc else s)

/-! ## Recovery (R504 to R507) -/

/-- Whether a recovery is started by its register or by a running Housekeeper; a register write that goes no further. -/
def State.recoverRefused (s : State) (src : Nat) (byHk : Bool) : Option State :=
  if byHk then
    (if s.boot.hkImage.isSome = true ∧ s.power.rails = .good ∧ s.err.fatal = false then none else some s)
  else s.setupRefused src

/-- Where a page handed to a stack waits: request, search, shard. -/
def State.handedAt (s : State) (id : Nat) : Option (Nat × Nat × Nat) :=
  s.reqs.findSome? fun r => r.searches.zipIdx.findSome? fun x =>
    (x.1.shards.findIdx? fun q => match q.handed with
      | some h => h.1 == id
      | none => false).map fun k => (r.fid, x.2, k)

/-- A handoff that the stack gives up: Score scans the page (R315, R505). -/
def State.handoffLost (s : State) (o : StkOp) : State :=
  match s.handedAt o.id with
  | none => s
  | some (fid, i, k) =>
    match s.shardOf fid i k with
    | some (r, x, q) =>
      match q.handed, s.reqColl r with
      | some (_, page), some c =>
        s.applyShard r c i k q (({ q := { q with handed := none } } : ShardWork).scanned (envOf c r x) page false)
      | _, _ => s
    | none => s

/-- A recovered stack gives an operation up: its descriptor completes with ABORTED. (log 108, DEDUCED) -/
def State.giveUpOp (s : State) (o : StkOp) : State :=
  let s := s.dropOps fun x => x.id == o.id
  if o.opcode = 0 then s.handoffLost o
  else match o.fid, o.ask with
    | some fid, _ => s.fixSt fid .aborted
    | none, some (p, q) => s.refuse p q .aborted
    | none, none => s

/-- Refreshes owed by a stack's bank units. -/
def State.owedRefreshes (s : State) (i : Nat) : Nat :=
  ((s.debt.filter fun e => e.1 / 64 == i).map Prod.snd).foldl (· + ·) 0

/-- The recovery of a compute stack (R505). (log 108, DEDUCED) -/
def State.recoverStack (s : State) (stack : Nat) : State :=
  let i := stack / 3
  let ops := s.stkQueue i
  let lost := ops.filter fun o => o.opcode != 0
  let s := ops.foldl State.giveUpOp s
  let s := s.bumpBy (stkReg stack 0x10A8) (s.owedRefreshes i)
  let s := { s with
    unitQ := s.unitQ.filter fun e => e.1 / 64 != i
    sliceEnd := s.sliceEnd.filter fun e => e.1 / 64 != i
    debt := s.debt.filter fun e => e.1 / 64 != i
    err := { s.err with lastResult := 1 } }
  let s := (List.range 16).foldl (fun s w =>
    let n := (lost.filter fun o => o.wing == w).length
    if n = 0 then s else s.wingRecord w 7 2 0 4 stack (natLe n 4)) s
  (s.event 0x0A stack).bump 0x2070

/-- STACK_RECOVER (R505, R507). -/
def execStackRecover (src stack : Nat) (byHousekeeper : Bool) (s : State) : Host.Outcome State Fault Refusal :=
  match s.recoverRefused src byHousekeeper with
  | some t => .next t
  | none =>
    if s.err.busy.isSome = true ∨ isCompute stack = false then .next (if byHousekeeper then s else s.lockVio src 0x2010)
    else work s (s.recoverStack stack)

/-- An operation in progress on a channel is tried again later (R506). -/
def FlashOp.again (o : FlashOp) : FlashOp := { o with running := false, suspended := false }

/-- Accesses that wait on operations of a channel. -/
def State.chanAccesses (s : State) (ch : Nat) : List Access :=
  let ops := s.cellar.ops.filter fun o => o.block.isSome && o.chan == ch
  s.accesses.filter fun a => !a.stalled && s.winWaits a && ops.any a.waitsOn

/-- The recovery of a Cellar channel begins: nothing is issued to it, accesses that wait on it stall under RETRY (R506).
(log 108, DEDUCED) -/
def State.recoverChannel (s : State) (ch : Nat) : State :=
  let s := (s.chanAccesses ch).foldl (fun s a => s.stallAccess a 4) s
  let s := s.cel fun c =>
    { c with chanDown := insertNew c.chanDown ch
             ops := c.ops.map fun o => if o.block.isSome ∧ o.chan = ch then o.again else o }
  { ((s.event 0x0B ch).bump 0x2078) with err := { s.err with busy := some (2, ch) } }

/-- CHANNEL_RECOVER (R506, R507). -/
def execChannelRecover (src channel : Nat) (byHousekeeper : Bool) (s : State) : Host.Outcome State Fault Refusal :=
  match s.recoverRefused src byHousekeeper with
  | some t => .next t
  | none =>
    if s.err.busy.isSome = true ∨ 32 ≤ channel then .next (if byHousekeeper then s else s.lockVio src 0x2010)
    else work s (s.recoverChannel channel)

/-- Wings with Cellar data on a channel (Table 21-4). -/
def State.wingsOn (s : State) (ch : Nat) : List Nat :=
  (List.range 16).filter fun w => s.cellar.map.any fun e => e.1 / 2 ^ 38 == w && blockChan (puBlock e.2) == ch

/-- A channel goes offline: fresh blocks come from others, so programs queued on it take new places (R506). -/
def State.chanLost (s : State) (ch : Nat) : State :=
  let s := s.cel fun c =>
    { c with chanOff := insertNew c.chanOff ch
             ops := c.ops.map fun o => if o.block.isSome ∧ o.chan = ch ∧ o.use.isRead = false ∧ o.use.isErase = false then o.displaced else o }
  let s := (s.cel Cellar.placeWaiting).event 0x0C ch
  (s.wingsOn ch).foldl (fun s w => s.wingRecord w 8 2 0 2 ch []) s

/-- CHANNEL_TRAIN_DONE (R506): training at 3,600 MT/s ends. (log 108, DEDUCED) -/
def execChannelTrainDone (channel : Nat) (ok : Bool) (s : State) : Host.Outcome State Fault Refusal :=
  work s (
    if s.cellar.chanDown.contains channel = false ∨ s.err.fatal = true then s
    else
      let s := s.cel fun c => { c with chanDown := c.chanDown.filter fun x => x != channel }
      let s := { s with err := { s.err with busy := none, lastResult := if ok then 1 else 2 } }
      if ok then s.cel fun c => { c with chanOff := c.chanOff.filter fun x => x != channel }
      else s.chanLost channel)

end Sys2Proof.Machine
end

