-- ==== Sys2Proof/Machine/View.lean ====
section
/-!
DEFINITION. What registers read as: the fields that show state kept elsewhere, block by block, with the stored fields and the snapshots of
counters. WO registers and W1S bits read 0.
-/
namespace Sys2Proof.Machine
open Sys2Proof

/-- Bits from flags: bit i for the i-th. -/
def flagBits (l : List Bool) : Nat := sumNat (l.zipIdx.map fun x => if x.1 then 2 ^ x.2 else 0)

/-- Bit 0 of an enable register: EN as it was last written. -/
def EnState.en (x : EnState) : Nat := if x = .enabled ∨ x = .enablePending then 1 else 0

/-! ## Global block (Tables 22-3 to 22-16) -/

/-- The module's identity: SHA3-256 of its public key (R488). -/
def moduleId : Nat := Config.sha3 Config.publicKey

/-- `BEAT_STAT` (Table 22-16). -/
def Beat.stat (b : Beat) : Nat :=
  b.rx.code + 4 * b2n b.lost + 8 * b2n b.kept + 16 * b2n b.unconf + 32 * b2n b.number.isSome

/-- `START_STAT` (Table 22-11). -/
def Boot.stat (b : Boot) : Nat := b.phase + 16 * b2n b.noImage + 32 * b2n b.fail + 256 * b.failPhase

/-- `PROF_STAT` (Table 22-14). -/
def Boot.profView (b : Boot) : Nat :=
  b.profStat + 256 * b.profile + 1024 * ((b.profTarget.map Prod.fst).getD 0) + 4096 * b2n b.profTarget.isSome

def State.viewGlob (s : State) (o : Nat) : Nat :=
  if o = 0 then 0xE520 + Config.stepping % 256 * 2 ^ 16 + imageVersion s.boot.hkImage * 2 ^ 32
  else if o = 8 then 16 + 8 * 2 ^ 8 + 8 * 2 ^ 16 + 6 * 2 ^ 24 + 32 * 2 ^ 32 + 12 * 2 ^ 40 + 4 * 2 ^ 48
  else if o = 0x10 then 2 * b2n s.boot.setupClosed
  else if o = 0x18 then s.reg 0x18
  else if o = 0x20 then s.boot.stat
  else if o = 0x28 then 2 * b2n s.boot.rstPending
  else if o = 0x40 then s.boot.profView
  else if o = 0x80 then s.reg 0x80
  else if o = 0x88 then s.beat.stat
  else if o = 0x90 then s.beatNum
  else if o = 0xA0 then s.beatPos
  else if o = 0xA8 then s.cyc
  else if 0x100 ≤ o then moduleId / 2 ^ (64 * ((o - 0x100) / 8)) % 2 ^ 64
  else 0

/-! ## Module, Error, Tier, Cellar, Text and Host link blocks -/

/-- A temperature in units of 0.1 degree, signed, in 16 bits: the hottest of some sensors. -/
def Power.hottest (p : Power) (keys : List Nat) : Nat := (((keys.map fun k => tget 1000 p.temps k).foldl max 0) + 2 ^ 16 - 1000) % 2 ^ 16

/-- `MOD_PWR_STAT` (Table 19-11). -/
def Power.stat (p : Power) : Nat :=
  p.vin + p.pin * 2 ^ 16 + p.bankJ * 2 ^ 32 + b2n p.bankOk * 2 ^ 42 + b2n p.bankLow * 2 ^ 43 + b2n p.limit * 2 ^ 44 + b2n p.past * 2 ^ 45
    + p.lastOff % 8 * 2 ^ 46 + p.straps * 2 ^ 49

/-- `MOD_TEMP` (Table 19-12). -/
def Power.tempView (p : Power) : Nat :=
  p.hottest (List.range 4) + p.hottest ((List.range 12).map fun i => 16 + i) * 2 ^ 16
    + p.hottest ((List.range 64).map fun i => 32 + i) * 2 ^ 32 + p.hottest [128] * 2 ^ 48

/-- `ERR_STAT` (Table 21-9). -/
def Err.stat (e : Err) : Nat := b2n e.fatal + 16 * e.fatalCause + 256 * b2n e.busy.isSome + 512 * e.lastResult

def State.viewTier (s : State) (o : Nat) : Nat :=
  if o = 0 then s.reg 0x3000
  else if o = 0x10 then s.beat.beats
  else if o = 0x18 then s.dirtyBudget + s.durableDirty * 2 ^ 32
  else if 0x20 ≤ o ∧ o < 0x40 then s.freeEntries ((o - 0x20) / 8) + s.shadowsOn ((o - 0x20) / 8) * 2 ^ 32
  else if o = 0x48 then s.peek % 2 ^ 64
  else if o = 0x50 then s.peek / 2 ^ 64
  else 0

/-- Code of a Cellar state (Table 14-8). -/
def CelSt.code : CelSt → Nat
  | .mounting => 0
  | .mounted => 1
  | .readOnly => 2
  | .flushing => 3
  | .shutDown => 4

/-- `CEL_STAT` (Table 14-8). -/
def Cellar.stat (c : Cellar) : Nat := c.st.code + 8 * b2n c.unclean + 16 * b2n c.spareLow + c.dirtySegs.length * 2 ^ 32

/-- `TXT_STAT` (Table 10-6). -/
def State.textStat (s : State) : Nat := flagBits ((List.range 8).map fun n => (tfind s.vocabs n).isSome) + s.streams.length * 2 ^ 16

/-- `HL_STAT` (Table 15-9). -/
def Link.stat (l : Link) : Nat := l.width + 256 * l.rate + 4096 * b2n l.cxl

/-! ## Host ports, pipelines, Mortar, KV, channels -/

/-- `HP_STAT` (Table 15-11). -/
def Port.stat (p : Port) : Nat :=
  p.st.code + 16 * p.devload + 256 * p.cause + flagBits ((List.range 16).map fun w => p.winBusy.contains w) * 2 ^ 16

/-- `SP_SLOTS` (Table 04-11). -/
def State.slotView (s : State) (p : Nat) : Nat := s.slotsUsed p false + s.slotsUsed p true + s.slotsUsed p true * 2 ^ 16

/-- Shards of a collection that lie on a die. -/
def Coll.shardsOn (c : Coll) (die : Nat) : List Nat := (List.range c.defn.shards).filter fun k => c.die k == die

/-- `MORTAR_STAT` (Table 06-7): Porch entries that may merge, and nodes with TOMB, on a die. -/
def State.mortarStat (s : State) (die : Nat) : Nat :=
  let ripe := sumNat (s.colls.map fun e => sumNat ((e.2.shardsOn die).map fun k => (s.mergeable e.1 e.2 k).length))
  let dead := sumNat (s.colls.map fun e =>
    ((List.range e.2.nodes).filter fun n => e.2.tomb n && e.2.die (n % e.2.defn.shards) == die).length)
  min ripe 0x1FFFF + sat dead 16 * 2 ^ 32

/-- `KV_STAT` (Table 07-10). -/
def State.kvStat (s : State) (die : Nat) : Nat :=
  let wait := sumNat (s.sessions.map fun e => sumNat (((List.range e.2.shards).filter fun k => e.2.die k == die).map fun k =>
    sumNat ((List.range e.2.layers).map fun l => (e.2.spillWait l k).length)))
  let held := sumNat (s.sessions.map fun e => (e.2.pref.filter fun x => e.2.die (kvShard x.name) == die).length)
  sat wait 24 + sat held 24 * 2 ^ 32

/-- `CH_STAT` (Table 14-10): both packages of a channel answer while the Cellar is mounted and the channel in service; the hottest of them
in whole degrees; operations on its dies. (log 112, DEDUCED) -/
def State.chanStat (s : State) (ch : Nat) : Nat :=
  let c := s.cellar
  let here := c.st != .mounting && !(c.chanDown.contains ch) && !(c.chanOff.contains ch)
  let hot := (max (tget 1000 s.power.temps (32 + 2 * ch)) (tget 1000 s.power.temps (33 + 2 * ch)) / 10 + 256 - 100) % 256
  (if here then 3 else 0) + hot * 2 ^ 8 + sat (c.ops.filter fun o => o.block.isSome && o.chan == ch).length 16 * 2 ^ 16

/-! ## Bruvia ports, stacks, bricks -/

/-- Code of a link state (Table 18-5). -/
def LinkSt.code : LinkSt → Nat
  | .down => 0
  | .train => 1
  | .ident => 2
  | .up => 3
  | .identFail => 4

/-- `BP_STAT` (Table 18-11). -/
def BpSt.stat (b : BpSt) : Nat := b.en.code + 16 * b.link.code + 128 * b2n b.newPeer + 256 * b2n b.annexLost + b.epoch % 2 ^ 32 * 2 ^ 32

def State.viewBp (s : State) (p o : Nat) : Nat :=
  let b := s.bp p
  if o = 0 then b.en.en
  else if o = 8 then b.stat
  else if o = 0x18 then s.reg (bpReg p o) + b.lentPages * 2 ^ 32
  else if 0x120 ≤ o ∧ o < 0x140 then b.peerId.getD 0 / 2 ^ (64 * ((o - 0x120) / 8)) % 2 ^ 64
  else if 0x800 ≤ o then fld b.health (o - 0x800) 8
  else s.reg (bpReg p o)

/-- `FLR_STAT` (Table 22-10). (log 112, DEDUCED) -/
def State.floorStat (s : State) (i : Nat) : Nat :=
  b2n (decide (phaseFloor < s.boot.phase)) + 2 * b2n (s.power.fastRefresh.contains (16 + i)) + s.power.hottest [16 + i] * 2 ^ 16

/-- `STK_STAT` (Table 12-8). -/
def State.stkStat (s : State) (i : Nat) : Nat :=
  let owed := ((s.debt.filter fun e => e.1 / 64 == i).map Prod.snd).foldl max 0
  (s.stkQueue i).length + s.openRegions i * 2 ^ 16 + owed * 2 ^ 32

/-- Code of a region state (Table 12-1). -/
def RegionSt.code : RegionSt → Nat
  | .guarded => 0
  | .opening => 1
  | .opened => 2
  | .sealing => 3

/-- `STK_REGION_STAT`: the region selected last; a stack has 36,864 regions. -/
def State.regionStat (s : State) (i : Nat) : Nat :=
  let r := tget 0 s.regionSel i
  if 36864 ≤ r then 0
  else
    let x := s.region (regionKey i r)
    x.st.code + 4 * b2n x.held + 16 * x.wing + sat (s.regionBad (regionKey i r)) 16 * 2 ^ 16

def State.viewStk (s : State) (i o : Nat) : Nat :=
  if o = 8 then s.floorStat i
  else if o = 0x1000 then s.reg (stkReg i o)
  else if o = 0x1010 then s.stkStat (i / 3)
  else if o = 0x1018 then profOpenMax s.prof
  else if o = 0x1028 then s.regionStat (i / 3)
  else 0

/-- Code of a brick state (Table 09-15). -/
def BrkSt.code : BrkSt → Nat
  | .idle => 0
  | .running => 1
  | .halted => 2
  | .faulted => 3
  | .switching => 4

/-- `BRK_STATE` (Table 09-15). -/
def State.brickStat (s : State) (b : Nat) : Nat :=
  let x := s.brick b
  let key := x.prog.getD 0
  x.st.code + key % 256 * 2 ^ 8 + key / 65536 * 2 ^ 16 + b2n (s.brickWing b).isSome * 2 ^ 20 + x.ctx.pc * 2 ^ 32

/-- Engines that wait on a latch (R224). -/
def State.latchWaiters (s : State) (b l : Nat) : Nat :=
  match s.run? b with
  | some r => flagBits ((List.range 5).map fun e => (r.waits e).contains l && !(r.canTake e l))
  | none => 0

/-- `BRK_LATCH` n (Table 09-18). -/
def State.latchView (s : State) (b n : Nat) : Nat :=
  let l := (s.brick b).ctx.latchAt n
  l.value + s.latchWaiters b n * 2 ^ 8 + l.eng * 2 ^ 16 + l.addr * 2 ^ 24

def State.viewBrick (s : State) (b o : Nat) : Nat :=
  let x := s.brick b
  if o = 8 then s.brickStat b
  else if o = 0x10 then x.fault + 256 * x.fEngine + x.fAddr * 2 ^ 32
  else if o = 0x18 then x.ctx.num
  else if 0x200 ≤ o then s.latchView b ((o - 0x200) / 8)
  else 0

/-! ## The wing block -/

/-- `SQ_STAT` and `CQ_STAT` (Table 16-11). -/
def ringStat (en : EnState) (tail head : Nat) : Nat := en.code + 256 * tail + head * 2 ^ 32

/-- Ring registers, by offset from 0x1000. -/
def State.viewRing (s : State) (w o : Nat) : Nat :=
  let r := o % 0x800 / 0x20
  let sub := o % 0x20
  if o < 0x1800 then
    let x := s.sq w r
    if sub = 0x10 then x.en.en else if sub = 0x18 then ringStat x.en x.tail x.head else s.reg (wngReg w o)
  else
    let x := s.cq w r
    if sub = 0x10 then x.en.en else if sub = 0x18 then ringStat x.en x.tail x.head else s.reg (wngReg w o)

/-- `WNG_EMB_USE` (Table 13-8). -/
def State.embUse (s : State) (w : Nat) : Nat :=
  sat (cdiv (s.pantryHeld w) 65536) 16 + sat (((List.range 4).map fun d => cdiv (s.prefUse d (some w)) 65536).foldl max 0) 8 * 2 ^ 16

def State.viewWing (s : State) (w o : Nat) : Nat :=
  if o = 0 then (s.wingSt w).en
  else if o = 8 then (s.wingSt w).code + (s.wingFlights w).length * 2 ^ 16
  else if 0x1000 ≤ o ∧ o < 0x2000 then s.viewRing w o
  else if o = 0x2018 then s.floorUse w + s.cacheUse w * 2 ^ 22 + s.annexUse w * 2 ^ 42
  else if o = 0x2310 then s.embUse w
  else if o = 0x3818 then (tget {} s.errRings w).tail
  else s.reg (wngReg w o)

/-! ## Any register -/

/-- What a register of a block reads as. A register of the stored kind reads its stored value, one that keeps no written bits 0. -/
def State.viewBlk (s : State) (off : Nat) : Blk → Nat → Nat
  | .glob, o => s.viewGlob o
  | .modu, o => if o = 8 then s.power.stat else if o = 0x10 then s.power.tempView else 0
  | .err, o => if o = 8 then s.err.stat else if o = 0x20 then s.reg off + 4 * b2n s.err.armed else s.reg off
  | .tier, o => s.viewTier o
  | .cel, o => if o = 0x10 then s.cellar.stat else s.reg off
  | .text, o => if o = 8 then s.textStat else 0
  | .hl, o => if o = 8 then s.link.stat else if o = 0x10 then s.dir.length + s.dirMost * 2 ^ 32 else 0
  | .hp i, o => if o = 0 then b2n (s.port i).en else if o = 8 then (s.port i).stat else s.reg off
  | .sp i, o => if o = 8 then s.slotView i else 0
  | .mortar i, o => if o = 8 then s.mortarStat i else s.reg off
  | .kv i, o => if o = 8 then s.kvStat i else 0
  | .ch i, o => if o = 8 then s.chanStat i else 0
  | .bp i, o => s.viewBp i o
  | .stk i, o => s.viewStk i o
  | .brk i, o => s.viewBrick i o
  | .wng i, o => s.viewWing i o
  | .none, _ => 0

/-- What the register that starts at a BAR0 offset reads as; a counter reads its snapshot (R104). -/
def State.readReg (s : State) (off : Nat) : Nat :=
  if isCounter (locate off).1 (locate off).2 then tget 0 s.snap off else s.viewBlk off (locate off).1 (locate off).2

end Sys2Proof.Machine
end

