-- ==== Sys2Proof/Machine/Access.lean ====
section
/-!
DEFINITION. Register access (R5 to R10, R104, R391, R508 to R521): who reaches which register, widths and halves, what a write of each register
does, reads with their captures, the MSI-X table.
-/
namespace Sys2Proof.Machine
open Sys2Proof

/-! ## Reach, width and halves (R5, R6, R511) -/

/-- Whether a requester sees an offset. -/
def State.visible (s : State) (src off : Nat) : Bool :=
  match (locate off).1 with
  | .wng w => s.sees src w
  | .none => false
  | _ => isSetup src

/-- A write that goes no further (R365, R366, R479, R511): unheard, unseen, or to a wing, host-port or Bruvia block before READY. -/
def State.accessRefused (s : State) (src off : Nat) : Option State :=
  if !(s.hears src) then some s
  else
    match (locate off).1 with
    | .wng w =>
      if !(s.sees src w) then some (if isRingReg (locate off).2 then s.bump (hpReg src 0x68) else s)
      else if !s.isReady then some (s.lockVio src off) else none
    | .hp _ => s.portRefused src off
    | .bp _ => s.portRefused src off
    | .none => some s
    | _ => s.setupRefused src

/-- What an aligned access names of a register: all of it, or a half of a 64-bit one. -/
inductive Part where
  | whole
  | low
  | high
deriving DecidableEq, Repr

/-- Whether an access has a width of 32 or 64 bits and its natural alignment. -/
def goodAccess (off width : Nat) : Bool := (width == 32 && off % 4 == 0) || (width == 64 && off % 8 == 0)

/-- The register that an access of good form reaches, and which part of it. -/
def regPart (off width : Nat) : Option (Nat × Part) :=
  match regAt off with
  | some i => if i.width = width then some (off, .whole) else if width = 32 then some (off, .low) else none
  | none =>
    if width = 32 ∧ off % 8 = 4 then
      match regAt (off - 4) with
      | some i => if i.width = 64 then some (off - 4, .high) else none
      | none => none
    else none

/-- One effect after another. -/
def andThen (r : Host.Outcome State Fault Refusal) (f : State → Host.Outcome State Fault Refusal) : Host.Outcome State Fault Refusal :=
  match r with
  | .next t => f t
  | x => x

/-- A write of a stored register whose field values and conditions are allowed, else a lock violation. (log 110, DEDUCED) -/
def State.rangeWrite (s : State) (src off val : Nat) (ok : Bool) : State := if ok then s.setReg off val else s.lockVio src off

/-! ## SNAP and CLEAR (R104) -/

/-- The SNAP and CLEAR bits of a write to a control register: the snapshot is taken first. -/
def State.snapClear (s : State) (off val : Nat) : State :=
  match snapBits (locate off).1 (locate off).2 with
  | some (a, b) =>
    let s := if bit val a then s.snapAll off else s
    if bit val b then s.clearAll off else s
  | none => s

/-- Whether a control register with SNAP and CLEAR starts at an offset. -/
def isCtrl (off : Nat) : Bool := (snapBits (locate off).1 (locate off).2).isSome

/-- COUNTER_SNAP (R104): a SNAP bit written in the control register at `off`, with CLEAR or without. -/
def execCounterSnap (src off : Nat) (alsoClear : Bool) (s : State) : Host.Outcome State Fault Refusal :=
  .next (match s.accessRefused src off with
    | some t => t
    | none => if isCtrl off then (if alsoClear then (s.snapAll off).clearAll off else s.snapAll off) else s)

/-- COUNTER_CLEAR (R104). -/
def execCounterClear (src off : Nat) (s : State) : Host.Outcome State Fault Refusal :=
  .next (match s.accessRefused src off with
    | some t => t
    | none => if isCtrl off then s.clearAll off else s)

/-! ## What a write of each register does -/

/-- Global block (Table 22-3). -/
def writeGlob (src o val : Nat) (s : State) : Host.Outcome State Fault Refusal :=
  if o = 0x10 then (if bit val 0 then execGlbSetupClose src s else .next s)
  else if o = 0x18 then .next (if bit val 0 && !(s.justSet 0x18) then s.setReg 0x18 (setBits (s.reg 0x18) 0 0 0) else s)
  else if o = 0x28 then (if bit val 0 then execRstCtrlModule src (bits val 15 8) s else .next s)
  else if o = 0x30 then execProfSetFirstWord src val s
  else if o = 0x38 then execProfSetSubmit src val s
  else if o = 0x80 then execBeatCfgWrite src val s
  else if o = 0x88 then .next (if bit val 2 && !(s.justSet 0x88) then { s with beat := { s.beat with lost := false } } else s)
  else if o = 0x98 then execBeatNextWrite src val s
  else .next (s.snapClear o val)

/-- A write of `ERR_RECOVER` (R507). -/
def writeRecover (src val : Nat) (s : State) : Host.Outcome State Fault Refusal :=
  if bits val 3 0 = 2 then execChannelRecover src (bits val 15 8) false s
  else if bits val 3 0 = 4 then execStackRecover src (bits val 15 8) false s
  else .next (s.lockVio src 0x2010)

/-- A write of `ERR_INJECT_ADDR`: locked once set-up is closed (R9). -/
def State.writeInjectAddr (s : State) (src val : Nat) : State :=
  if !s.boot.setupClosed then s.setReg 0x2028 val
  else if val &&& regMask 0x2028 = s.reg 0x2028 then s else s.lockVio src 0x2028

/-- Error block (Table 21-7). -/
def writeErr (src o val : Nat) (s : State) : Host.Outcome State Fault Refusal :=
  if o = 0x10 then writeRecover src val s
  else if o = 0x18 then .next (s.rangeWrite src 0x2018 val (inside 1000 60000 (bits val 15 0)))
  else if o = 0x20 then execErrInjectArm src val s
  else if o = 0x28 then .next (s.writeInjectAddr src val)
  else .next (s.snapClear (0x2000 + o) val)

/-- Tier block (Table 11-12, R291). -/
def writeTier (src o val : Nat) (s : State) : Host.Outcome State Fault Refusal :=
  if o = 0 then .next (s.rangeWrite src 0x3000 val (decide (bits val 3 0 ≤ 10) && decide (1 ≤ bits val 15 8)))
  else if o = 0x40 then execTptPeekAddrWrite src val s
  else .next (s.snapClear (0x3000 + o) val)

/-- Cellar block (Tables 14-5 to 14-7). -/
def writeCel (src o val : Nat) (s : State) : Host.Outcome State Fault Refusal :=
  if o = 0 then
    let t := s.snapClear 0x4000 val
    if bit val 2 then execCelShutdown src t else .next t
  else if o = 8 then .next (s.rangeWrite src 0x4008 val (inside 10 1000 (bits val 9 0) && inside 1 15 (bits val 19 16)))
  else .next s

/-- Host port block (Tables 15-8, 15-10). (log 110, DEDUCED) -/
def writeHp (src p o val : Nat) (s : State) : Host.Outcome State Fault Refusal :=
  let off := hpReg p o
  if o = 0 then
    let fails := bit val 1 && (s.port p).st != .disabled && (s.port p).st != .failed
    andThen (execHpEnWrite src p (bit val 0) s) fun s =>
      andThen (if fails then execHpCtrlFail src p s else .next s) fun s => .next (s.snapClear off val)
  else if o = 0x10 then execHpGrantWrite src p val s
  else if o = 0x18 then
    let t := s.setReg off val
    work t (t.limitSet p)
  else if o = 0x20 then .next (s.rangeWrite src off val (inside 1 1000 (bits val 9 0)))
  else if 0x100 ≤ o ∧ o < 0x200 then
    let w := (o - 0x100) / 16
    if o % 16 = 8 then .next (s.writeWinB src p w val)
    else if bit val 0 then execHpWinValidSet src p w val s
    else execHpWinValidClear src p w val s
  else .next s

/-- `MORTAR_CTRL` (Table 06-6): a BUILD_BEAM outside 16 to 1,024 leaves that field unchanged. -/
def writeMortar (src die o val : Nat) (s : State) : Host.Outcome State Fault Refusal :=
  let off := mortarReg die 0
  if o = 0 then
    andThen (execMortarPause src die (bit val 0) s) fun s =>
      let beam := bits val 26 16
      let t := if inside 16 1024 beam then s.setReg off (setBits (s.reg off) 26 16 beam) else s
      .next (t.snapClear off val)
  else .next s

/-- `BP_CFG` (R457): PIN changes only while the port is DISABLED. -/
def State.bpCfgOk (s : State) (p val : Nat) : Bool :=
  (bit val 0 == bit (s.reg (bpReg p 0x10)) 0 || (s.bp p).en == .disabled) && decide (1 ≤ bits val 15 8) && inside 10 60000 (bits val 31 16)

/-- Bruvia port block (Table 18-9). (log 110, DEDUCED; log 111, DEDUCED) -/
def writeBp (src p o val : Nat) (s : State) : Host.Outcome State Fault Refusal :=
  let off := bpReg p o
  if o = 0 then
    andThen (execBpEnWrite src p (bit val 0) s) fun s =>
      andThen (if bit val 1 then execBpRetrain src p s else .next s) fun s => .next (s.snapClear off val)
  else if o = 8 then .next (if bit val 7 && !(s.justSet off) then s.setBp p { s.bp p with newPeer := false } else s)
  else if o = 0x10 then .next (s.rangeWrite src off val (s.bpCfgOk p val))
  else if o = 0x18 then .next (s.rangeWrite src off val (decide (bits val 21 0 ≤ 2097152)))
  else if o = 0x20 ∨ o = 0x28 ∨ (0x100 ≤ o ∧ o < 0x120) then .next (s.rangeWrite src off val ((s.bp p).en == .disabled))
  else .next s

/-- Stack block (Tables 12-6, 22-10). A HANDOFF_MAX above 1,024 leaves the register as it is. (log 111, DEDUCED) -/
def writeStk (src i o val : Nat) (s : State) : Host.Outcome State Fault Refusal :=
  let off := stkReg i o
  if o = 0x1000 then .next (if bits val 10 0 ≤ 1024 then s.setReg off val else s)
  else if o = 0x1020 then execStkRegionSelWrite src i val s
  else .next (s.snapClear off val)

/-- Brick debug block (Table 09-13): `BRK_NUMSTAT` is W1C. -/
def writeBrick (b o val : Nat) (s : State) : Host.Outcome State Fault Refusal :=
  if o = 0x18 then
    let x := s.brick b
    .next (s.setBrick b { x with ctx := x.ctx.numClear (val - (val &&& x.ctx.numSetIn s.cyc)) })
  else .next (s.snapClear (brkReg b o) val)

/-- Field values that `SQ_CFG` takes (Table 16-10). -/
def sqCfgOk (val : Nat) : Bool := inside 4 16 (sqSizeLog val) && decide (sqMaxInflight val ≤ 16384) && inside 1 10000000 (sqDefTimeout val)

/-- Field values that `CQ_CFG` takes (Table 16-12). -/
def cqCfgOk (val : Nat) : Bool := inside 4 16 (sqSizeLog val) && cqIrq val != 3

/-- Ring registers (R408, R411, R412, R414). (log 110, DEDUCED) -/
def writeRing (src w o val : Nat) (s : State) : Host.Outcome State Fault Refusal :=
  let off := wngReg w o
  let r := o % 0x800 / 0x20
  let sub := o % 0x20
  let kind : EnKind := if o < 0x1800 then .sq else .cq
  if sub = 0x10 then
    andThen (if bit val 1 ∧ kind = .sq then execSqAbort src w r s else .next s) fun s =>
      if bit val 0 then execEnableWriteOn src kind w r s else execEnableWriteOff src kind w r s
  else if sub = 0x18 then .next s
  else .next (s.rangeWrite src off val (s.enOf kind w r == .disabled && (sub == 0 || (if kind = .sq then sqCfgOk val else cqCfgOk val))))

/-- Whether a fan-out entry may take a value (R458). -/
def State.fanOk (s : State) (w n val : Nat) : Bool :=
  s.wingSt w == .disabled && !(bit val 32)
    && (!(bit val 12) || (List.range 32).all fun i =>
        let x := s.reg (wngReg w (0x3000 + 8 * i))
        i == n || !(bit x 12) || bits x 11 0 != bits val 11 0 || bits x 15 13 != bits val 15 13)

/-- Whether CACHE_MIN of a wing may take a value: the sum over all wings stays within the window cache (R286). -/
def State.cacheMinOk (s : State) (w val : Nat) : Bool :=
  decide (sumNat ((List.range 16).map fun x => if x = w then bits val 19 0 else s.cacheMin x) ≤ profWindow s.prof)

/-- Tier, embedding, traffic, fan-out and error-ring registers of the wing block. -/
def writeWingSet (src w o val : Nat) (s : State) : Host.Outcome State Fault Refusal :=
  let off := wngReg w o
  if o = 0x2008 then .next (s.rangeWrite src off val (decide (bits val 59 32 ≤ 106811523)))
  else if o = 0x2010 then .next (s.rangeWrite src off val (s.cacheMinOk w val))
  else if o = 0x2200 then execWngFlushDoneWrite src w val s
  else if o = 0x2308 then .next (s.rangeWrite src off val (decide (bits val 23 16 ≤ 128)))
  else if isMeterReg o then execPolicerConfigWrite src off val s
  else if o = 0x2808 then .next (s.rangeWrite src off val (decide (bits val 9 0 ≤ 960)))
  else if 0x2820 ≤ o ∧ o < 0x2840 then execWngBrickWrite src w ((o - 0x2820) / 8) val s
  else if 0x3000 ≤ o ∧ o < 0x3100 then .next (s.rangeWrite src off val (s.fanOk w ((o - 0x3000) / 8) val))
  else if o = 0x3800 then .next (s.rangeWrite src off val (!(bit (s.errCfg w) 4)))
  else if o = 0x3808 then execWngErrEnable src w val s
  else if o = 0x3810 then .next (s.setReg off val)
  else .next (s.snapClear off val)

/-- Wing block (Table 22-9). A write that aborts a wing and sets its EN aborts first. (log 110, DEDUCED) -/
def writeWing (src w o val : Nat) (s : State) : Host.Outcome State Fault Refusal :=
  if o = 0 then
    andThen (if bit val 1 then execWngAbort src w s else .next s) fun s =>
      if bit val 0 then execEnableWriteOn src .wing w 0 s else execEnableWriteOff src .wing w 0 s
  else if 0x1000 ≤ o ∧ o < 0x2000 then writeRing src w o val s
  else writeWingSet src w o val s

/-- A complete write of the register that starts at a BAR0 offset (R7). -/
def writeReg (src off val : Nat) (s : State) : Host.Outcome State Fault Refusal :=
  match locate off with
  | (.glob, o) => writeGlob src o val s
  | (.modu, o) => .next (if o = 8 then (if bit val 45 && !(s.justSet off) then { s with power := { s.power with past := false } } else s) else s.snapClear off val)
  | (.err, o) => writeErr src o val s
  | (.tier, o) => writeTier src o val s
  | (.cel, o) => writeCel src o val s
  | (.hp i, o) => writeHp src i o val s
  | (.mortar i, o) => writeMortar src i o val s
  | (.bp i, o) => writeBp src i o val s
  | (.stk i, o) => writeStk src i o val s
  | (.brk i, o) => writeBrick i o val s
  | (.wng w, o) => writeWing src w o val s
  | (.text, _) => .next (s.snapClear off val)
  | (.hl, _) => .next (s.snapClear off val)
  | (.sp _, _) => .next (s.snapClear off val)
  | (.kv _, _) => .next (s.snapClear off val)
  | (.ch _, _) => .next (s.snapClear off val)
  | (.none, _) => .next s

/-! ## Halves (R6) -/

/-- Key of what a requester keeps about a register. -/
def halfKey (src off : Nat) : Nat := src * 2 ^ 24 + off

/-- Holds the low half of a register for its requester. -/
def State.holdLow (s : State) (src off val : Nat) : State := { s with lowHeld := tset 0 s.lowHeld (halfKey src off) (val % 2 ^ 32) }

/-- The OFFSET that a violation by a high-half write is recorded with: that write's own offset (R517). -/
def highOffset (off : Nat) (probe r : Host.Outcome State Fault Refusal) : Host.Outcome State Fault Refusal :=
  match probe, r with
  | .next p, .next t =>
    if p.reg 0x18 ≠ 0 ∧ off ≠ 0x18 then .next (t.setReg 0x18 (setBits (t.reg 0x18) 54 32 (off + 4))) else .next t
  | _, x => x

/-- A write of the high half applies the whole register, with the low half held for its requester, 0 when none is.
(log 111, DEDUCED) -/
def writeHigh (src off val : Nat) (s : State) : Host.Outcome State Fault Refusal :=
  let v := tget 0 s.lowHeld (halfKey src off) + val % 2 ^ 32 * 2 ^ 32
  highOffset off (writeReg src off v (s.setReg 0x18 0)) (writeReg src off v s)

/-- A BAR0 write. -/
def writeBar0 (src off width val : Nat) (s : State) : Host.Outcome State Fault Refusal :=
  if !(goodAccess off width) then .next s
  else
    match s.accessRefused src off with
    | some t => .next t
    | none =>
      match regPart off width with
      | some (r, .whole) => writeReg src r (val % 2 ^ width) s
      | some (r, .low) => .next (s.holdLow src r val)
      | some (r, .high) => writeHigh src r val s
      | none => .next s

/-! ## Doorbells and the MSI-X table (R391, R521) -/

/-- A BAR2 write: doorbells are 32-bit registers at the start of their pages. -/
def writeBar2 (port off width val : Nat) (s : State) : Host.Outcome State Fault Refusal :=
  let w := off / 0x80000
  let o := off % 0x80000
  if 8 ≤ port ∨ 16 ≤ w ∨ goodAccess off width = false ∨ s.hears port = false then .next s
  else if s.granted port w = false then .next (s.bump (hpReg port 0x68))
  else if o % 0x1000 ≠ 0 ∨ width ≠ 32 then .next s
  else if o < 0x40000 then execSqDoorbell port w (o / 0x1000) (val % 2 ^ 32) s
  else execCqDoorbell port w ((o - 0x40000) / 0x1000) (val % 2 ^ 32) s

/-- One 32-bit word of an MSI-X table; of the vector control only the mask bit is kept. (log 116, DESIGN CHOICE) -/
def State.writeMsixWord (s : State) (port o val : Nat) : State :=
  let isCtrl := o % 16 == 12
  let t : Tab Nat := tset (b2n isCtrl) s.msixTab (port * 65536 + o) (if isCtrl then val % 2 else val % 2 ^ 32)
  let e := o / 16
  let s := { s with msixTab := t }
  if isCtrl && s.msixPend.contains (port * 2048 + e) && !(s.msixMasked port e) then
    { s with msixPend := s.msixPend.filter fun x => x != port * 2048 + e }.sendMsix port e
  else s

/-- A BAR4 write: the MSI-X table of the logical device. The CXL-defined structures beside it follow the CXL specification.
(log 116, DESIGN CHOICE) -/
def writeBar4 (port off width val : Nat) (s : State) : Host.Outcome State Fault Refusal :=
  if 8 ≤ port ∨ goodAccess off width = false ∨ s.power.rails ≠ .good ∨ s.link.cxl = false ∨ off < 0x200000 ∨ 0x204100 ≤ off then .next s
  else
    let o := off - 0x200000
    let t := s.writeMsixWord port o val
    .next (if width = 64 then t.writeMsixWord port (o + 4) (val / 2 ^ 32) else t)

/-! ## The commands -/

/-- REG_WRITE (R5 to R10, R511): `width` is in bits. A register that has a row of its own is written as that row says. -/
def execRegWrite (src bar off width val : Nat) (s : State) : Host.Outcome State Fault Refusal :=
  if bar = 0 then writeBar0 src off width val s
  else if bar = 2 then writeBar2 src off width val s
  else writeBar4 src off width val s

/-- REG_WRITE_LOW_HALF_HOLD (R6). -/
def execRegWriteLowHalfHold (src off val : Nat) (s : State) : Host.Outcome State Fault Refusal :=
  .next (if !(goodAccess off 32) then s
    else match s.accessRefused src off with
      | some t => t
      | none => match regPart off 32 with
        | some (r, .low) => s.holdLow src r val
        | _ => s)

/-- Reads (R5, R511, R513): a low half is captured for its requester, the next high half of that register returns the capture. -/
def State.readBar0 (s : State) (src off width : Nat) : State × Nat :=
  if !(goodAccess off width) then (s, 2 ^ width - 1)
  else if !(s.visible src off) then (s, 0)
  else
    match regPart off width with
    | some (r, .whole) => (s, s.readReg r)
    | some (r, .low) =>
      let v := s.readReg r
      ({ s with captures := tset 0 s.captures (halfKey src r) (v / 2 ^ 32 + 1) }, v % 2 ^ 32)
    | some (r, .high) =>
      match tget 0 s.captures (halfKey src r) with
      | 0 => (s, s.readReg r / 2 ^ 32)
      | v + 1 => ({ s with captures := tset 0 s.captures (halfKey src r) 0 }, v)
    | none => (s, if (regAt off).isSome then 2 ^ width - 1 else 0)

/-- A read and its answer. (log 90, DEDUCED) -/
def State.answerReg (s : State) (src off width : Nat) : State :=
  if !(s.hears src) then s
  else
    let r := s.readBar0 src off width
    r.1.emit (.readResp src off width r.2)

/-- REG_READ_LOW_HALF_CAPTURE (R513). -/
def execRegReadLowHalfCapture (src off : Nat) (s : State) : Host.Outcome State Fault Refusal := .next (s.answerReg src off 32)

/-- MCTP_REGISTER_ACCESS (R514): as the same access by the set-up device, MCTP being a requester of its own. -/
def execMctpRegisterAccess (isWrite : Bool) (off width val : Nat) (s : State) : Host.Outcome State Fault Refusal :=
  if isWrite then writeBar0 8 off width val s else .next (s.answerReg 8 off width)

end Sys2Proof.Machine
end

