-- ==== Sys2Proof/Machine/Text.lean ====
section
/-!
DEFINITION. Meanings of the text commands (10): vocabularies, streams, cutting text into bytes, detokenising with stop strings, and
drafting from passages.
-/
namespace Sys2Proof.Machine
open Sys2Proof

/-! ## Vocabularies (R248, R249) -/

/-- Whether a slot is named by an open stream. -/
def State.slotNamed (s : State) (slot : Nat) : Bool := s.streams.any fun e => !e.2.cut && e.2.vocab == slot

/-- Why a descriptor may not touch a slot (R248). -/
def State.slotRefusal (s : State) (w slot : Nat) : Option Status :=
  match tfind s.vocabs slot with
  | some v => if v.wing ≠ w then some .invalid else if s.slotNamed slot then some .busy else none
  | none => none

/-- Entry i of a vocabulary image (Table 10-2), when it is in range. -/
def tokenOf (img : Bytes) (i : Nat) : Option Token :=
  let off := fld img (8 * i) 4
  let len := fld img (8 * i + 4) 1
  let flags := fld img (8 * i + 5) 1
  let special := bit flags 0
  if flags ≥ 4 ∨ zeroAt img (8 * i + 6) 2 = false then none
  else if special then some { bytes := [], special, final := bit flags 1 }
  else if 128 < len ∨ img.length < off + len then none
  else some { bytes := slice img off len, special, final := bit flags 1 }

/-- Every entry of an image, or none when one is out of range. -/
def tokensOf (img : Bytes) (n : Nat) : Option (List Token) := (List.range n).mapM (tokenOf img)

/-- Frees what a slot holds. -/
def State.freeSlot (s : State) (slot : Nat) : State :=
  match tfind s.vocabs slot with
  | some v => { s.freeInternal v.wing v.frames with vocabs := tdel s.vocabs slot }
  | none => s

/-- VOCAB_LOAD (R248, R249); the pages of an image that is replaced count as free (log 28, DEDUCED). -/
def State.vocabLoad (s : State) (f : Flight) (src : Dma) : State :=
  let slot := f.u 16 1
  let n := f.u 20 4
  let size := f.u 40 8
  if !(f.zero [(12, 4), (18, 2), (24, 8), (48, 80)]) || decide (8 ≤ slot) || decide (1 < f.u 17 1) || !(inside 1 262144 n)
    || !(aligned64 (f.u 32 8)) then s.fixSt f.fid .invalid
  else
    match s.slotRefusal f.wing slot with
    | some st => s.fixSt f.fid st
    | none =>
      match (s.freeSlot slot).allocInternal f.wing [(allStacks, cdiv size pageSize)] with
      | none => s.fixSt f.fid .noResource
      | some _ =>
        let r := s.readSrc f (f.u 17 1) (f.u 32 8) size src 0
        match r.2 with
        | .stop st nt => r.1.stopAt f.fid st nt
        | .bytes img =>
          if size < 8 * n then r.1.fixSt f.fid .invalid
          else
            match tokensOf img n with
            | none => r.1.fixSt f.fid .invalid
            | some tokens =>
              match (r.1.freeSlot slot).allocInternal f.wing [(allStacks, cdiv size pageSize)] with
              | none => r.1.fixSt f.fid .noResource
              | some (t, frames) =>
                let v : Vocab := { wing := f.wing, tokens, pages := cdiv size pageSize, frames }
                (({ t with vocabs := tput t.vocabs slot v }).admitNow f.fid).fixOk f.fid 0 0

/-- VOCAB_LOAD. -/
def execVocabLoad (fid : Nat) (src : Dma) (s : State) : Host.Outcome State Fault Refusal :=
  work s (match s.ready? fid 0x610 with
    | some f => s.vocabLoad f src
    | none => s)

/-- VOCAB_DROP (R248). -/
def execVocabDrop (fid : Nat) (s : State) : Host.Outcome State Fault Refusal :=
  work s (match s.ready? fid 0x611 with
    | none => s
    | some f =>
      if !(f.zero [(12, 4), (17, 111)]) || decide (8 ≤ f.u 16 1) then s.fixSt fid .invalid
      else
        match s.slotRefusal f.wing (f.u 16 1) with
        | some st => s.fixSt fid st
        | none => ((s.freeSlot (f.u 16 1)).admitNow fid).fixOk fid 0 0)

/-! ## Streams (R250 to R252) -/

/-- The stream that a descriptor's HANDLE names. -/
def State.streamOf (s : State) (f : Flight) : Option Stream :=
  if hHandle f.raw < 4096 then tfind s.streams f.obj else none

def State.modStream (s : State) (key : Nat) (g : Stream → Stream) : State := { s with streams := tupd s.streams key g }

/-- Field ranges of STREAM_OPEN (Table 10-3). -/
def streamOpenOk (f : Flight) : Bool :=
  f.zero [(23, 1), (28, 4), (40, 88)] &&
    if f.u 16 1 = 0 then
      decide (f.u 17 1 < 8) && decide (f.u 18 1 ≤ 8) && decide (f.u 19 1 ≤ 1) && f.zero [(20, 8)] && aligned64 (f.u 32 8)
        && (f.u 18 1 != 0 || (f.u 19 1 == 0 && f.u 32 8 == 0))
    else
      f.u 16 1 == 1 && f.zero [(17, 3), (32, 8)] && inside 16 4096 (f.u 20 2) && (f.u 22 1 == 1 || f.u 22 1 == 2)
        && (if f.u 22 1 = 1 then decide (f.u 24 2 ≤ 255) && f.u 26 2 == 0 else decide (f.u 26 2 ≤ 65280))

/-- The stop strings of a stop block, or none when it is ill-formed (R252). -/
def stopsOf (b : Bytes) (n : Nat) : Option (List Bytes) :=
  if zeroAt b n (16 - n) = false then none
  else (List.range n).mapM fun i =>
    let len := fld b i 1
    if inside 1 64 len && zeroAt b (16 + 64 * i + len) (64 - len) then some (slice b (16 + 64 * i) len) else none

/-- Adds a stream. -/
def State.addStream (s : State) (f : Flight) (x : Stream) : State :=
  (({ s with streams := tput s.streams f.obj x }).admitNow f.fid).fixOk f.fid 0 0

/-- STREAM_OPEN (R250, R251). -/
def State.streamOpen (s : State) (f : Flight) (src : Dma) : State :=
  let held := match tfind s.vocabs (f.u 17 1) with
    | some v => v.wing == f.wing
    | none => false
  if !(streamOpenOk f) || decide (4096 ≤ hHandle f.raw) || (s.streamOf f).isSome || (f.u 16 1 == 0 && !held) then s.fixSt f.fid .invalid
  else if s.streams.length ≥ 4096 then s.fixSt f.fid .noResource
  else if f.u 16 1 = 1 then
    s.addStream f { cut := true, segLen := f.u 20 2, outW := f.u 22 1, pad := f.u 24 2, idBase := f.u 26 2 }
  else
    let n := f.u 18 1
    let r := s.readSrc f (f.u 19 1) (f.u 32 8) (if n = 0 then 0 else 16 + 64 * n) src 0
    match r.2 with
    | .stop st nt => r.1.stopAt f.fid st nt
    | .bytes b =>
      match stopsOf b n with
      | none => r.1.fixSt f.fid .invalid
      | some stops => r.1.addStream f { cut := false, vocab := f.u 17 1, stops }

/-- STREAM_OPEN. -/
def execStreamOpen (fid : Nat) (src : Dma) (s : State) : Host.Outcome State Fault Refusal :=
  work s (match s.ready? fid 0x620 with
    | some f => s.streamOpen f src
    | none => s)

/-- STREAM_CLOSE (R252): the stream and its draft source are released. -/
def execStreamClose (fid : Nat) (s : State) : Host.Outcome State Fault Refusal :=
  work s (match s.ready? fid 0x622 with
    | none => s
    | some f =>
      match s.streamOf f with
      | none => s.fixSt fid .invalid
      | some x =>
        if !(f.zero [(16, 112)]) then s.fixSt fid .invalid
        else (({ s.freeInternal f.wing x.frames with streams := tdel s.streams f.obj }).admitNow fid).fixOk fid 0 0)

/-! ## UTF-8 -/

/-- What bytes begin with: a well-formed character of n bytes, a maximal subpart of n bytes that begins no character, or a prefix of a
character that ends with the bytes. -/
inductive Utf8 where
  | char (n : Nat)
  | bad (n : Nat)
  | part
deriving DecidableEq, Repr

/-- Length of a character by its first byte, and the range of its second byte (well-formed UTF-8 byte sequences). -/
def utf8Lead (b : Nat) : Option (Nat × Nat × Nat) :=
  if b < 0x80 then some (1, 0, 0) else if b < 0xC2 then none else if b < 0xE0 then some (2, 0x80, 0xBF)
  else if b = 0xE0 then some (3, 0xA0, 0xBF) else if b = 0xED then some (3, 0x80, 0x9F) else if b < 0xF0 then some (3, 0x80, 0xBF)
  else if b = 0xF0 then some (4, 0x90, 0xBF) else if b < 0xF4 then some (4, 0x80, 0xBF)
  else if b = 0xF4 then some (4, 0x80, 0x8F) else none

/-- The head of some bytes that are not empty. -/
def utf8Head (bs : Bytes) : Utf8 :=
  match utf8Lead (bs.getD 0 0).toNat with
  | none => .bad 1
  | some (n, lo, hi) =>
    if n = 1 then .char 1
    else if bs.length < 2 then .part
    else if !(inside lo hi (bs.getD 1 0).toNat) then .bad 1
    else if n = 2 then .char 2
    else if bs.length < 3 then .part
    else if !(inside 0x80 0xBF (bs.getD 2 0).toNat) then .bad 2
    else if n = 3 then .char 3
    else if bs.length < 4 then .part
    else if !(inside 0x80 0xBF (bs.getD 3 0).toNat) then .bad 3
    else .char 4

/-! ## TEXT_CUT (R253 to R255) -/

/-- Units of an input, and the run carried: characters, and single bytes that belong to none. `fuel` bounds the units.
(log 63, DEDUCED) -/
def cutUnits (final : Bool) : Nat → Bytes → List Bytes × Bytes
  | 0, _ => ([], [])
  | fuel + 1, bs =>
    match bs with
    | [] => ([], [])
    | _ =>
      match utf8Head bs with
      | .char n =>
        let r := cutUnits final fuel (bs.drop n)
        (bs.take n :: r.1, r.2)
      | .bad _ =>
        let r := cutUnits final fuel (bs.drop 1)
        (bs.take 1 :: r.1, r.2)
      | .part => if final then (bs.map fun b => [b], []) else ([], bs)

/-- Fills segments of n bytes with units, in order: the segments that are full, and the one under way. (log 63, DEDUCED) -/
def fillSegs (n : Nat) (units : List Bytes) : List Bytes :=
  let r := units.foldl (fun (acc : List Bytes × Bytes) u =>
    if acc.2.length + u.length ≤ n then (acc.1, acc.2 ++ u) else (acc.1 ++ [acc.2], u)) ([], [])
  if r.2 = [] then r.1 else r.1 ++ [r.2]

/-- One segment as written: each byte an element, the rest PAD. -/
def Stream.segBytes (x : Stream) (seg : Bytes) : Bytes :=
  let el := seg.map fun b => if x.outW = 1 then b.toNat else b.toNat + x.idBase
  ((el ++ List.replicate (x.segLen - el.length) x.pad).map fun v => natLe v x.outW).flatten

/-- A count of 16 bits that stops at 0xFFFF. -/
def countCap (n : Nat) : Nat := if n ≤ 65535 then n else 0xFFFF

/-- TEXT_CUT. (log 63, DEDUCED) -/
def State.textCut (s : State) (f : Flight) (src : Dma) : State :=
  let n := f.u 20 4
  match s.streamOf f with
  | none => s.fixSt f.fid .invalid
  | some x =>
    if !(f.zero [(18, 2), (24, 8), (52, 76)]) || !x.cut || decide (1 < f.u 16 1) || decide (1 < f.u 17 1) || !(inside 1 1048576 n)
      || !(aligned64 (f.u 40 8)) || decide (f.u 48 4 < cdiv (n + 3) (x.segLen - 3) * x.segLen * x.outW) then s.fixSt f.fid .invalid
    else
      let r := s.readSrc f (f.u 16 1) (f.u 32 8) n src 0
      match r.2 with
      | .stop st nt => r.1.stopAt f.fid st nt
      | .bytes bs =>
        let input := x.carry ++ bs
        let u := cutUnits (f.u 17 1 == 1) input.length input
        let segs := fillSegs x.segLen u.1
        let s := (r.1.modStream f.obj fun x => { x with carry := u.2 }).admitNow f.fid
        let s := (s.result f 0 (segs.map x.segBytes).flatten).bumpBy 0x5040 (input.length - u.2.length)
        s.fixOk f.fid (countCap segs.length) (pack32 segs.length u.2.length)

/-- TEXT_CUT (R254). -/
def execTextCut (fid : Nat) (src : Dma) (s : State) : Host.Outcome State Fault Refusal :=
  work s (match s.ready? fid 0x600 with
    | some f => s.textCut f src
    | none => s)

/-! ## STREAM_FEED (R256 to R259) -/

/-- A decoded byte, the input bytes used up to and including it, and whether it ends a U+FFFD. -/
structure Decoded where
  byte : Byte
  used : Nat
  repl : Bool
deriving DecidableEq, Repr

/-- U+FFFD after `used` input bytes. -/
def replacement (used : Nat) : List Decoded := [⟨0xEF, used, false⟩, ⟨0xBF, used, false⟩, ⟨0xBD, used, true⟩]

/-- Decodes bytes (R257): the decoded bytes and the prefix carried. -/
def decodeText : Nat → Nat → Bytes → List Decoded × Bytes
  | 0, _, _ => ([], [])
  | fuel + 1, pos, bs =>
    match bs with
    | [] => ([], [])
    | _ =>
      match utf8Head bs with
      | .char n =>
        let r := decodeText fuel (pos + n) (bs.drop n)
        ((bs.take n).zipIdx.map (fun p => (⟨p.1, pos + p.2 + 1, false⟩ : Decoded)) ++ r.1, r.2)
      | .bad n =>
        let r := decodeText fuel (pos + n) (bs.drop n)
        (replacement (pos + n) ++ r.1, r.2)
      | .part => ([], bs)

def endsWith (s t : Bytes) : Bool := decide (t.length ≤ s.length) && decide (s.drop (s.length - t.length) = t)

/-- The stop string that the text's last byte completes: the one that begins earliest, then the lower index. -/
def stopAtEnd (stops : List Bytes) (text : Bytes) : Option (Nat × Nat) :=
  (stops.zipIdx.filter fun p => endsWith text p.1).foldl (fun best p => match best with
    | some b => if p.1.length > b.2 then some (p.2, p.1.length) else some b
    | none => some (p.2, p.1.length)) none

/-- Length of the longest suffix that is a proper prefix of a stop string. -/
def holdLen (stops : List Bytes) (text : Bytes) : Nat :=
  ((List.range 64).filter fun n => stops.any fun t => decide (n < t.length) && endsWith text (t.take n)).foldl max 0

/-- A feed under way. -/
structure FeedSt where
  carry : Bytes
  held : Bytes
  out : Bytes := []
  count : Nat := 0
  repls : Nat := 0
  hist : List Nat := []
  /-- STOP and bytes consumed of the stop token (R259). -/
  stop : Option (Nat × Nat) := none
deriving DecidableEq, Repr

/-- Checks decoded bytes for stop strings one after another; `before` input bytes came from earlier tokens. (log 64, DEDUCED) -/
def FeedSt.scan (stops : List Bytes) (before : Nat) (st : FeedSt) : List Decoded → FeedSt
  | [] => st
  | d :: ds =>
    let text := st.held ++ [d.byte]
    let repls := st.repls + b2n d.repl
    match stopAtEnd stops text with
    | some (i, n) =>
      { st with out := st.out ++ text.take (text.length - n), held := [], carry := [], repls, stop := some (1 + i, d.used - before) }
    | none => FeedSt.scan stops before { st with held := text, repls } ds

/-- Releases all but the suffix that could still become a stop string. -/
def FeedSt.release (stops : List Bytes) (st : FeedSt) : FeedSt :=
  let n := holdLen stops st.held
  let k := st.held.length - n
  { st with out := st.out ++ st.held.take k, held := st.held.drop k }

/-- One token. (log 64, DEDUCED) -/
def FeedSt.token (stops : List Bytes) (tokens : List Token) (st : FeedSt) (id : Nat) : FeedSt :=
  match st.stop with
  | some _ => st
  | none =>
    let st := { st with count := st.count + 1, hist := st.hist ++ [id] }
    match tokens[id]? with
    | none => st
    | some t =>
      if t.final then
        { st with
          out := st.out ++ st.held ++ (if st.carry = [] then [] else [0xEF, 0xBF, 0xBD]), held := [], carry := []
          repls := st.repls + (if st.carry = [] then 0 else 1), stop := some (9, 0) }
      else if t.special then st
      else
        let input := st.carry ++ t.bytes
        let d := decodeText input.length 0 input
        let st' := FeedSt.scan stops st.carry.length { st with carry := d.2 } d.1
        match st'.stop with
        | some _ => st'
        | none => st'.release stops

/-- FINAL after the last token (R257, R258): a carried prefix becomes one U+FFFD, checked as other text, and all held text is
released. (log 64, DEDUCED) -/
def FeedSt.finish (stops : List Bytes) (last : Nat) (st : FeedSt) : FeedSt :=
  match st.stop with
  | some _ => st
  | none =>
    let st' := if st.carry = [] then st else FeedSt.scan stops 0 { st with carry := [] } (replacement last)
    match st'.stop with
    | some _ => st'
    | none => { st' with out := st'.out ++ st'.held, held := [] }

/-- Bytes of a token's string. (log 64, DEDUCED) -/
def tokenLen (tokens : List Token) (id : Nat) : Nat :=
  match tokens[id]? with
  | some t => t.bytes.length
  | none => 0

/-- A whole feed. -/
def runFeed (x : Stream) (tokens : List Token) (final : Bool) (ids : List Nat) : FeedSt :=
  let st := ids.foldl (FeedSt.token x.stops tokens) { carry := x.carry, held := x.held }
  if final then st.finish x.stops (tokenLen tokens (ids.getLastD 0)) else st

/-- STREAM_FEED. -/
def State.streamFeed (s : State) (f : Flight) (src : Dma) : State :=
  let n := f.u 20 4
  match s.streamOf f with
  | none => s.fixSt f.fid .invalid
  | some x =>
    if !(f.zero [(18, 2), (24, 8), (52, 76)]) || x.cut || x.stopped || decide (2 < f.u 16 1) || decide (1 < f.u 17 1)
      || !(inside 1 4096 n) || !(aligned64 (f.u 32 8)) || (f.u 16 1 == 2 && f.u 32 8 != 0) || !(aligned64 (f.u 40 8))
      || decide (f.u 48 4 < 384 * n + 72) || !(zeroAt f.cont (4 * n) (f.cont.length - 4 * n)) then s.fixSt f.fid .invalid
    else
      let r := s.readSrc f (f.u 16 1) (f.u 32 8) (4 * n) src 0
      match r.2 with
      | .stop st nt => r.1.stopAt f.fid st nt
      | .bytes bs =>
        let tokens := match tfind s.vocabs x.vocab with
          | some v => v.tokens
          | none => []
        let ids := words32 bs
        if !(ids.all fun i => decide (i < tokens.length)) then r.1.fixSt f.fid .invalid
        else
          let st := runFeed x tokens (f.u 17 1 == 1) ids
          let hist := x.history ++ st.hist
          let s := (r.1.modStream f.obj fun x => { x with
            carry := st.carry, held := st.held, stopped := st.stop.isSome, history := hist.drop (hist.length - 8) }).admitNow f.fid
          let s := (((s.result f 0 st.out).bumpBy 0x5048 st.count).bumpBy 0x5050 st.out.length).bumpBy 0x5058 st.repls
          let s := if st.stop.isSome then s.bump 0x5060 else s
          let stop := st.stop.getD (0, 0)
          s.fixOk f.fid st.count (st.out.length + stop.1 * 2 ^ 32 + stop.2 * 2 ^ 40)

/-- STREAM_FEED (R258). -/
def execStreamFeed (fid : Nat) (src : Dma) (s : State) : Host.Outcome State Fault Refusal :=
  work s (match s.ready? fid 0x621 with
    | some f => s.streamFeed f src
    | none => s)

/-! ## Drafting (R260, R261) -/

/-- Passages of a draft source: lengths, then token IDs back to back. -/
def passages : List Nat → List Nat → List (List Nat)
  | [], _ => []
  | n :: ns, ids => ids.take n :: passages ns (ids.drop n)

/-- DRAFT_SOURCE. -/
def State.draftSource (s : State) (f : Flight) (src : Dma) : State :=
  let np := f.u 16 1
  let n := f.u 20 4
  let size := roundUp (4 * np) 64 + 4 * n
  match s.streamOf f with
  | none => s.fixSt f.fid .invalid
  | some x =>
    if !(f.zero [(18, 2), (24, 8), (48, 80)]) || x.cut || !(inside 1 64 np) || decide (1 < f.u 17 1) || !(inside 1 65536 n)
      || f.u 40 8 != size then s.fixSt f.fid .invalid
    else
      let r := s.readSrc f (f.u 17 1) (f.u 32 8) size src 0
      match r.2 with
      | .stop st nt => r.1.stopAt f.fid st nt
      | .bytes bs =>
        let lens := words32 (slice bs 0 (4 * np))
        let ids := words32 (bs.drop (roundUp (4 * np) 64))
        let ntok := match tfind s.vocabs x.vocab with
          | some v => v.tokens.length
          | none => 0
        if !(zeroAt bs (4 * np) (roundUp (4 * np) 64 - 4 * np)) || !(lens.all fun l => decide (1 ≤ l))
          || lens.foldl (· + ·) 0 != n || !(ids.all fun i => decide (i < ntok)) then r.1.fixSt f.fid .invalid
        else
          match (r.1.freeInternal f.wing x.frames).allocInternal f.wing [(allStacks, cdiv size pageSize)] with
          | none => r.1.fixSt f.fid .noResource
          | some (t, frames) =>
            ((t.modStream f.obj fun x => { x with draft := some (passages lens ids), draftPages := cdiv size pageSize, frames }).admitNow
              f.fid).fixOk f.fid 0 0

/-- DRAFT_SOURCE (R260). -/
def execDraftSource (fid : Nat) (src : Dma) (s : State) : Host.Outcome State Fault Refusal :=
  work s (match s.ready? fid 0x630 with
    | some f => s.draftSource f src
    | none => s)

/-- The first occurrence of a key in passages with a token after it: passage index, position of that token. -/
def findKey (key : List Nat) (ps : List (List Nat)) : Option (Nat × Nat) :=
  ps.zipIdx.findSome? fun p =>
    ((List.range p.1.length).find? fun i => decide ((p.1.drop i).take key.length = key) && decide (i + key.length < p.1.length)).map
      fun i => (p.2, i + key.length)

/-- The match of R261: passage, position, matched length. (log 64, DEDUCED) -/
def draftMatch (hist : List Nat) (minLen : Nat) (ps : List (List Nat)) : Option (Nat × Nat × Nat) :=
  let m := min 8 hist.length
  ((List.range (m + 1)).reverse.filter fun l => decide (minLen ≤ l)).findSome? fun l =>
    (findKey (hist.drop (hist.length - l)) ps).map fun x => (x.1, x.2, l)

/-- DRAFT_PROPOSE. -/
def State.draftPropose (s : State) (f : Flight) : State :=
  match s.streamOf f with
  | none => s.fixSt f.fid .invalid
  | some x =>
    match x.draft with
    | none => s.fixSt f.fid .invalid
    | some ps =>
      if !(f.zero [(18, 22), (48, 80)]) || x.stopped || !(inside 1 8 (f.u 16 1)) || !(inside 1 16 (f.u 17 1))
        || !(aligned64 (f.u 40 8)) then s.fixSt f.fid .invalid
      else
        let s := s.admitNow f.fid
        match draftMatch x.history (f.u 16 1) ps with
        | none => (s.bump 0x5078).fixOk f.fid 0 0
        | some (p, pos, l) =>
          let ids := ((ps.getD p []).drop pos).take (f.u 17 1)
          ((s.result f 0 (ids.map fun i => natLe i 4).flatten).bumpBy 0x5070 ids.length).fixOk f.fid ids.length
            (p + l * 2 ^ 8 + pos * 2 ^ 16)

/-- DRAFT_PROPOSE (R261): it completes in this step, with INVALID or OK, and is counted (R263). -/
def execDraftPropose (fid : Nat) (s : State) : Host.Outcome State Fault Refusal :=
  work s (match s.ready? fid 0x631 with
    | some f => (s.bump 0x5068).draftPropose f
    | none => s)

end Sys2Proof.Machine
end

