-- ==== Sys2Proof/Machine/Dispatch.lean ====
section
/-! DEFINITION. One arm for each command: a direct call of its meaning. -/
namespace Sys2Proof.Machine
open Sys2Proof

/-- The effect of a command on everything but the queue. -/
def exec (i : Instr) (s : State) : Host.Outcome State Fault Refusal :=
  match i with
  | .regWrite src bar off width val => Sys2Proof.Machine.execRegWrite src bar off width val s
  | .regWriteLowHalfHold src off val => Sys2Proof.Machine.execRegWriteLowHalfHold src off val s
  | .regReadLowHalfCapture src off => Sys2Proof.Machine.execRegReadLowHalfCapture src off s
  | .mctpRegisterAccess isWrite off width val => Sys2Proof.Machine.execMctpRegisterAccess isWrite off width val s
  | .counterSnap src off alsoClear => Sys2Proof.Machine.execCounterSnap src off alsoClear s
  | .counterClear src off => Sys2Proof.Machine.execCounterClear src off s
  | .beatEdge => Sys2Proof.Machine.execBeatEdge s
  | .beatWindowClose => Sys2Proof.Machine.execBeatWindowClose s
  | .beatGeneratedBoundary => Sys2Proof.Machine.execBeatGeneratedBoundary s
  | .beatBoundary => Sys2Proof.Machine.execBeatBoundary s
  | .beatNextWrite src val => Sys2Proof.Machine.execBeatNextWrite src val s
  | .beatCfgWrite src val => Sys2Proof.Machine.execBeatCfgWrite src val s
  | .beatAnnounceSend => Sys2Proof.Machine.execBeatAnnounceSend s
  | .sliceResume wing prog => Sys2Proof.Machine.execSliceResume wing prog s
  | .policerTickRefill => Sys2Proof.Machine.execPolicerTickRefill s
  | .hpBwWindowEnd port => Sys2Proof.Machine.execHpBwWindowEnd port s
  | .descriptorTimeout fid => Sys2Proof.Machine.execDescriptorTimeout fid s
  | .brickWatchdogExpiry brick => Sys2Proof.Machine.execBrickWatchdogExpiry brick s
  | .hkWatchdogExpiry => Sys2Proof.Machine.execHkWatchdogExpiry s
  | .cellarBackgroundSchedule => Sys2Proof.Machine.execCellarBackgroundSchedule s
  | .tempHistoryHour temp => Sys2Proof.Machine.execTempHistoryHour temp s
  | .descriptorFetch raw cont => Sys2Proof.Machine.execDescriptorFetch raw cont s
  | .descriptorAdmit fid => Sys2Proof.Machine.execDescriptorAdmit fid s
  | .nopDescriptor fid => Sys2Proof.Machine.execNopDescriptor fid s
  | .cqEntrySend wing cq => Sys2Proof.Machine.execCqEntrySend wing cq s
  | .msixCoalesceExpiry wing cq => Sys2Proof.Machine.execMsixCoalesceExpiry wing cq s
  | .sqDoorbell port wing ring val => Sys2Proof.Machine.execSqDoorbell port wing ring val s
  | .cqDoorbell port wing ring val => Sys2Proof.Machine.execCqDoorbell port wing ring val s
  | .enableWriteOn src kind wing ring => Sys2Proof.Machine.execEnableWriteOn src kind wing ring s
  | .enableWriteOff src kind wing ring => Sys2Proof.Machine.execEnableWriteOff src kind wing ring s
  | .enableDrainEnd kind wing ring => Sys2Proof.Machine.execEnableDrainEnd kind wing ring s
  | .sqAbort src wing ring => Sys2Proof.Machine.execSqAbort src wing ring s
  | .wngAbort src wing => Sys2Proof.Machine.execWngAbort src wing s
  | .collCreate fid => Sys2Proof.Machine.execCollCreate fid s
  | .collLoad fid src => Sys2Proof.Machine.execCollLoad fid src s
  | .collOpen fid => Sys2Proof.Machine.execCollOpen fid s
  | .collValidationDone fid => Sys2Proof.Machine.execCollValidationDone fid s
  | .collDescribe fid => Sys2Proof.Machine.execCollDescribe fid s
  | .collDestroy fid => Sys2Proof.Machine.execCollDestroy fid s
  | .collDrainDone wing handle => Sys2Proof.Machine.execCollDrainDone wing handle s
  | .graphSearch fid query filt => Sys2Proof.Machine.execGraphSearch fid query filt s
  | .flatScan fid query filt ranges => Sys2Proof.Machine.execFlatScan fid query filt ranges s
  | .slotGrant fid => Sys2Proof.Machine.execSlotGrant fid s
  | .seedShard fid search shard => Sys2Proof.Machine.execSeedShard fid search shard s
  | .expandStep fid search shard => Sys2Proof.Machine.execExpandStep fid search shard s
  | .flatScanPage fid search shard => Sys2Proof.Machine.execFlatScanPage fid search shard s
  | .stackHandoffResult fid search shard => Sys2Proof.Machine.execStackHandoffResult fid search shard s
  | .mantelMergePass fid search shard => Sys2Proof.Machine.execMantelMergePass fid search shard s
  | .refineReadReturn fid search shard node res => Sys2Proof.Machine.execRefineReadReturn fid search shard node res s
  | .joinLists fid => Sys2Proof.Machine.execJoinLists fid s
  | .vecInsert fid src => Sys2Proof.Machine.execVecInsert fid src s
  | .vecDelete fid src => Sys2Proof.Machine.execVecDelete fid src s
  | .stagingSweep wing handle => Sys2Proof.Machine.execStagingSweep wing handle s
  | .versionPublish fid => Sys2Proof.Machine.execVersionPublish fid s
  | .csetDiscard fid => Sys2Proof.Machine.execCsetDiscard fid s
  | .versionRetire fid => Sys2Proof.Machine.execVersionRetire fid s
  | .mortarMerge wing handle node => Sys2Proof.Machine.execMortarMerge wing handle node s
  | .mortarTombApply wing handle node => Sys2Proof.Machine.execMortarTombApply wing handle node s
  | .mortarRepairSweep wing handle shard => Sys2Proof.Machine.execMortarRepairSweep wing handle shard s
  | .mortarPause src die on => Sys2Proof.Machine.execMortarPause src die on s
  | .memAttend fid query loc => Sys2Proof.Machine.execMemAttend fid query loc s
  | .kvCreate fid => Sys2Proof.Machine.execKvCreate fid s
  | .kvAppend fid src => Sys2Proof.Machine.execKvAppend fid src s
  | .kvAttend fid query loc => Sys2Proof.Machine.execKvAttend fid query loc s
  | .kvPrefetch fid => Sys2Proof.Machine.execKvPrefetch fid s
  | .kvTruncate fid => Sys2Proof.Machine.execKvTruncate fid s
  | .kvDestroy fid => Sys2Proof.Machine.execKvDestroy fid s
  | .ringAttend fid query => Sys2Proof.Machine.execRingAttend fid query s
  | .kvSpill wing handle layer shard => Sys2Proof.Machine.execKvSpill wing handle layer shard s
  | .kvPrefetchHoldExpiry wing handle layer shard page => Sys2Proof.Machine.execKvPrefetchHoldExpiry wing handle layer shard page s
  | .opAdd brick => Sys2Proof.Machine.execOpAdd brick s
  | .opSub brick => Sys2Proof.Machine.execOpSub brick s
  | .opAnd brick => Sys2Proof.Machine.execOpAnd brick s
  | .opOr brick => Sys2Proof.Machine.execOpOr brick s
  | .opXor brick => Sys2Proof.Machine.execOpXor brick s
  | .opShl brick => Sys2Proof.Machine.execOpShl brick s
  | .opShr brick => Sys2Proof.Machine.execOpShr brick s
  | .opSar brick => Sys2Proof.Machine.execOpSar brick s
  | .opMul brick => Sys2Proof.Machine.execOpMul brick s
  | .opAddi brick => Sys2Proof.Machine.execOpAddi brick s
  | .opMovhi brick => Sys2Proof.Machine.execOpMovhi brick s
  | .opSlt brick => Sys2Proof.Machine.execOpSlt brick s
  | .opSltu brick => Sys2Proof.Machine.execOpSltu brick s
  | .opSeq brick => Sys2Proof.Machine.execOpSeq brick s
  | .opLd brick => Sys2Proof.Machine.execOpLd brick s
  | .opSt brick => Sys2Proof.Machine.execOpSt brick s
  | .opLdw brick => Sys2Proof.Machine.execOpLdw brick s
  | .opStw brick => Sys2Proof.Machine.execOpStw brick s
  | .opBeqz brick => Sys2Proof.Machine.execOpBeqz brick s
  | .opBnez brick => Sys2Proof.Machine.execOpBnez brick s
  | .opJal brick => Sys2Proof.Machine.execOpJal brick s
  | .opJr brick => Sys2Proof.Machine.execOpJr brick s
  | .opHalt brick => Sys2Proof.Machine.execOpHalt brick s
  | .opWdog brick => Sys2Proof.Machine.execOpWdog brick s
  | .opRdcyc brick => Sys2Proof.Machine.execOpRdcyc brick s
  | .opRdbeat brick => Sys2Proof.Machine.execOpRdbeat brick s
  | .opFence brick => Sys2Proof.Machine.execOpFence brick s
  | .opClrsat brick => Sys2Proof.Machine.execOpClrsat brick s
  | .opSig brick => Sys2Proof.Machine.execOpSig brick s
  | .opWait brick => Sys2Proof.Machine.execOpWait brick s
  | .opTry brick => Sys2Proof.Machine.execOpTry brick s
  | .opRdl brick => Sys2Proof.Machine.execOpRdl brick s
  | .opSetl brick => Sys2Proof.Machine.execOpSetl brick s
  | .opMma8 brick => Sys2Proof.Machine.execOpMma8 brick s
  | .opMmaf8 brick => Sys2Proof.Machine.execOpMmaf8 brick s
  | .opMmab brick => Sys2Proof.Machine.execOpMmab brick s
  | .opAzero brick => Sys2Proof.Machine.execOpAzero brick s
  | .opAst brick => Sys2Proof.Machine.execOpAst brick s
  | .opCbset brick => Sys2Proof.Machine.execOpCbset brick s
  | .opLdot brick => Sys2Proof.Machine.execOpLdot brick s
  | .opDeq brick => Sys2Proof.Machine.execOpDeq brick s
  | .opQuant brick => Sys2Proof.Machine.execOpQuant brick s
  | .opQpriv brick => Sys2Proof.Machine.execOpQpriv brick s
  | .opRescale brick => Sys2Proof.Machine.execOpRescale brick s
  | .opVld brick => Sys2Proof.Machine.execOpVld brick s
  | .opVst brick => Sys2Proof.Machine.execOpVst brick s
  | .opVop brick => Sys2Proof.Machine.execOpVop brick s
  | .opVred brick => Sys2Proof.Machine.execOpVred brick s
  | .opMget brick => Sys2Proof.Machine.execOpMget brick s
  | .opMput brick => Sys2Proof.Machine.execOpMput brick s
  | .opMgather brick => Sys2Proof.Machine.execOpMgather brick s
  | .opMfill brick => Sys2Proof.Machine.execOpMfill brick s
  | .opPsend brick => Sys2Proof.Machine.execOpPsend brick s
  | .opPhead brick => Sys2Proof.Machine.execOpPhead brick s
  | .opPtake brick => Sys2Proof.Machine.execOpPtake brick s
  | .opPdrop brick => Sys2Proof.Machine.execOpPdrop brick s
  | .opPbind brick => Sys2Proof.Machine.execOpPbind brick s
  | .postPacketDeliver packet => Sys2Proof.Machine.execPostPacketDeliver packet s
  | .progLoad fid src => Sys2Proof.Machine.execProgLoad fid src s
  | .progStart fid => Sys2Proof.Machine.execProgStart fid s
  | .progWait fid => Sys2Proof.Machine.execProgWait fid s
  | .progStop fid => Sys2Proof.Machine.execProgStop fid s
  | .progPost fid src => Sys2Proof.Machine.execProgPost fid src s
  | .progUnload fid => Sys2Proof.Machine.execProgUnload fid s
  | .textCut fid src => Sys2Proof.Machine.execTextCut fid src s
  | .vocabLoad fid src => Sys2Proof.Machine.execVocabLoad fid src s
  | .vocabDrop fid => Sys2Proof.Machine.execVocabDrop fid s
  | .streamOpen fid src => Sys2Proof.Machine.execStreamOpen fid src s
  | .streamFeed fid src => Sys2Proof.Machine.execStreamFeed fid src s
  | .streamClose fid => Sys2Proof.Machine.execStreamClose fid s
  | .draftSource fid src => Sys2Proof.Machine.execDraftSource fid src s
  | .draftPropose fid => Sys2Proof.Machine.execDraftPropose fid s
  | .tierAlloc fid => Sys2Proof.Machine.execTierAlloc fid s
  | .tierAllocZeroDone fid => Sys2Proof.Machine.execTierAllocZeroDone fid s
  | .tierFree fid => Sys2Proof.Machine.execTierFree fid s
  | .tierFreeRelease fid => Sys2Proof.Machine.execTierFreeRelease fid s
  | .tierPin fid => Sys2Proof.Machine.execTierPin fid s
  | .tierPinRetry fid => Sys2Proof.Machine.execTierPinRetry fid s
  | .cxlMemRead port dpa tag own bi => Sys2Proof.Machine.execCxlMemRead port dpa tag own bi s
  | .cxlMemWrite port dpa tag line bi => Sys2Proof.Machine.execCxlMemWrite port dpa tag line bi s
  | .pageFillDone wing page => Sys2Proof.Machine.execPageFillDone wing page s
  | .writeBackDone wing page => Sys2Proof.Machine.execWriteBackDone wing page s
  | .backgroundClean wing page => Sys2Proof.Machine.execBackgroundClean wing page s
  | .tierAccessLate access => Sys2Proof.Machine.execTierAccessLate access s
  | .tptPeekAddrWrite src val => Sys2Proof.Machine.execTptPeekAddrWrite src val s
  | .stkOpen fid => Sys2Proof.Machine.execStkOpen fid s
  | .stkOpenCheckDone fid bad => Sys2Proof.Machine.execStkOpenCheckDone fid bad s
  | .stkSeal fid => Sys2Proof.Machine.execStkSeal fid s
  | .stkSealDone stack region => Sys2Proof.Machine.execStkSealDone stack region s
  | .stkScan fid aux => Sys2Proof.Machine.execStkScan fid aux s
  | .stkBitmap fid aux => Sys2Proof.Machine.execStkBitmap fid aux s
  | .stkAdd fid rows aux => Sys2Proof.Machine.execStkAdd fid rows aux s
  | .stkReduce fid => Sys2Proof.Machine.execStkReduce fid s
  | .stkCopy fid => Sys2Proof.Machine.execStkCopy fid s
  | .stkFill fid => Sys2Proof.Machine.execStkFill fid s
  | .stkOpDispatch stack => Sys2Proof.Machine.execStkOpDispatch stack s
  | .bankSliceEnd stack unit => Sys2Proof.Machine.execBankSliceEnd stack unit s
  | .refreshDue stack unit => Sys2Proof.Machine.execRefreshDue stack unit s
  | .stkOpComplete stack op => Sys2Proof.Machine.execStkOpComplete stack op s
  | .wngFlushDoneWrite src wing val => Sys2Proof.Machine.execWngFlushDoneWrite src wing val s
  | .stkRegionSelWrite src stack val => Sys2Proof.Machine.execStkRegionSelWrite src stack val s
  | .embCreate fid => Sys2Proof.Machine.execEmbCreate fid s
  | .embWrite fid src => Sys2Proof.Machine.execEmbWrite fid src s
  | .embDestroy fid => Sys2Proof.Machine.execEmbDestroy fid s
  | .embGather fid idx next => Sys2Proof.Machine.execEmbGather fid idx next s
  | .embUpdate fid src => Sys2Proof.Machine.execEmbUpdate fid src s
  | .pantrySet fid src => Sys2Proof.Machine.execPantrySet fid src s
  | .embMigrate fid src => Sys2Proof.Machine.execEmbMigrate fid src s
  | .embStats fid => Sys2Proof.Machine.execEmbStats fid s
  | .celDiscard fid => Sys2Proof.Machine.execCelDiscard fid s
  | .celSync fid => Sys2Proof.Machine.execCelSync fid s
  | .celCommitDone fid => Sys2Proof.Machine.execCelCommitDone fid s
  | .celHealth fid => Sys2Proof.Machine.execCelHealth fid s
  | .celShutdown src => Sys2Proof.Machine.execCelShutdown src s
  | .celShutdownComplete => Sys2Proof.Machine.execCelShutdownComplete s
  | .flashOpIssue die => Sys2Proof.Machine.execFlashOpIssue die s
  | .flashReadDone op corrected retried => Sys2Proof.Machine.execFlashReadDone op corrected retried s
  | .flashProgramDone op failed => Sys2Proof.Machine.execFlashProgramDone op failed s
  | .garbageCollect die => Sys2Proof.Machine.execGarbageCollect die s
  | .readRelocate block => Sys2Proof.Machine.execReadRelocate block s
  | .mapSegmentWrite => Sys2Proof.Machine.execMapSegmentWrite s
  | .journalWrite => Sys2Proof.Machine.execJournalWrite s
  | .journalFlushTimer => Sys2Proof.Machine.execJournalFlushTimer s
  | .cellarMountDone ok => Sys2Proof.Machine.execCellarMountDone ok s
  | .linkTrainDone width rate cxl => Sys2Proof.Machine.execLinkTrainDone width rate cxl s
  | .bisnpResponse snoop data => Sys2Proof.Machine.execBisnpResponse snoop data s
  | .biSnoopTimeout snoop => Sys2Proof.Machine.execBiSnoopTimeout snoop s
  | .hpCtrlFail src port => Sys2Proof.Machine.execHpCtrlFail src port s
  | .hpEnWrite src port en => Sys2Proof.Machine.execHpEnWrite src port en s
  | .hpDrainEnd port => Sys2Proof.Machine.execHpDrainEnd port s
  | .hpGrantWrite src port val => Sys2Proof.Machine.execHpGrantWrite src port val s
  | .hpWinValidSet src port win val => Sys2Proof.Machine.execHpWinValidSet src port win val s
  | .hpWinValidClear src port win val => Sys2Proof.Machine.execHpWinValidClear src port win val s
  | .hostHandover fid => Sys2Proof.Machine.execHostHandover fid s
  | .linkDown => Sys2Proof.Machine.execLinkDown s
  | .perstAssert => Sys2Proof.Machine.execPerstAssert s
  | .perstRelease => Sys2Proof.Machine.execPerstRelease s
  | .ldReset port => Sys2Proof.Machine.execLdReset port s
  | .getLdInfo path => Sys2Proof.Machine.execGetLdInfo path s
  | .getLdAllocations path => Sys2Proof.Machine.execGetLdAllocations path s
  | .getQosControl path => Sys2Proof.Machine.execGetQosControl path s
  | .getQosStatus path => Sys2Proof.Machine.execGetQosStatus path s
  | .getQosAllocatedBw path => Sys2Proof.Machine.execGetQosAllocatedBw path s
  | .getQosBwLimit path port => Sys2Proof.Machine.execGetQosBwLimit path port s
  | .setQosBwLimit path port num den => Sys2Proof.Machine.execSetQosBwLimit path port num den s
  | .setLdAllocations path => Sys2Proof.Machine.execSetLdAllocations path s
  | .setQosControl path => Sys2Proof.Machine.execSetQosControl path s
  | .setQosAllocatedBw path => Sys2Proof.Machine.execSetQosAllocatedBw path s
  | .unsupportedCommand path code => Sys2Proof.Machine.execUnsupportedCommand path code s
  | .identify path ld => Sys2Proof.Machine.execIdentify path ld s
  | .getHealthInfo path ld => Sys2Proof.Machine.execGetHealthInfo path ld s
  | .getEventRecords path ld log => Sys2Proof.Machine.execGetEventRecords path ld log s
  | .clearEventRecords path ld log count => Sys2Proof.Machine.execClearEventRecords path ld log count s
  | .setEventInterruptPolicy path noInterrupts => Sys2Proof.Machine.execSetEventInterruptPolicy path noInterrupts s
  | .policerConfigWrite src off val => Sys2Proof.Machine.execPolicerConfigWrite src off val s
  | .wngBrickWrite src wing n val => Sys2Proof.Machine.execWngBrickWrite src wing n val s
  | .bpEnWrite src port en => Sys2Proof.Machine.execBpEnWrite src port en s
  | .bpDrainEnd port => Sys2Proof.Machine.execBpDrainEnd port s
  | .bpRetrain src port => Sys2Proof.Machine.execBpRetrain src port s
  | .bruviaLinkDown port => Sys2Proof.Machine.execBruviaLinkDown port s
  | .bruviaTrainDone port => Sys2Proof.Machine.execBruviaTrainDone port s
  | .flitCrcFail port flit => Sys2Proof.Machine.execFlitCrcFail port flit s
  | .bruviaAckTimeout port => Sys2Proof.Machine.execBruviaAckTimeout port s
  | .linkCtlSendTimer port => Sys2Proof.Machine.execLinkCtlSendTimer port s
  | .bruviaLostTimeout port => Sys2Proof.Machine.execBruviaLostTimeout port s
  | .idleFrame port frame => Sys2Proof.Machine.execIdleFrame port frame s
  | .linkCtl port frame => Sys2Proof.Machine.execLinkCtl port frame s
  | .epochFrame port frame => Sys2Proof.Machine.execEpochFrame port frame s
  | .identHello port frame => Sys2Proof.Machine.execIdentHello port frame s
  | .identProof port frame => Sys2Proof.Machine.execIdentProof port frame s
  | .identVerifyDone port ok => Sys2Proof.Machine.execIdentVerifyDone port ok s
  | .beatAnnounce port frame => Sys2Proof.Machine.execBeatAnnounce port frame s
  | .healthFrame port frame => Sys2Proof.Machine.execHealthFrame port frame s
  | .healthSend port => Sys2Proof.Machine.execHealthSend port s
  | .annexGrantReq port frame => Sys2Proof.Machine.execAnnexGrantReq port frame s
  | .annexGrant port frame => Sys2Proof.Machine.execAnnexGrant port frame s
  | .annexRelease port frame => Sys2Proof.Machine.execAnnexRelease port frame s
  | .refuseFrame port frame => Sys2Proof.Machine.execRefuseFrame port frame s
  | .fanoutFrame port frame => Sys2Proof.Machine.execFanoutFrame port frame s
  | .resultPart port frame => Sys2Proof.Machine.execResultPart port frame s
  | .ringBlock port frame => Sys2Proof.Machine.execRingBlock port frame s
  | .annexRd port frame => Sys2Proof.Machine.execAnnexRd port frame s
  | .annexWr port frame => Sys2Proof.Machine.execAnnexWr port frame s
  | .annexRowRd port frame => Sys2Proof.Machine.execAnnexRowRd port frame s
  | .annexAtom port frame => Sys2Proof.Machine.execAnnexAtom port frame s
  | .rowMigrate port frame => Sys2Proof.Machine.execRowMigrate port frame s
  | .inputStartThreshold => Sys2Proof.Machine.execInputStartThreshold s
  | .pwrEnAssert => Sys2Proof.Machine.execPwrEnAssert s
  | .pwrEnDeassert => Sys2Proof.Machine.execPwrEnDeassert s
  | .powerUpDelayExpiry => Sys2Proof.Machine.execPowerUpDelayExpiry s
  | .railsGood straps => Sys2Proof.Machine.execRailsGood straps s
  | .powerFailure => Sys2Proof.Machine.execPowerFailure s
  | .flushComplete => Sys2Proof.Machine.execFlushComplete s
  | .bankCharged => Sys2Proof.Machine.execBankCharged s
  | .bankMeasure joules => Sys2Proof.Machine.execBankMeasure joules s
  | .bankOkTimeout => Sys2Proof.Machine.execBankOkTimeout s
  | .powerSample mean100us mean1s vin => Sys2Proof.Machine.execPowerSample mean100us mean1s vin s
  | .thermalThreshold sensor temp => Sys2Proof.Machine.execThermalThreshold sensor temp s
  | .thermalTrip sensor => Sys2Proof.Machine.execThermalTrip sensor s
  | .imageVerifyDone image => Sys2Proof.Machine.execImageVerifyDone image s
  | .floorTrainDone failed => Sys2Proof.Machine.execFloorTrainDone failed s
  | .getFwInfo path => Sys2Proof.Machine.execGetFwInfo path s
  | .transferFw path action slot off data => Sys2Proof.Machine.execTransferFw path action slot off data s
  | .bootAreaWriteDone => Sys2Proof.Machine.execBootAreaWriteDone s
  | .activateFw path online slot => Sys2Proof.Machine.execActivateFw path online slot s
  | .profSetFirstWord src val => Sys2Proof.Machine.execProfSetFirstWord src val s
  | .profSetSubmit src val => Sys2Proof.Machine.execProfSetSubmit src val s
  | .rstCtrlModule src key => Sys2Proof.Machine.execRstCtrlModule src key s
  | .mctpModuleReset => Sys2Proof.Machine.execMctpModuleReset s
  | .glbSetupClose src => Sys2Proof.Machine.execGlbSetupClose src s
  | .getVersion path => Sys2Proof.Machine.execGetVersion path s
  | .getCapabilities path => Sys2Proof.Machine.execGetCapabilities path s
  | .negotiateAlgorithms path => Sys2Proof.Machine.execNegotiateAlgorithms path s
  | .getDigests path => Sys2Proof.Machine.execGetDigests path s
  | .getCertificate path slot off len => Sys2Proof.Machine.execGetCertificate path slot off len s
  | .challenge path nonce => Sys2Proof.Machine.execChallenge path nonce s
  | .getMeasurements path index signed => Sys2Proof.Machine.execGetMeasurements path index signed s
  | .spdmSignDone => Sys2Proof.Machine.execSpdmSignDone s
  | .stackRecover src stack byHousekeeper => Sys2Proof.Machine.execStackRecover src stack byHousekeeper s
  | .channelRecover src channel byHousekeeper => Sys2Proof.Machine.execChannelRecover src channel byHousekeeper s
  | .channelTrainDone channel ok => Sys2Proof.Machine.execChannelTrainDone channel ok s
  | .errInjectArm src val => Sys2Proof.Machine.execErrInjectArm src val s
  | .patrolScrub line ecc => Sys2Proof.Machine.execPatrolScrub line ecc s
  | .fatalStop cause => Sys2Proof.Machine.execFatalStop cause s
  | .wngErrEnable src wing val => Sys2Proof.Machine.execWngErrEnable src wing val s
  | .bruviaSignalDetect port => Sys2Proof.Machine.execBruviaSignalDetect port s

end Sys2Proof.Machine
end

