-- ==== Sys2Proof/Machine/Tick.lean ====
section
/-!
DEFINITION. What passes while no command waits: one cycle of the arithmetic clock (R2, R29), with the counters of cycles.
-/
namespace Sys2Proof.Machine
open Sys2Proof

/-- Adds 1 to a counter of cycles in which something holds. -/
def State.bumpIf (s : State) (c : Bool) (off : Nat) : State := if c then s.bump off else s

/-- Whether a KV page read of a request on pipeline p, that missed the window cache, is outstanding (R185, Table 07-7).
(log 48, DEDUCED) -/
def State.kvMissed (s : State) (p : Nat) : Bool :=
  s.accesses.any fun a => a.cause == 2 && s.stillOut a && (match a.fid with
    | some fid => s.reqs.any fun r => r.fid == fid && (match tfind s.sessions r.key with
        | some e => r.pipes[e.winShard a.page]? == some p
        | none => false)
    | none => false)

/-- Pipelines (Tables 04-9, 07-7): a query waits for its grant and needs this pipeline's Hall die; a refine read is outstanding; a KV
page read missed. -/
def State.tickPipe (s : State) (p : Nat) : State :=
  let waits := s.reqs.any fun r => r.waiting && r.dies.contains (p / 2)
  let reads := s.reqs.any fun r => r.searches.any fun x => x.shards.any fun q => q.pipe == p && !q.refineWait.isEmpty
  ((s.bumpIf waits (spReg p 0x50)).bumpIf reads (spReg p 0xB0)).bumpIf (s.kvMissed p) (spReg p 0x140)

/-- KV blocks (Table 07-8): a ring buffer on the die holds pages of a RING_ID that is not admitted. -/
def State.tickKv (s : State) (d : Nat) : State :=
  s.bumpIf ((List.range 6).any fun p => ringDie p == d && (s.bp p).ringBuf.any fun x => (s.ringReq p x.wing x.ringId).isNone) (kvReg d 0x78)

/-- Host ports (Table 15-8): a request waits on the limit. -/
def State.tickPort (s : State) (p : Nat) : State := s.bumpIf (!(s.port p).queue.isEmpty) (hpReg p 0x50)

/-- Bruvia ports (R437): a frame at the head of its channel waits for credits. -/
def State.tickBp (s : State) (p : Nat) : State := s.bumpIf (s.bp p).creditWait (bpReg p 0xA0)

/-- Bricks (Table 09-13): an engine waits on a latch. -/
def State.tickBrick (s : State) (b : Nat) : State :=
  let waits := match s.run? b with
    | some r => (List.range 5).any fun e => (r.waits e).any fun l => !(r.canTake e l)
    | none => false
  s.bumpIf waits (brkReg b 0x78)

/-- Causes for which an access of a wing is stalled (R288). -/
def State.stallsOf (s : State) (w : Nat) : List Nat :=
  (List.range 8).filter fun c => s.accesses.any fun a => a.wing == w && a.stalled && a.cause == c && s.stillOut a

/-- A cycle in which a wing had a descriptor in flight, or an access stalled (Table 18-8). -/
def WingBeat.cycle (busy stalled : Bool) (x : WingBeat) : WingBeat := { x with busy := x.busy + b2n busy, stall := x.stall + b2n stalled }

/-- Wings (Tables 11-6, 16-7, 18-8): stalls by cause, rings that had work but no place or no completion slot, the beat's figures. -/
def State.tickWing (s : State) (w : Nat) : State :=
  let causes := s.stallsOf w
  let work := (List.range 64).filter fun q => s.sqWork w q
  let noPlace := work.any fun q => !(s.hasPlace w q)
  let noSlot := work.any fun q => !(s.cqRoom w (sqCq (s.sqCfg w q)))
  let busy := !(s.wingFlights w).isEmpty
  let s := causes.foldl (fun s c => s.bump (wngReg w (0x2108 + 16 * c))) s
  ((s.bumpIf noPlace (wngReg w 0x70)).bumpIf noSlot (wngReg w 0x78)).modWingBeat w (WingBeat.cycle busy (!causes.isEmpty))

/-- The shard of a search whose access this is, as search * 16 + shard: by its tag; any other access counts as one more. -/
def Req.stalledShard (r : Req) (a : Access) : Nat :=
  let t := a.tag / 4
  if a.tag % 4 = 1 then
    t / 2 ^ 36 * 16 + t % 2 ^ 36 % (match r.searches[t / 2 ^ 36]? with
      | some x => max 1 x.shards.length
      | none => 1)
  else if a.tag % 4 = 2 then t
  else 2 ^ 60

/-- The stall cycles of a descriptor in one cycle: one for each shard with a stalled access (Table 04-6). -/
def stalledCycle (s : State) (f : Flight) : Flight :=
  let l := s.accesses.filter fun a => a.stalled && a.fid == some f.fid && s.stillOut a
  let shards := match s.req? f.fid with
    | some r => (l.map r.stalledShard).foldl insertNew []
    | none => [0]
  { f with stallCyc := f.stallCyc + (if l.isEmpty then 0 else shards.length) }

/-- The counters of one cycle, by the state as it stands. (log 1, DESIGN CHOICE) -/
def State.countCycle (s : State) : State :=
  let s := { s with flights := s.flights.map (stalledCycle s) }
  let s := (List.range 8).foldl State.tickPipe s
  let s := (List.range 4).foldl State.tickKv s
  let s := (List.range 8).foldl State.tickPort s
  let s := (List.range 6).foldl State.tickBp s
  let s := (s.bricks.map Prod.fst).foldl State.tickBrick s
  let s := (List.range 16).foldl State.tickWing s
  ((s.bumpIf s.creditHeld 0x6050).bumpIf s.power.limit 0x1040).bumpIf (!s.power.throttles.isEmpty) 0x1050

/-- What the clock brings to the Floor controllers: slices that have lasted 1,800 ns end (R314), and after a refresh the accesses that
waited start (R420). -/
def State.floorTick (s : State) : State :=
  let s := s.endSlices
  if s.refreshTill.any fun e => e.2 == s.cyc then s.retryMem else s

/-- One cycle (R29). The cycle count goes on without rails as the model's time base; a module reset sets it to 0.
(log 1, DESIGN CHOICE) (log 117, DESIGN CHOICE) -/
def tick (s : State) : State :=
  if s.power.rails = .good then
    let t := { s.countCycle with cyc := s.cyc + 1 }
    t.within t.stopAllFailed.floorTick
  else { s with cyc := s.cyc + 1 }

end Sys2Proof.Machine
end

