-- ==== Sys2Proof/Safety.lean ====
section
/-!
DEFINITION. What a safe state is: stored registers in their canonical form, with reserved bits 0 (R10). The words that the statements use
for what a command answers and for how a descriptor stands.
-/
namespace Sys2Proof
open Sys2Proof.Machine

/-- The invariant that every step keeps. -/
def Safe (s : State) : Prop := regsWf s.regs = true

/-- A command answers a next state that has a property. -/
def Answers (c : Instr) (s : State) (P : State → Prop) : Prop := ∃ t, exec c s = .next t ∧ P t

/-! ## Who is heard (R363, R365, R366, R479, R496, R511, R514) -/

/-- The rails are good and a requester's path carries register accesses: MCTP (8) once LINK has been reached, a logical device while CXL is
negotiated and no fatal stop stands. -/
def Hearing (s : State) (src : Nat) : Prop :=
  s.power.rails = .good ∧
    ((src = 8 ∧ s.link.everTrained = true) ∨ (src ≠ 8 ∧ s.link.cxl = true ∧ s.err.fatal = false))

/-- The set-up device (0) or MCTP (8) is heard. -/
def SetUpHeard (s : State) (src : Nat) : Prop := Hearing s src ∧ (src = 0 ∨ src = 8)

/-- The same, at READY, as a write to a host-port or Bruvia block needs. -/
def PortHeard (s : State) (src : Nat) : Prop := SetUpHeard s src ∧ s.boot.phase = 6

/-- A requester reaches a wing: the set-up device and MCTP every one, a logical device those that its port's `HP_GRANT` grants. -/
def Reaches (s : State) (src w : Nat) : Prop := src = 0 ∨ src = 8 ∨ bit (s.reg (hpReg src 0x10)) w = true

/-- A requester that is heard and reaches a wing, at READY. -/
def WingHeard (s : State) (src w : Nat) : Prop := Hearing s src ∧ Reaches s src w ∧ s.boot.phase = 6

/-- A requester that is heard and sees a register. -/
def RegSeen (s : State) (src off : Nat) : Prop :=
  Hearing s src ∧ match (locate off).1 with
    | .wng w => Reaches s src w
    | .none => False
    | _ => src = 0 ∨ src = 8

/-- A requester whose write to a register is taken: it sees the register, and a wing, host-port or Bruvia block only at READY. -/
def RegHeard (s : State) (src off : Nat) : Prop :=
  RegSeen s src off ∧ match (locate off).1 with
    | .wng _ => s.boot.phase = 6
    | .hp _ => s.boot.phase = 6
    | .bp _ => s.boot.phase = 6
    | _ => True

/-- A register that a write just stores, with a value its table allows as the state stands: the time and address
registers of the error block, tier, Cellar, host-port and Bruvia settings, HANDOFF_MAX, base and configuration of a DISABLED ring, and the
quota, embedding, in-flight and error-ring registers of a wing. -/
def Stores (s : State) (off val : Nat) : Prop :=
  (off = 0x2018 ∧ 1000 ≤ bits val 15 0 ∧ bits val 15 0 ≤ 60000) ∨ (off = 0x2028 ∧ s.boot.setupClosed = false) ∨
  (off = 0x3000 ∧ bits val 3 0 ≤ 10 ∧ 1 ≤ bits val 15 8) ∨
  (off = 0x4008 ∧ 10 ≤ bits val 9 0 ∧ bits val 9 0 ≤ 1000 ∧ 1 ≤ bits val 19 16) ∨
  (∃ p, p < 8 ∧ off = hpReg p 0x20 ∧ 1 ≤ bits val 9 0 ∧ bits val 9 0 ≤ 1000) ∨
  (∃ p, p < 6 ∧ ((off = bpReg p 0x18 ∧ bits val 21 0 ≤ 2097152) ∨
    (off = bpReg p 0x10 ∧ (s.bp p).en = .disabled ∧ 1 ≤ bits val 15 8 ∧ 10 ≤ bits val 31 16 ∧ bits val 31 16 ≤ 60000) ∨
    ((off = bpReg p 0x20 ∨ off = bpReg p 0x28 ∨ ∃ k, k < 4 ∧ off = bpReg p (0x100 + 8 * k)) ∧ (s.bp p).en = .disabled))) ∨
  (∃ i, i < 12 ∧ isCompute i = true ∧ off = stkReg i 0x1000 ∧ bits val 10 0 ≤ 1024) ∨
  (∃ w r, w < 16 ∧ r < 64 ∧ (s.sq w r).en = .disabled ∧ (off = sqReg w r 0 ∨
    (off = sqReg w r 8 ∧ 4 ≤ bits val 4 0 ∧ bits val 4 0 ≤ 16 ∧ bits val 30 16 ≤ 16384 ∧ 1 ≤ bits val 55 32 ∧ bits val 55 32 ≤ 10000000))) ∨
  (∃ w r, w < 16 ∧ r < 64 ∧ (s.cq w r).en = .disabled ∧ (off = cqReg w r 0 ∨
    (off = cqReg w r 8 ∧ 4 ≤ bits val 4 0 ∧ bits val 4 0 ≤ 16 ∧ bits val 9 8 ≠ 3))) ∨
  (∃ w, w < 16 ∧ ((off = wngReg w 0x2008 ∧ bits val 59 32 ≤ 106811523) ∨ (off = wngReg w 0x2308 ∧ bits val 23 16 ≤ 128) ∨
    (off = wngReg w 0x2808 ∧ bits val 9 0 ≤ 960) ∨ (off = wngReg w 0x3800 ∧ bit (s.reg (wngReg w 0x3808)) 4 = false) ∨
    off = wngReg w 0x3810))

/-- The width of the register that starts at an offset. -/
def HasWidth (off width : Nat) : Prop := (regAt off).map RegInfo.width = some width

/-! ## How a descriptor stands -/

/-- A descriptor's completion is fixed, with a status, a count and an inline result. -/
def Completed (t : State) (fid : Nat) (st : Status) (count result : Nat) : Prop :=
  ∃ f, t.flight? fid = some f ∧ f.phase = .done ∧ ∃ c, f.cpl = some c ∧ c.status = st ∧ c.count = count ∧ c.result = result

/-- A descriptor has passed its checks: it is admitted in a cycle, and its completion is still open. -/
def Admitted (t : State) (fid cyc : Nat) : Prop := ∃ f, t.flight? fid = some f ∧ f.phase = .active ∧ f.admitCyc = some cyc

/-- A target beat that may be scheduled (R41): the number is set, the beat at least two later, and the event table has room. -/
def BeatFree (s : State) (target : Nat) : Prop :=
  ∃ c, s.beat.number = some c ∧ c + 2 ≤ target ∧ s.beat.sched.length < 1024

/-- The n bytes of a source, and the state after it was read: a host's bytes over a port that has not failed, continuation entries of the
descriptor from `off` on, nothing at all, or what a read of the wing's tier ranges gives (R80, R279, R389). -/
def Source (s u : State) (f : Flight) (kind a n : Nat) (d : Dma) (off : Nat) (bs : Bytes) : Prop :=
  (u = s ∧ n = 0 ∧ bs = []) ∨
  (u = s ∧ kind = 0 ∧ 0 < n ∧ (s.port (s.flightPort f)).st ≠ .failed ∧ ∃ b, d = .ok b ∧ bs = slice b 0 n) ∨
  (u = s ∧ kind ≠ 0 ∧ kind ≠ 1 ∧ 0 < n ∧ bs = slice f.cont off n) ∨
  (kind = 1 ∧ 0 < n ∧ s.readRange { fid := some f.fid } f.wing a n = (u, .bytes bs))

/-- Two sources, the second behind the first where both are inline, with 0 after each in its last entry (R80). -/
def Sources (s u : State) (f : Flight) (k1 a1 n1 : Nat) (d1 : Dma) (k2 a2 n2 : Nat) (d2 : Dma) (b1 b2 : Bytes) : Prop :=
  (∃ m, Source s m f k1 a1 n1 d1 0 b1 ∧ Source m u f k2 a2 n2 d2 (if k1 = 2 then 128 * cdiv n1 128 else 0) b2) ∧
  (k1 = 2 → zeroAt f.cont n1 (128 * cdiv n1 128 - n1) = true) ∧
  (k2 = 2 → zeroAt f.cont ((if k1 = 2 then 128 * cdiv n1 128 else 0) + n2) (128 * cdiv n2 128 - n2) = true)

/-- Room for n Floor pages and c Cellar pages of a wing (R285, R340): its quotas and the user area have them, every stack has n free frames. -/
def Room (s : State) (w n c : Nat) : Prop :=
  s.floorUse w + n ≤ s.floorQuota w ∧ (∀ i, i < 12 → n ≤ s.stackFree w i) ∧
    s.cellarUse w + c ≤ s.cellarQuota w ∧ s.cellarTotal + c ≤ 106811523

/-- Room for n Floor pages of a wing, wherever in Floor they go (R285). -/
def FloorRoom (s : State) (w n : Nat) : Prop := s.floorUse w + n ≤ s.floorQuota w ∧ ∀ i, i < 12 → n ≤ s.stackFree w i

/-- A wing may replace or drop a vocabulary slot: it is empty, or the wing's own and named by no stream that detokenises (R248). -/
def SlotFree (s : State) (w slot : Nat) : Prop :=
  ∀ v, tfind s.vocabs slot = some v → v.wing = w ∧ ∀ e ∈ s.streams, e.2.cut = true ∨ e.2.vocab ≠ slot

/-- No access to Floor waits for a sealing region or for a refresh (R297, R420). -/
def FloorOpen (s : State) : Prop := (∀ k, (s.region k).st ≠ .sealing) ∧ ∀ k, tget 0 s.refreshTill k ≤ s.cyc

/-- Class of an operation whose part waits in a bank unit, 8 where there is none such (R314). -/
def partClass (s : State) (id : Nat) : Nat := ((s.stkOps.find? fun o => o.id == id).map StkOp.cls).getD 8

/-- Nothing waits for a page: no host request, no pin, no ring request for its own block (R191, R272, R279). -/
def NoWaiters (s : State) : Prop :=
  s.memWaits = [] ∧ s.pins = [] ∧ ∀ r ∈ s.reqs, r.opcode = 0x318 → r.waiting = true ∨ r.ringStep ≠ 0

/-- The tier reads that a descriptor made under a tag are over: their answers came, none failed, no fill is under way (R279, R287). -/
def ReadsOver (s : State) (fid tag : Nat) : Prop :=
  ∀ a ∈ s.accesses, a.fid = some fid → a.tag = tag → a.left = 0 ∧ a.failed = false ∧ (s.page a.wing a.page).filling = false

/-- A descriptor has made no read for a write of its own (R345). -/
def NoMerge (s : State) (fid : Nat) : Prop := ∀ a ∈ s.accesses, a.fid = some fid → a.tag < 2 ^ 64

/-- A ring that Intake may fetch from (R389, R397, R398): it, its wing, its completion ring and its host port are ENABLED, TAIL covers what
its next descriptor is known to need, the completion ring has a free slot and the wing an in-flight place. -/
def MayFetch (s : State) (w q : Nat) : Prop :=
  (s.sq w q).en = .enabled ∧ s.wingSt w = .enabled ∧ (s.cq w (sqCq (s.sqCfg w q))).en = .enabled ∧
    (s.port (sqPort (s.sqCfg w q))).st = .enabled ∧ 0 < s.sqAvail w q ∧ (s.sq w q).needs ≤ s.sqAvail w q ∧
    s.cqUsed w (sqCq (s.sqCfg w q)) + s.cqReserved w (sqCq (s.sqCfg w q)) < sqSize (s.cqCfg w (sqCq (s.sqCfg w q))) ∧
    s.hasPlace w q = true

/-- The one ring of the highest class that Intake may fetch from, while neither a fatal stop nor a flush holds Intake. -/
def TurnOf (s : State) (w q : Nat) : Prop :=
  s.err.fatal = false ∧ s.power.flush = none ∧ w < 16 ∧ q < 64 ∧ MayFetch s w q ∧
    ∀ x y, x < 16 → y < 64 → MayFetch s x y → (x = w ∧ y = q) ∨ sqTc (s.sqCfg w q) < sqTc (s.sqCfg x y)

/-- The commands of set-up, power, start-up, reset, link, management and beat: every other command is work. -/
def touchesSetup : Instr → Bool
  | .regWrite .. | .regWriteLowHalfHold .. | .regReadLowHalfCapture .. | .mctpRegisterAccess .. | .counterSnap .. => true
  | .counterClear .. | .beatEdge .. | .beatWindowClose .. | .beatGeneratedBoundary .. | .beatBoundary .. => true
  | .beatNextWrite .. | .beatCfgWrite .. | .beatAnnounceSend .. | .hkWatchdogExpiry .. | .enableWriteOn .. => true
  | .enableWriteOff .. | .enableDrainEnd .. | .sqAbort .. | .wngAbort .. | .mortarPause .. => true
  | .tptPeekAddrWrite .. | .wngFlushDoneWrite .. | .stkRegionSelWrite .. | .celShutdown .. | .cellarMountDone .. => true
  | .linkTrainDone .. | .hpCtrlFail .. | .hpEnWrite .. | .hpGrantWrite .. | .hpWinValidSet .. => true
  | .hpWinValidClear .. | .linkDown .. | .perstAssert .. | .perstRelease .. | .ldReset .. => true
  | .getLdInfo .. | .getLdAllocations .. | .getQosControl .. | .getQosStatus .. | .getQosAllocatedBw .. => true
  | .getQosBwLimit .. | .setQosBwLimit .. | .setLdAllocations .. | .setQosControl .. | .setQosAllocatedBw .. => true
  | .unsupportedCommand .. | .identify .. | .getHealthInfo .. | .getEventRecords .. | .clearEventRecords .. => true
  | .setEventInterruptPolicy .. | .policerConfigWrite .. | .wngBrickWrite .. | .bpEnWrite .. | .bpRetrain .. => true
  | .beatAnnounce .. | .healthSend .. | .inputStartThreshold .. | .pwrEnAssert .. | .pwrEnDeassert .. => true
  | .powerUpDelayExpiry .. | .railsGood .. | .powerFailure .. | .flushComplete .. | .bankCharged .. => true
  | .bankMeasure .. | .bankOkTimeout .. | .powerSample .. | .thermalThreshold .. | .thermalTrip .. => true
  | .imageVerifyDone .. | .floorTrainDone .. | .getFwInfo .. | .transferFw .. | .bootAreaWriteDone .. => true
  | .activateFw .. | .profSetFirstWord .. | .profSetSubmit .. | .rstCtrlModule .. | .mctpModuleReset .. => true
  | .glbSetupClose .. | .stackRecover .. | .channelRecover .. | .errInjectArm .. | .wngErrEnable .. => true
  | _ => false

/-- Everything but the descriptors' bookkeeping, unfinished work (with what it leaves in the bank units' queues), counters and outputs is as
before: of a collection only staging descriptors may go, of a session or a program waiting descriptors, of a table migrations. -/
def OnlyBooks (s t : State) : Prop :=
  t = { s with
    flights := t.flights, stamp := t.stamp, wingNow := t.wingNow, live := t.live, out := t.out, reqs := t.reqs, colls := t.colls
    sessions := t.sessions, progs := t.progs, transit := t.transit, accesses := t.accesses, pins := t.pins
    stkOps := t.stkOps, unitQ := t.unitQ, sliceEnd := t.sliceEnd, debt := t.debt, refreshTill := t.refreshTill, embJobs := t.embJobs
    prefRows := t.prefRows, embs := t.embs, cellar := { s.cellar with syncs := t.cellar.syncs } } ∧
  t.colls.map (fun e => (e.1, { e.2 with stage := [] })) = s.colls.map (fun e => (e.1, { e.2 with stage := [] })) ∧
  t.sessions.map (fun e => (e.1, { e.2 with waits := [] })) = s.sessions.map (fun e => (e.1, { e.2 with waits := [] })) ∧
  t.progs.map (fun e => (e.1, { e.2 with waits := [], startFid := none })) =
    s.progs.map (fun e => (e.1, { e.2 with waits := [], startFid := none })) ∧
  t.embs.map (fun e => (e.1, { e.2 with migs := [] })) = s.embs.map (fun e => (e.1, { e.2 with migs := [] }))

/-- The same, where Annex ranges whose grant a stopped TIER_ALLOC still awaited may go too. -/
def OnlyBooksAndClaims (s t : State) : Prop :=
  OnlyBooks { s with ranges := t.ranges } t ∧ (∀ r ∈ t.ranges, r ∈ s.ranges) ∧
    (∀ r ∈ s.ranges, r.tier ≠ 3 ∨ r.fid = none → r ∈ t.ranges)

/-- A frame was queued on a port of Bruvia, or went out on it with an epoch and a sequence number. -/
def Sends (s t : State) (p : Nat) (f : Frame) : Prop :=
  f ∈ (t.bp p).txq ∨ ∃ g, Out.frame p (frameBytes g) ∈ t.out.drop s.out.length ∧ { g with epoch := f.epoch, seq := f.seq } = f

/-- A port of Bruvia hears a frame and takes it as what it is. -/
def Heard (s : State) (p : Nat) (f : Frame) : Prop := s.linkHeard p = true ∧ (s.bp p).stale f = false

/-- A frame of a mapped wing that the wing's Bruvia meter of its channel lets pass. -/
def Policed (s : State) (p : Nat) (f : Frame) (w : Nat) : Prop :=
  Heard s p f ∧ s.mapWing p f.wing = some w ∧ f.chan ≤ 7 ∧ (s.police w 1 f.chan (64 + f.payload.length) f.colour).2.drop = false

/-- A request frame is answered on its channel, in some colour. -/
def Replies (s t : State) (p : Nat) (f : Frame) (typ : Nat) (args payload : Bytes) : Prop :=
  ∃ c, Sends s t p { blankFrame with
    typ, chan := f.chan, colour := c, wing := f.wing, resp := true, tag := f.tag, args := argsOf args, payload }

/-- A request frame is answered with REFUSE and a status. -/
def Refuses (s t : State) (p : Nat) (f : Frame) (st : Status) : Prop :=
  Replies s t p f 0x30 (natLe st.code 1 ++ natLe 0 1 ++ natLe f.typ 2) []

/-! ## Instructions of a brick -/

/-- The controller instruction at pc of brick b, of class cls and operation op, may start: its word is legal and in the store range, and a
latch that it waits on has a unit for it. -/
def Starts (s : State) (b cls op : Nat) (r : Run) : Prop :=
  s.run? b = some r ∧ r.ent.holds r.br.ctx.pc 8 = true ∧ insnLegal r.word = true ∧ insnClass r.word = cls ∧ insnOp r.word = op ∧
    (insnWE r.word = true → r.br.ctx.begun = false → r.canTake 0 (insnWL r.word) = true)

/-- A run whose controller instruction has taken the latch that it waits on, now or in an earlier attempt (R224). -/
def started (r : Run) : Run :=
  if insnWE r.word && !r.br.ctx.begun then r.mod fun c => { c.takeLatch (insnWL r.word) with begun := true } else r

/-- A run whose engine instruction w has taken the latch that it waits on. -/
def taken (r : Run) (w : Nat) : Run := if insnWE w then r.mod fun c => c.takeLatch (insnWL w) else r

/-- The state after the controller instruction of a run left its brick as br: it is counted, it signals, and the controller fetches on. -/
def afterCtl (s : State) (b : Nat) (r : Run) (br : Brick) : State :=
  s.within (((s.setBrick b { br with ctx := { br.ctx with begun := false } }).bump (brkReg b 0x40)).finishInsn b 0 r.word r.br.ctx.pc)

/-- A controller instruction that leaves its brick as `f` makes it, from the run that has taken its latch. -/
def Leaves (c : Instr) (s : State) (b cls op : Nat) (f : Run → Nat → Brick) : Prop :=
  ∀ r, Starts s b cls op r → exec c s = .next (afterCtl s b r (f (started r) r.word))

/-- The brick of a run after scalar register D got a value and pc moved on. -/
def withD (r : Run) (w : Nat) (v : Word64) : Brick :=
  { r.br with ctx := { r.br.ctx.sput (insnD w) v with pc := (r.br.ctx.pc + 8) % 2 ^ 23 } }

/-- The brick of a run after its registers changed and pc moved on. -/
def withCtx (r : Run) (c : Ctx) : Brick := { r.br with ctx := { c with pc := (r.br.ctx.pc + 8) % 2 ^ 23 } }

/-- The head of the queue of the engine of class cls is operation op and may start. -/
def EngineStarts (s : State) (b cls op : Nat) (r : Run) (q : QEnt) : Prop :=
  s.run? b = some r ∧ (r.br.ctx.queueOf (cls - 3)).head? = some q ∧ insnClass q.word.toNat = cls ∧ insnOp q.word.toNat = op ∧
    (cls = 7 → r.br.ctx.sending = false) ∧ (insnWE q.word.toNat = true → r.canTake (cls - 3) (insnWL q.word.toNat) = true)

/-- An engine may write n bytes of its store at an address. -/
def Fits (r : Run) (a n : Nat) : Prop := n = 0 ∨ r.ent.holds a n = true

/-- The state after an engine instruction that used k free values left its brick as br: at least one cycle is counted at an offset of the
brick's block, how many more is free. -/
def afterWork (s : State) (b cls : Nat) (x : Run) (q : QEnt) (br : Brick) (off k : Nat) : State :=
  let t := State.setBrick { s.setBrick b x.br with fresh := s.fresh + k } b br
  s.within ((t.bumpBy (brkReg b off) (t.free + 1)).useFree.engineDone b (cls - 3) q)

/-- A piece of a Mover transfer: n tier bytes at `tier` go to `store` and the Mover has then got as far as `next`. -/
structure Piece where
  tier : Nat
  store : Nat
  n : Nat
  next : Nat
deriving DecidableEq, Repr

/-- The Mover of a run brings pieces in one after another, from state s to state t: each is in the store's range and in a window that
grants reads, and the tier gives its bytes, which are written and counted (R237, R244). -/
def BringsIn (x : Run) (t : State) : State → List Piece → Prop
  | s, [] => t = s
  | s, c :: cs =>
    if c.n = 0 then BringsIn x t (s.setMoved x.b c.next) cs
    else x.ent.holds c.store c.n = true ∧ x.ent.grants 0 c.tier c.n = true ∧
      ∃ v bs, s.readRange x.who x.wing c.tier c.n = (v, .bytes bs) ∧
        BringsIn x t (State.setMoved ((v.setBrick x.b ((v.brick x.b).writeLoose c.store bs)).bumpBy (brkReg x.b 0x58) c.n) x.b c.next) cs

/-- The Mover of a run takes pieces of `bs`, whose first byte goes to tier address a, out one after another, from state s to state t: nothing
keeps a piece waiting, and the tier takes it whole (R224, R237, R244). -/
def TakesOut (x : Run) (a : Nat) (bs : Bytes) (t : State) : State → List Nat → Prop
  | s, [] => t = s
  | s, o :: os =>
    let c := slice bs o (min 4096 (bs.length - o))
    s.fillingIn x.wing (a + o) c.length = false ∧ s.floorBusy x.wing (a + o) c.length = false ∧ s.heldIn x.wing (a + o) c.length = false ∧
      s.mergeFailed x.who x.wing = false ∧
      ∃ v w, ((s.endAccess x.who x.wing (a + o) c.length).injected x.wing (a + o) c.length).writeTier x.wing x.prog.ptc (a + o) c
          (s.mergedBy x.who x.wing) (c.length / pageSize + 2) = (v, w) ∧
        w.stop = none ∧ w.merge = [] ∧
        TakesOut x a bs t (State.setMoved ((v.endMerge x.who x.wing).bumpBy (brkReg x.b 0x58) c.length) x.b (o + 4096)) os

/-- The state after an engine instruction left its brick as br and counted n at an offset of the brick's block (0 for no counter). -/
def afterEng (s : State) (b cls : Nat) (x : Run) (q : QEnt) (br : Brick) (off n : Nat) : State :=
  let t := (s.setBrick b x.br).setBrick b br
  s.within ((if off = 0 then t else t.bumpBy (brkReg b off) n).engineDone b (cls - 3) q)

end Sys2Proof
end

