-- ==== Sys2Proof/Certificates/Slice0/Obligations.lean ====
section
/-!
DEFINITION. The statements about the model, one `def Obligations.<Name> : Prop` each. `Answers c s P`: the command answers a next state with P.
-/
open Sys2Proof Sys2Proof.Machine

/-- A step of a state with a command at the front of its queue is `exec` of that command on the state with the rest of the queue (log 1: the queue is the
model's own). -/
def Obligations.StepRunsFrontCommand : Prop :=
  ∀ (c : Instr) (s : State), step { s with pending := c :: s.pending } = exec c s

/-- With an empty queue a step passes one cycle (log 1, the model's choice): `CYC_COUNT` counts. Where no slice or refresh of a bank unit ends and no
running program has failed, only counters of cycles, the stall cycles of descriptors and the beat's figures of the wings change beside it. -/
def Obligations.IdleStepPassesOneCycle : Prop :=
  (∀ s : State, s.pending = [] → s.power.rails ≠ .good → step s = .next { s with cyc := s.cyc + 1 }) ∧
  (∀ s : State, s.pending = [] → s.power.rails = .good → ∃ t, step s = .next t ∧ t.cyc = s.cyc + 1 ∧ t.pending = [] ∧
    t.regs = s.regs ∧ t.lowHeld = s.lowHeld ∧ t.captures = s.captures ∧ t.profS = s.profS ∧ t.wings = s.wings ∧ t.power = s.power ∧
    t.boot = s.boot ∧ t.link = s.link ∧ t.msixTab = s.msixTab ∧ t.beat = { s.beat with sched := t.beat.sched } ∧
    ((∀ e ∈ s.sliceEnd, s.cyc + 1 < e.2) → (∀ e ∈ s.refreshTill, e.2 ≠ s.cyc + 1) →
      (∀ e ∈ s.progs, e.2.st = .running → e.2.firstFault = none) →
      t = { s with cyc := t.cyc, live := t.live, flights := t.flights, wingNow := t.wingNow } ∧
      t.flights.map (fun f => { f with stallCyc := 0 }) = s.flights.map (fun f => { f with stallCyc := 0 })))

/-- No command adds to the queue of waiting commands or takes from it (log 1). -/
def Obligations.ExecKeepsQueue : Prop :=
  ∀ (c : Instr) (s t : State), exec c s = .next t → t.pending = s.pending

/-- Every step keeps the register file in its canonical form: offsets rise, and every stored value has only bits that its register keeps, so that reserved
bits read 0 (R10). -/
def Obligations.StepKeepsRegisterForm : Prop :=
  ∀ s t : State, Safe s → step s = .next t → Safe t

/-- The invariant holds right after power-up reset. -/
def Obligations.ResetRegisterForm : Prop :=
  Safe State.reset

/-- Power-up reset: receiver FREE, LOST set, number unset; wings, rings and ports DISABLED; no object exists; counters 0; registers with a reset value
read it. -/
def Obligations.ResetLeavesBlockAtRest : Prop :=
  State.reset.beat.rx = .free ∧ State.reset.beat.lost = true ∧ State.reset.beatNum = 2 ^ 64 - 1 ∧ State.reset.beat.periodNs = 1000000 ∧
  (∀ w r p, State.reset.wingSt w = .disabled ∧ (State.reset.sq w r).en = .disabled ∧ (State.reset.cq w r).en = .disabled ∧
    (State.reset.port p).st = .disabled ∧ (State.reset.bp p).en = .disabled) ∧
  State.reset.flights = [] ∧ State.reset.colls = [] ∧ State.reset.sessions = [] ∧ State.reset.progs = [] ∧ State.reset.ranges = [] ∧
  State.reset.pages = [] ∧ State.reset.frm = [] ∧ State.reset.embs = [] ∧ State.reset.boot.phase = 0 ∧ State.reset.power.rails = .off ∧
  State.reset.pending = [] ∧ (∀ off, State.reset.counter off = 0) ∧
  (∀ w r, w < 16 → r < 64 → State.reset.sqCfg w r = sqCfgReset) ∧ State.reset.reg 0x4008 = 100 + 12 * 2 ^ 16

/-- R6, R8, R10: a whole write stores the bits that the register keeps; a low half is held for its requester, and the high-half write applies both
halves; a set wins over the clear of the same cycle. -/
def Obligations.RegisterWriteStoresKeptBits : Prop :=
  (∀ (s : State) (src off width val : Nat), HasWidth off width → RegHeard s src off → Stores s off (val % 2 ^ width) →
    exec (.regWrite src 0 off width val) s = .next (s.setReg off (val % 2 ^ width)) ∧
    (s.setReg off (val % 2 ^ width)).reg off = val % 2 ^ width &&& regMask off ∧
    (∀ k, k ≠ off → (s.setReg off (val % 2 ^ width)).reg k = s.reg k)) ∧
  (∀ (s : State) (src off val : Nat), HasWidth off 64 → off % 8 = 0 → RegHeard s src off →
    exec (.regWriteLowHalfHold src off val) s = .next (s.holdLow src off val) ∧
    s.holdLow src off val = { s with lowHeld := tset 0 s.lowHeld (halfKey src off) (val % 2 ^ 32) }) ∧
  (∀ (s : State) (src off val v : Nat), HasWidth off 64 → RegHeard s src off →
    v = tget 0 s.lowHeld (halfKey src off) + val % 2 ^ 32 * 2 ^ 32 → Stores s off v →
    exec (.regWrite src 0 (off + 4) 32 val) s = .next (s.setReg off v)) ∧
  (∀ (s : State) (src val : Nat), SetUpHeard s src → bit val 0 = true →
    exec (.regWrite src 0 0x18 64 val) s =
      .next (if tget 0 s.setAt 0x18 = s.cyc + 1 then s else s.setReg 0x18 (setBits (s.reg 0x18) 0 0 0))) ∧
  (∀ (s : State) (src off width val : Nat), ¬ (width = 32 ∧ off % 4 = 0) → ¬ (width = 64 ∧ off % 8 = 0) →
    exec (.regWrite src 0 off width val) s = .next s)

/-- R513: a low-half read answers the low half and captures the high half for its requester. R514: MCTP makes the same accesses as requester 8. -/
def Obligations.ReadCapturesOtherHalf : Prop :=
  (∀ (s : State) (src off : Nat), RegSeen s src off → HasWidth off 64 → off % 4 = 0 →
    exec (.regReadLowHalfCapture src off) s = .next
      ({ s with captures := tset 0 s.captures (halfKey src off) (s.readReg off / 2 ^ 32 + 1) }.emit
        (.readResp src off 32 (s.readReg off % 2 ^ 32)))) ∧
  (∀ (s : State) (off width val : Nat),
    exec (.mctpRegisterAccess true off width val) s = exec (.regWrite 8 0 off width val) s) ∧
  (∀ (s : State) (off width val : Nat), HasWidth off width → RegHeard s 8 off → Stores s off (val % 2 ^ width) →
    exec (.mctpRegisterAccess true off width val) s = .next (s.setReg off (val % 2 ^ width))) ∧
  (∀ (s : State) (off val : Nat), RegSeen s 8 off → HasWidth off 64 → off % 4 = 0 →
    exec (.mctpRegisterAccess false off 32 val) s = .next
      ({ s with captures := tset 0 s.captures (halfKey 8 off) (s.readReg off / 2 ^ 32 + 1) }.emit
        (.readResp 8 off 32 (s.readReg off % 2 ^ 32))))

/-- R104: SNAP copies every covered live counter to its snapshot; CLEAR zeroes it; in one write the snapshot comes first. -/
def Obligations.SnapTakesAndClearZeroesCounters : Prop :=
  ∀ (s : State) (src off : Nat), RegHeard s src off → isCtrl off = true →
    (Answers (.counterSnap src off false) s fun t =>
      (∀ k, coversAt off k = true → (tfind s.live k).isSome = true → tget 0 t.snap k = s.counter k) ∧
      (∀ k, coversAt off k = true → tfind s.live k = none → tget 0 t.snap k = 0) ∧
      (∀ k, coversAt off k = false → tget 0 t.snap k = tget 0 s.snap k) ∧ t = { s with snap := t.snap }) ∧
    (Answers (.counterSnap src off true) s fun t =>
      (∀ k, coversAt off k = true → tget 0 t.snap k = s.counter k ∧ t.counter k = 0) ∧
      (∀ k, coversAt off k = false → t.counter k = s.counter k) ∧ t = { s with snap := t.snap, live := t.live }) ∧
    (Answers (.counterClear src off) s fun t =>
      (∀ k, coversAt off k = true → t.counter k = 0) ∧
      (∀ k, coversAt off k = false → t.counter k = s.counter k) ∧ t = { s with live := t.live })

/-- R479, R511, R517: before READY a write to a wing register is discarded and recorded as a lock violation. -/
def Obligations.WingWriteBeforeReadyIsViolation : Prop :=
  ∀ (s : State) (src w val : Nat), w < 16 → Hearing s src → Reaches s src w → s.boot.phase ≠ 6 →
    Answers (.regWrite src 0 (wngReg w 0x3810) 32 val) s fun t =>
      bit (t.reg 0x18) 0 = true ∧ bits (t.reg 0x18) 31 16 = min (bits (s.reg 0x18) 31 16 + 1) 65535 ∧
      bits (t.reg 0x18) 54 32 = wngReg w 0x3810 ∧ (∀ k, k ≠ 0x18 → t.reg k = s.reg k) ∧ t = { s with regs := t.regs, setAt := t.setAt }

/-- R427: an allowed write of a meter register refills the meter. R416: an allowed write of `WNG_BRICK` is stored. R423: a due tick refills each enabled
meter and is counted. -/
def Obligations.MeterAndBrickSettings : Prop :=
  (∀ (s : State) (src w o val : Nat), w < 16 → 0x2400 ≤ o → o < 0x2800 → (o % 0x40 = 0 ∨ o % 0x40 = 8 ∨ o % 0x40 = 0x10) → WingHeard s src w →
    ((s.setReg (wngReg w o) val).meterOk w (meterSet o) (meterClass o) = true →
      exec (.policerConfigWrite src (wngReg w o) val) s =
        .next ((s.setReg (wngReg w o) val).refill w (meterSet o) (meterClass o))) ∧
    ((s.setReg (wngReg w o) val).meterOk w (meterSet o) (meterClass o) = false →
      exec (.policerConfigWrite src (wngReg w o) val) s = .next (s.lockVio src (wngReg w o)))) ∧
  (∀ (s : State) (src w n val : Nat), w < 16 → n < 4 → WingHeard s src w → s.wingSt w = .disabled →
    s.wingLoaded w = false → (∀ i, i < 64 → bit val i = true → s.mayAllot w (64 * n + i) = true) →
      exec (.wngBrickWrite src w n val) s = .next (s.setReg (wngReg w (0x2820 + 8 * n)) val)) ∧
  (∀ s : State, s.polTicks * 1500 ≤ s.cyc → Answers .policerTickRefill s fun t =>
    t.polTicks = s.polTicks + 1 ∧ t = { s with polTicks := t.polTicks, meters := t.meters } ∧
    (∀ w set c, w < 16 → set < 2 → c < 8 →
      tget {} t.meters (meterKey w set c) = tget {} (s.tickMeter w set c 1).meters (meterKey w set c)))

/-- R28, R32, R33, R524: what an edge does in each state of the receiver, the end of the acceptance window, and generated boundaries. P is 24 units
of 1/24 ns for each nanosecond, a cycle is 16. -/
def Obligations.BeatEdgesQualifyAndLock : Prop :=
  ∀ s : State, s.power.rails = .good →
    (s.beat.rx = .free → exec .beatEdge s = .next { s with beat := { s.beat with rx := .reacq, prevEdge := 16 * s.cyc, qual := 0 } }) ∧
    (s.beat.rx = .reacq →
      ¬ (s.beat.prevEdge + 24 * s.beat.periodNs ≤ 16 * s.cyc + 3 * s.beat.periodNs ∧
          16 * s.cyc ≤ s.beat.prevEdge + 24 * s.beat.periodNs + 3 * s.beat.periodNs) →
      exec .beatEdge s = .next { s with beat := { s.beat with rx := .reacq, prevEdge := 16 * s.cyc, qual := 0 } }) ∧
    (s.beat.rx = .reacq → s.beat.prevEdge + 24 * s.beat.periodNs ≤ 16 * s.cyc + 3 * s.beat.periodNs →
      16 * s.cyc ≤ s.beat.prevEdge + 24 * s.beat.periodNs + 3 * s.beat.periodNs →
      (s.beat.qual < 4 → exec .beatEdge s = .next { s with beat := { s.beat with prevEdge := 16 * s.cyc, qual := s.beat.qual + 1 } }) ∧
      (4 ≤ s.beat.qual → exec .beatEdge s = .next { s with beat := { s.beat with
        rx := .locked, prevEdge := 16 * s.cyc, qual := 0, refT := 16 * s.cyc, pend := s.beat.pend ++ [{ due := s.cyc + 96, relock := true }] } })) ∧
    (s.beat.rx = .locked →
      (s.beat.refT + 24 * s.beat.periodNs ≤ 16 * s.cyc + 3 * s.beat.periodNs ∧
          16 * s.cyc ≤ s.beat.refT + 24 * s.beat.periodNs + 3 * s.beat.periodNs →
        exec .beatEdge s = .next { s with beat := { s.beat with
          refT := 16 * s.cyc, pend := s.beat.pend ++ [{ due := s.cyc + 96, relock := false }] } }) ∧
      (16 * s.cyc + 3 * s.beat.periodNs < s.beat.refT + 24 * s.beat.periodNs → exec .beatEdge s = .next (s.bump 0xC0)) ∧
      (s.beat.refT + 27 * s.beat.periodNs < 16 * s.cyc → exec .beatEdge s = .next (State.bump (State.markSet { s with beat := { s.beat with
        rx := .reacq, lost := true, refT := s.beat.refT + 27 * s.beat.periodNs, prevEdge := 16 * s.cyc, qual := 0
        pend := s.beat.pend ++ [{ due := (s.beat.refT + 27 * s.beat.periodNs) / 16 + 96, relock := false }] } } 0x88) 0xC8))) ∧
    (s.beat.rx = .locked → s.beat.refT + 27 * s.beat.periodNs < 16 * s.cyc →
      exec .beatWindowClose s = .next (State.bump (State.markSet { s with beat := { s.beat with
        rx := .free, lost := true, refT := s.beat.refT + 27 * s.beat.periodNs
        pend := s.beat.pend ++ [{ due := (s.beat.refT + 27 * s.beat.periodNs) / 16 + 96, relock := false }] } } 0x88) 0xC8)) ∧
    (s.beat.rx ≠ .locked → s.beat.refT + 24 * s.beat.periodNs < 16 * s.cyc + 16 →
      exec .beatGeneratedBoundary s = .next { s with beat := { s.beat with
        refT := s.beat.refT + 24 * s.beat.periodNs
        pend := s.beat.pend ++ [{ due := (s.beat.refT + 24 * s.beat.periodNs) / 16 + 96, relock := false }] } })

/-- R29, R30, R36 to R38: a boundary restarts `BEAT_POS`, takes the nominal period of `BEAT_CFG` and sets the beat number by the last offer received
before it, whatever events fire at it. -/
def Obligations.BoundarySetsBeatNumber : Prop :=
  ∀ (s : State) (x : PendBoundary) (rest : List PendBoundary), s.beat.pend = x :: rest → s.power.rails = .good → x.due ≤ s.cyc →
    Answers .beatBoundary s fun t =>
      t.beat.posBase = x.due ∧ t.beat.periodNs = bits (s.reg 0x80) 23 0 ∧ t.beat.beats = s.beat.beats + 1 ∧ t.beat.pend = rest ∧
      t.beat.rx = s.beat.rx ∧ t.beat.lost = s.beat.lost ∧
      (s.beat.offered x.due = none → s.beat.number = none → t.beat.number = none) ∧
      (s.beat.offered x.due = none → ∀ c, s.beat.number = some c →
        (s.beat.held = 0 → t.beat.number = some (c + 1) ∧ t.beat.held = 0) ∧
        (0 < s.beat.held → t.beat.number = some c ∧ t.beat.held = s.beat.held - 1)) ∧
      (∀ o, s.beat.offered x.due = some o →
        (s.beat.number = none → t.beat.number = some o.n ∧ t.beat.held = 0) ∧
        (∀ c, s.beat.number = some c →
          (s.beat.unconf = true ∨ x.relock = true ∨ o.port = 6 →
            (c < o.n → t.beat.number = some o.n ∧ t.beat.held = 0) ∧ (o.n ≤ c → t.beat.number = some c ∧ t.beat.held = c - o.n)) ∧
          (s.beat.unconf = false ∧ x.relock = false ∧ o.port ≠ 6 →
            (s.beat.held = 0 → t.beat.number = some (c + 1)) ∧
            (0 < s.beat.held → t.beat.number = some c ∧ t.beat.held = s.beat.held - 1))))

/-- R38: the beat number never decreases; only a module reset or the loss of power makes it unset (R31). -/
def Obligations.BeatNumberNeverDecreases : Prop :=
  ∀ (c : Instr) (s t : State) (n : Nat), exec c s = .next t → s.beat.number = some n →
    t.beat.number = none ∨ ∃ m, t.beat.number = some m ∧ n ≤ m

/-- R30: a change of `BEAT_CFG.PERIOD_NS` applies from the next beat boundary; a value outside 10,000 to 10,000,000 leaves the register and is recorded
as a lock violation. -/
def Obligations.BeatPeriodWrite : Prop :=
  (∀ (s : State) (src val : Nat), SetUpHeard s src →
    (10000 ≤ bits val 23 0 → bits val 23 0 ≤ 10000000 → Answers (.beatCfgWrite src val) s fun t =>
      t.reg 0x80 = val &&& 0x3F3FFFFFFF ∧ bits (t.reg 0x80) 23 0 = bits val 23 0 ∧ (∀ k, k ≠ 0x80 → t.reg k = s.reg k) ∧
      t = { s with regs := t.regs } ∧ t.beat.periodNs = s.beat.periodNs) ∧
    (bits val 23 0 < 10000 ∨ 10000000 < bits val 23 0 → Answers (.beatCfgWrite src val) s fun t =>
      (∀ k, k ≠ 0x18 → t.reg k = s.reg k) ∧ t = { s with regs := t.regs, setAt := t.setAt } ∧ bit (t.reg 0x18) 0 = true ∧
      bits (t.reg 0x18) 31 16 = min (bits (s.reg 0x18) 31 16 + 1) 65535 ∧ bits (t.reg 0x18) 54 32 = 0x80)) ∧
  (∀ (s : State) (x : PendBoundary) (rest : List PendBoundary), s.beat.pend = x :: rest → s.power.rails = .good → x.due ≤ s.cyc →
    Answers .beatBoundary s fun t => t.beat.periodNs = bits (s.reg 0x80) 23 0)

/-- R36: a write of `BEAT_NEXT` is an offer. R40: an announce is sent once a beat, when `BEAT_POS` has reached half of P. -/
def Obligations.OffersAndAnnounces : Prop :=
  (∀ (s : State) (src val : Nat), SetUpHeard s src →
    exec (.beatNextWrite src val) s = .next { s with beat := { s.beat with
      offers := s.beat.offers ++ [{ cyc := s.cyc, n := val % 2 ^ 64, port := 6 }] } }) ∧
  (∀ (s : State) (c : Nat), s.beat.number = some c → s.beat.kept = false → s.beat.announced = false → s.err.fatal = false →
    24 * s.beat.periodNs ≤ 32 * s.beatPos →
    Answers .beatAnnounceSend s fun t => t.beat = { s.beat with announced := true } ∧ t.regs = s.regs ∧ t.power = s.power ∧ t.colls = s.colls ∧ t.frm = s.frm ∧
      (∀ p, p < 6 → bit (s.reg 0x80) (32 + p) = true → (s.bp p).link = .up →
        Sends s t p { blankFrame with typ := 0x10, chan := 9, args := argsOf (natLe (c + 1) 8) }) ∧
      (∀ p, ¬ (p < 6 ∧ bit (s.reg 0x80) (32 + p) = true ∧ (s.bp p).link = .up) → t.bp p = s.bp p) ∧
      ((∀ p, p < 6 → bit (s.reg 0x80) (32 + p) = true → (s.bp p).link ≠ .up) → t = { s with beat := { s.beat with announced := true } }))

/-- R397 to R400: a fetch takes the descriptor at HEAD; a held descriptor goes on when FENCE and CHAIN let it, and is ABORTED by a failed chain. -/
def Obligations.FetchTakesNextDescriptor : Prop :=
  (∀ (s : State) (w q : Nat) (b cont : Bytes), s.nextFetch = some (w, q) ∨ TurnOf s w q → s.contCount w (slice b 0 128) = some 0 →
    Answers (.descriptorFetch (.ok b) cont) s fun t =>
      (∃ f ∈ t.flights, f.wing = w ∧ f.sq = q ∧ f.seq = (s.sq w q).seq ∧ f.raw = slice b 0 128 ∧ f.fid = s.nextId) ∧ t.nextId = s.nextId + 1 ∧
      (t.sq w q).head = ((s.sq w q).head + 1) % (2 * sqSize (s.sqCfg w q)) ∧ (t.sq w q).seq = ((s.sq w q).seq + 1) % 2 ^ 32 ∧
      (t.sq w q).tail = (s.sq w q).tail ∧ (t.sq w q).en = (s.sq w q).en ∧
      t.regs = s.regs ∧ t.ranges = s.ranges ∧ t.pages = s.pages ∧ t.frm = s.frm ∧ t.low = s.low ∧ t.ports = s.ports ∧
      (headerOk (s.sqCfg w q) (slice b 0 128) = true →
        (s.police w 0 (hTc (slice b 0 128)) 128 (hColour (slice b 0 128))).2.drop = false →
        ∃ f ∈ t.flights, f.fid = s.nextId ∧ (f.phase = .ready ∨ f.phase = .held) ∧ f.raw = slice b 0 128 ∧
          f.colour = (s.police w 0 (hTc (slice b 0 128)) 128 (hColour (slice b 0 128))).2.colour) ∧
      ((∀ g ∈ s.flights, g.fid ≠ s.nextId) → headerOk (s.sqCfg w q) (slice b 0 128) = false → Completed t s.nextId .invalid 0 0)) ∧
  (∀ (s : State) (w q : Nat) (cont : Bytes), s.nextFetch = some (w, q) ∨ TurnOf s w q → (∀ g ∈ s.flights, g.fid ≠ s.nextId) →
    Answers (.descriptorFetch .poisoned cont) s (Completed · s.nextId .poisoned 0 0) ∧
    Answers (.descriptorFetch .media cont) s (Completed · s.nextId .mediaError 0 0)) ∧
  (∀ (s : State) (fid : Nat) (f : Flight), s.flight? fid = some f → f.phase = .held →
    (s.isHeld f = false → s.chainNow f.wing f.sq f.chain ≠ .failed → Answers (.descriptorAdmit fid) s fun t =>
      t.flight? fid = some { f with phase := .ready } ∧ t = { s with flights := t.flights }) ∧
    (s.chainNow f.wing f.sq f.chain = .failed →
      Answers (.descriptorAdmit fid) s fun t => Completed t fid .aborted 0 0 ∧ OnlyBooks s t))

/-- R396: NOP does nothing and completes with OK, COUNT 0 and inline result 0; with FENCE it stays held while an earlier descriptor of its ring is not
fixed. -/
def Obligations.NopCompletesWithOk : Prop :=
  (∀ (s : State) (fid : Nat) (f : Flight), s.ready? fid 0x900 = some f →
    (f.zero [(12, 116)] = true → Answers (.nopDescriptor fid) s fun t => Completed t fid .ok 0 0 ∧ OnlyBooks s t) ∧
    (f.zero [(12, 116)] = false → Answers (.nopDescriptor fid) s fun t => Completed t fid .invalid 0 0 ∧ OnlyBooks s t)) ∧
  (∀ (s : State) (fid : Nat) (f g : Flight), s.flight? fid = some f → f.phase = .held → f.fence = true →
    s.chainNow f.wing f.sq f.chain ≠ .failed → g ∈ s.ringFlights f.wing f.sq → g.fid < f.fid → g.phase ≠ .done →
    exec (.descriptorAdmit fid) s = .next s)

/-- R391, R392: which doorbell writes move TAIL and HEAD, and that every other one is only counted. -/
def Obligations.DoorbellAcceptance : Prop :=
  ∀ (s : State) (p w r v : Nat), Hearing s p →
    let S := sqSize (s.sqCfg w r)
    let x := s.sq w r
    let C := sqSize (s.cqCfg w r)
    let y := s.cq w r
    (bit (s.reg (hpReg p 0x10)) w = true →
      (x.en = .enabled → v < 2 * S → ringDist S x.head v ≤ S → ringDist S x.head x.tail ≤ ringDist S x.head v →
        Answers (.sqDoorbell p w r v) s fun t => t = { s with sqs := t.sqs } ∧ (t.sq w r).tail = v ∧ (t.sq w r) = { x with tail := v, dbs := (t.sq w r).dbs } ∧
          (x.tail ≠ v → (t.sq w r).dbs = x.dbs ++ [(v, s.cyc)])) ∧
      (¬ (x.en = .enabled ∧ v < 2 * S ∧ ringDist S x.head v ≤ S ∧ ringDist S x.head x.tail ≤ ringDist S x.head v) →
        exec (.sqDoorbell p w r v) s = .next (s.bump (wngReg w 0x68))) ∧
      (y.en = .enabled → v < 2 * C → ringDist C v y.tail ≤ ringDist C y.head y.tail →
        Answers (.cqDoorbell p w r v) s fun t => t = { s with cqs := t.cqs } ∧ t.cq w r = { y with head := v }) ∧
      (¬ (y.en = .enabled ∧ v < 2 * C ∧ ringDist C v y.tail ≤ ringDist C y.head y.tail) →
        exec (.cqDoorbell p w r v) s = .next (s.bump (wngReg w 0x68)))) ∧
    (bit (s.reg (hpReg p 0x10)) w = false →
      exec (.sqDoorbell p w r v) s = .next (s.bump (hpReg p 0x68)) ∧ exec (.cqDoorbell p w r v) s = .next (s.bump (hpReg p 0x68)))

/-- R394, R405, R406: the entry that arrived first is written at TAIL with its PHASE, its descriptor leaves; the end of a coalescing interval. -/
def Obligations.EntriesAreSentInOrder : Prop :=
  (∀ (s : State) (w c : Nat) (f : Flight) (cp : Cpl), s.dueFlight w c = some f → f.cpl = some cp → (s.port (cqPort (s.cqCfg w c))).st ≠ .failed →
    Answers (.cqEntrySend w c) s fun t =>
      (∃ pre post flags, t.out = pre ++ [.entry (cqPort (s.cqCfg w c)) (s.cqBase w c + 32 * ((s.cq w c).tail % sqSize (s.cqCfg w c)))
        (entryBytes f cp flags (if bit (s.cq w c).tail (sqSizeLog (s.cqCfg w c)) then 0 else 1))] ++ post ∧ s.out <+: pre) ∧
      (∀ g ∈ t.flights, g.fid ≠ f.fid) ∧ t.regs = s.regs ∧ t.ranges = s.ranges ∧ t.pages = s.pages ∧ t.frm = s.frm ∧ t.low = s.low) ∧
  (∀ (s : State) (w c e : Nat), (s.cq w c).coalEnd = some e → e ≤ s.cyc →
    ((s.cq w c).owed = false → Answers (.msixCoalesceExpiry w c) s fun t =>
      t = { s with cqs := t.cqs } ∧ t.cq w c = { s.cq w c with coalEnd := none, owed := false }) ∧
    ((s.cq w c).owed = true → Answers (.msixCoalesceExpiry w c) s fun t =>
      (t.cq w c).owed = false ∧ t = { s with cqs := t.cqs, out := t.out, msixPend := t.msixPend }))

/-- R388, R411, R412, R487: enable writes, and the end of a drain. -/
def Obligations.EnableStates : Prop :=
  ∀ (s : State) (src w r : Nat),
    (WingHeard s src w →
      (bit (s.reg (hpReg (sqPort (s.sqCfg w r)) 0x10)) w = true ∧ sqPort (s.sqCfg w r) = cqPort (s.cqCfg w (sqCq (s.sqCfg w r))) →
        ((s.sq w r).en = .disabled → Answers (.enableWriteOn src .sq w r) s fun t => t = { s with sqs := t.sqs } ∧ t.sq w r = { en := .enabled }) ∧
        ((s.sq w r).en = .draining → Answers (.enableWriteOn src .sq w r) s fun t =>
          t = { s with sqs := t.sqs } ∧ t.sq w r = { s.sq w r with en := .enablePending })) ∧
      (¬ (bit (s.reg (hpReg (sqPort (s.sqCfg w r)) 0x10)) w = true ∧ sqPort (s.sqCfg w r) = cqPort (s.cqCfg w (sqCq (s.sqCfg w r)))) →
        exec (.enableWriteOn src .sq w r) s = .next (s.lockVio src (wngReg w (0x1010 + 0x20 * r)))) ∧
      ((s.sq w r).en = .enabled ∨ (s.sq w r).en = .enablePending → Answers (.enableWriteOff src .sq w r) s fun t =>
        t = { s with sqs := t.sqs } ∧ t.sq w r = { s.sq w r with en := .draining }) ∧
      ((s.sq w r).en = .disabled ∨ (s.sq w r).en = .draining → exec (.enableWriteOff src .sq w r) s = .next s)) ∧
    (WingHeard s src w → bit (s.reg (hpReg (cqPort (s.cqCfg w r)) 0x10)) w = true → (s.cq w r).en = .disabled →
      Answers (.enableWriteOn src .cq w r) s fun t => t = { s with cqs := t.cqs } ∧ t.cq w r = { en := .enabled }) ∧
    (WingHeard s src w → bit (s.reg (hpReg (cqPort (s.cqCfg w r)) 0x10)) w = true → (s.cq w r).en = .draining →
      Answers (.enableWriteOn src .cq w r) s fun t => t = { s with cqs := t.cqs } ∧ t.cq w r = { s.cq w r with en := .enablePending }) ∧
    (WingHeard s src w → (s.cq w r).en = .enabled ∨ (s.cq w r).en = .enablePending →
      Answers (.enableWriteOff src .cq w r) s fun t => t = { s with cqs := t.cqs } ∧ t.cq w r = { s.cq w r with en := .draining }) ∧
    (WingHeard s src w →
      (s.wingSt w = .disabled → Answers (.enableWriteOn src .wing w r) s fun t => t = { s with wings := t.wings } ∧
        t.wingSt w = if s.boot.profTarget.isSome then .enablePending else .enabled) ∧
      (s.wingSt w = .draining → Answers (.enableWriteOn src .wing w r) s fun t =>
        t = { s with wings := t.wings } ∧ t.wingSt w = .enablePending) ∧
      (s.wingSt w = .enabled ∨ s.wingSt w = .enablePending → Answers (.enableWriteOff src .wing w r) s fun t => t = { s with wings := t.wings } ∧ t.wingSt w = .draining)) ∧
    (s.ringFlights w r = [] →
      ((s.sq w r).en = .draining → Answers (.enableDrainEnd .sq w r) s fun t => t = { s with sqs := t.sqs } ∧
        t.sq w r = { s.sq w r with en := .disabled, recov := [], chain := .none }) ∧
      ((s.sq w r).en = .enablePending → Answers (.enableDrainEnd .sq w r) s fun t => t = { s with sqs := t.sqs } ∧ t.sq w r = { en := .enabled })) ∧
    ((∀ q, q < 64 → sqCq (s.sqCfg w q) = r → (s.sq w q).en = .disabled) →
      ((s.cq w r).en = .draining → Answers (.enableDrainEnd .cq w r) s fun t => t = { s with cqs := t.cqs } ∧
        t.cq w r = { s.cq w r with en := .disabled }) ∧
      ((s.cq w r).en = .enablePending → Answers (.enableDrainEnd .cq w r) s fun t => t = { s with cqs := t.cqs } ∧ t.cq w r = { en := .enabled })) ∧
    (s.wingFlights w = [] →
      (s.wingSt w = .draining → Answers (.enableDrainEnd .wing w r) s fun t => t = { s with wings := t.wings } ∧ t.wingSt w = .disabled) ∧
      (s.wingSt w = .enablePending → s.boot.profTarget = none →
        Answers (.enableDrainEnd .wing w r) s fun t => t = { s with wings := t.wings } ∧ t.wingSt w = .enabled))

/-- R46, R407, R408: aborts of a ring and of a wing complete every descriptor that is not fixed with ABORTED, or with TIMEOUT when its timeout has expired by that cycle; a timeout completes with TIMEOUT. -/
def Obligations.AbortsAndTimeouts : Prop :=
  (∀ (s : State) (src w r : Nat), WingHeard s src w →
    s.flights.Pairwise (fun a b => a.fid ≠ b.fid) →
    ((s.sq w r).en ≠ .disabled → Answers (.sqAbort src w r) s fun t =>
      (∀ f ∈ s.ringFlights w r, f.phase ≠ .done → Completed t f.fid (if f.timesOut s.cyc then .timeout else .aborted) 0 0) ∧
      (t.sq w r).en = (s.sq w r).en ∧ OnlyBooksAndClaims { s with sqs := t.sqs } t) ∧
    ((s.sq w r).en = .disabled → exec (.sqAbort src w r) s = .next s)) ∧
  (∀ (s : State) (src w : Nat), WingHeard s src w → s.flights.Pairwise (fun a b => a.fid ≠ b.fid) →
    Answers (.wngAbort src w) s fun t =>
      (∀ f ∈ s.wingFlights w, f.sq < 64 → (s.sq w f.sq).en ≠ .disabled → f.phase ≠ .done →
        Completed t f.fid (if f.timesOut s.cyc then .timeout else .aborted) 0 0) ∧
      OnlyBooksAndClaims { s with sqs := t.sqs } t) ∧
  (∀ (s : State) (fid a : Nat) (f : Flight), s.flight? fid = some f → f.phase = .active → f.admitCyc = some a →
    roundUp (a + 1500 * f.timeoutUs) 1500 < s.cyc →
    Answers (.descriptorTimeout fid) s fun t => Completed t fid .timeout 0 0 ∧ (∀ r ∈ t.ranges, r.tier = 3 → r.fid ≠ some fid) ∧
      OnlyBooksAndClaims s t)

/-- R51, R66 to R74: what the collection commands do when nothing refuses them, and what refused ones complete with. -/
def Obligations.CollectionsComeAndGo : Prop :=
  (∀ (s : State) (fid : Nat) (f : Flight), s.ready? fid 0x280 = some f →
    let good := f.zero [(31, 97)] = true ∧ (collDefOf f).ok = true ∧ hHandle f.raw < 4096
    (¬ good → Answers (.collCreate fid) s fun t => Completed t fid .invalid 0 0 ∧ OnlyBooks s t) ∧
    (good → ∀ c, tfind s.colls f.obj = some c → Answers (.collCreate fid) s fun t =>
      Completed t fid (if c.st = .closing ∨ c.st = .draining ∨ c.destroyS ≠ none then .busy else .invalid) 0 0 ∧ OnlyBooks s t) ∧
    (good → tfind s.colls f.obj = none → 4096 ≤ s.colls.length →
      Answers (.collCreate fid) s fun t => Completed t fid .noResource 0 0 ∧ OnlyBooks s t) ∧
    (good → tfind s.colls f.obj = none → s.floorQuota f.wing < s.floorUse f.wing + (collDefOf f).shards * (collDefOf f).shardPages + 1 →
      Answers (.collCreate fid) s fun t => Completed t fid .noResource 0 0 ∧ OnlyBooks s t) ∧
    (good → tfind s.colls f.obj = none → s.colls.length < 4096 →
      Room s f.wing ((collDefOf f).shards * (collDefOf f).shardPages + 1) (collDefOf f).cellarPages →
      Answers (.collCreate fid) s fun t => Completed t fid .ok 0 0 ∧
        (∃ c, tfind t.colls f.obj = some c ∧ c.defn = collDefOf f ∧ c.st = .building ∧ c.version = 0 ∧ c.mem = [] ∧ c.loaded = [] ∧ c.porch = [] ∧
          c.frames.length = (collDefOf f).shards * (collDefOf f).shardPages + 1 ∧ (∀ x ∈ c.frames, x ∈ t.frames ∧ x.wing = f.wing)) ∧
        ((collDefOf f).durable = true → ∃ m, tfind t.mirrors f.obj = some m ∧ m.defn = collDefOf f ∧ m.mem = none))) ∧
  (∀ (s u : State) (fid : Nat) (src : Dma) (bs : Bytes) (f : Flight) (c : Coll), s.ready? fid 0x281 = some f → s.collOf f = some c →
    loadFieldsOk f c.defn = true → c.st = .building → c.defn.inCellar (f.u 16 1) = false →
    Source s u f (f.u 17 1) (f.u 32 8) (f.u 40 8) src 0 bs → NoMerge s fid → u.flight? fid = some f → u.collOf f = some c →
    (f.u 16 1 = 1 ∨ f.u 16 1 = 2 → scaleTableOk bs = true) →
    Answers (.collLoad fid src) s fun t => Completed t fid .ok 0 0 ∧ ∃ c', tfind t.colls f.obj = some c' ∧ c'.st = .building ∧ c'.defn = c.defn ∧
      c'.mem = putBytes c.mem (loadKey f c.defn) bs ∧ { part := f.u 16 1, shard := f.u 18 1, first := f.u 20 4, count := f.u 24 4 } ∈ c'.loaded) ∧
  (∀ (s : State) (fid : Nat) (f : Flight) (c : Coll), s.ready? fid 0x282 = some f → s.collOf f = some c → f.zero [(20, 4), (32, 96)] = true →
    f.u 16 4 ≤ c.defn.capacity → c.st = .building →
    Answers (.collOpen fid) s fun t => t.flight? fid = some { f with phase := .active } ∧ t = { s with flights := t.flights }) ∧
  (∀ (s : State) (fid : Nat) (f : Flight) (c : Coll), s.active? fid 0x282 = some f → f.admitCyc = none → s.collOf f = some c → c.st = .building →
    c.openPoison (f.u 16 4) = none →
    (∀ n r, c.validate (f.u 16 4) = some (n, r) →
      Answers (.collValidationDone fid) s fun t => Completed t fid .invalid 0 (n + r * 2 ^ 32) ∧ OnlyBooks s t) ∧
    (c.validate (f.u 16 4) = none → BeatFree s (f.u 24 8) → Answers (.collValidationDone fid) s fun t =>
      (∃ c', tfind t.colls f.obj = some c' ∧ c'.st = .opening ∧ c'.nodes = f.u 16 4 ∧ c'.openS = some (f.u 24 8)) ∧
      t.beat.sched = s.beat.sched ++ [{ beat := f.u 24 8, kind := .openColl f.obj }] ∧
      (c.defn.durable = false → Completed t fid .ok 0 0) ∧ (c.defn.durable = true → Admitted t fid s.cyc))) ∧
  (∀ (s : State) (fid : Nat) (f : Flight) (c : Coll), s.ready? fid 0x283 = some f → s.collOf f = some c → c.st ≠ .draining →
    f.zero [(16, 16), (40, 88)] = true → aligned64 (f.u 32 8) = true → (s.port (s.flightPort f)).st ≠ .failed →
    Answers (.collDescribe fid) s fun t => Completed t fid .ok 128 0 ∧ OnlyBooks s t ∧
      t.out = s.out ++ [.hostWrite (s.flightPort f) f.resultArea.1 (s.describe f c)]) ∧
  (∀ (s : State) (fid : Nat) (f : Flight) (c : Coll), s.ready? fid 0x284 = some f → s.collOf f = some c → c.st ≠ .closing → c.st ≠ .draining → c.destroyS = none →
    f.zero [(16, 8), (32, 96)] = true → BeatFree s (f.u 24 8) →
    Answers (.collDestroy fid) s fun t => Completed t fid .ok 0 0 ∧ (∃ c', tfind t.colls f.obj = some c' ∧ c'.destroyS = some (f.u 24 8) ∧
      c'.st = (if c.st = .active then .closing else c.st) ∧ c'.mem = c.mem) ∧
      t.beat.sched = s.beat.sched ++ [{ beat := f.u 24 8, kind := .destroyColl f.obj }]) ∧
  (∀ (s : State) (w h : Nat) (c : Coll), tfind s.colls (objKey w h) = some c → c.st = .draining → s.collBusy (objKey w h) c = false →
    Answers (.collDrainDone w h) s fun t => tfind t.colls (objKey w h) = none ∧ tfind t.mirrors (objKey w h) = none) ∧
  (∀ (s : State) (key n : Nat) (c : Coll), tfind s.colls key = some c →
    (c.st = .opening → c.openS = some n → (∀ d, c.destroyS = some d → n < d) →
      ∃ c', tfind (s.openAt key n).colls key = some c' ∧ c'.st = .active ∧ c'.version = 1 ∧ c'.latest = 1 ∧ c'.openBeat = some n ∧ c'.mem = c.mem) ∧
    (∃ c', tfind (s.destroyAt key).colls key = some c' ∧ c'.st = .draining ∧ c'.mem = c.mem))

/-- R65, R76, R77, R82, R84, R86, R428: admission of searches and scans, and the grant of their slots. -/
def Obligations.SearchesAreAdmittedAndGranted : Prop :=
  (∀ (s u : State) (fid : Nat) (query filt : Dma) (q b : Bytes) (f : Flight) (c : Coll), s.ready? fid 0x100 = some f → s.collOf f = some c →
    searchFieldsOk false f.raw c.defn = true → c.st = .active ∨ c.st = .closing →
    Sources s u f (f.u 31 1) (f.u 32 8) (c.defn.dim * fmtBytes (f.u 30 1)) query (f.u 57 1) (f.u 64 8) (f.u 58 2) filt q b →
    u.flight? fid = some f → allFinite (fmtVec (f.u 30 1) c.defn.dim q) = true → filterOk c.defn.attrWords (chunks 16 (f.u 56 1) b) = true →
    Answers (.graphSearch fid query filt) s fun t => Admitted t fid u.cyc ∧ ∃ r ∈ t.reqs, r.fid = fid ∧ r.opcode = 0x100 ∧ r.key = f.obj ∧
      r.version = c.version ∧ r.k = f.u 16 4 ∧ r.waiting = true ∧ (r.searches.map fun x => x.shards.length) = [c.defn.shards] ∧
      (f.cls ≠ 0 → r.cls = f.cls) ∧ (f.cls = 0 → graphWithin f.raw c.defn = true → r.cls = 0 ∧
        ∃ g, t.flight? fid = some g ∧ g.bound = some (searchBound c.defn)) ∧
      (f.cls = 0 → graphWithin f.raw c.defn = false → r.cls = 1)) ∧
  (∀ (s u v : State) (fid : Nat) (query filt ranges : Dma) (q b rb : Bytes) (f : Flight) (c : Coll), s.ready? fid 0x101 = some f →
    s.collOf f = some c → searchFieldsOk true f.raw c.defn = true → c.st = .active ∨ c.st = .closing →
    Sources s u f (f.u 31 1) (f.u 32 8) (c.defn.dim * fmtBytes (f.u 30 1)) query (f.u 57 1) (f.u 64 8) (f.u 58 2) filt q b →
    (f.u 61 1 = 0 ∧ v = u ∧ rb = slice f.raw 88 40) ∨ (f.u 61 1 ≠ 0 ∧ Source u v f (f.u 61 1 - 1) (f.u 72 8) (8 * f.u 62 2) ranges 0 rb) →
    v.flight? fid = some f →
    allFinite (fmtVec (f.u 30 1) c.defn.dim q) = true → filterOk c.defn.attrWords (chunks 16 (f.u 56 1) b) = true →
    rangesOk c.defn.capacity 0 (rangesOf (f.u 62 2) rb) = true →
    Answers (.flatScan fid query filt ranges) s fun t => Admitted t fid v.cyc ∧ ∃ r ∈ t.reqs, r.fid = fid ∧ r.opcode = 0x101 ∧ r.key = f.obj ∧
      r.version = c.version ∧ r.k = f.u 16 4 ∧ r.waiting = true ∧ r.ranges = rangesOf (f.u 62 2) rb ∧ r.cls = (if f.cls = 0 then 1 else f.cls)) ∧
  (∀ (s : State) (fid : Nat) (query filt : Dma) (f : Flight) (c : Coll), s.ready? fid 0x100 = some f → s.collOf f = some c →
    (searchFieldsOk false f.raw c.defn = false →
      Answers (.graphSearch fid query filt) s fun t => Completed t fid .invalid 0 0 ∧ OnlyBooks s t) ∧
    (searchFieldsOk false f.raw c.defn = true → c.st = .building ∨ c.st = .opening →
      Answers (.graphSearch fid query filt) s fun t => Completed t fid .busy 0 0 ∧ OnlyBooks s t) ∧
    (searchFieldsOk false f.raw c.defn = true → c.st = .draining →
      Answers (.graphSearch fid query filt) s fun t => Completed t fid .invalid 0 0 ∧ OnlyBooks s t)) ∧
  (∀ (s : State) (fid : Nat) (r : Req) (l : List (Nat × Bool)), s.req? fid = some r → s.grantOf fid = some l →
    r.opcode = 0x100 ∨ r.opcode = 0x101 ∨ r.opcode = 0x300 →
    Answers (.slotGrant fid) s fun t => ∃ r', t.req? fid = some r' ∧ r'.waiting = false ∧ r'.version = r.version ∧ r'.key = r.key ∧ r'.k = r.k ∧
      (r'.searches.map fun x => x.shards.map ShardQ.pipe) = (r.searches.map fun x => (x.shards.zip l).map fun p => p.2.1) ∧
      t = { s with live := t.live, reqs := t.reqs }) ∧
  (∀ (s : State) (r : Req), s.reqs = [r] → r.waiting = true → r.segs ≤ 960 → 0 < bits (s.reg (wngReg r.wing 0x2808)) 9 0 →
    r.opcode = 0x100 ∨ r.opcode = 0x101 ∨ r.opcode = 0x300 →
    Answers (.slotGrant r.fid) s fun t => ∃ r', t.req? r.fid = some r' ∧ r'.waiting = false ∧ r'.version = r.version ∧
      (r'.searches.map fun x => x.shards.map ShardQ.pipe) = (r.searches.map fun x => (x.shards.zip r.dies).map fun p => 2 * p.2) ∧
      t = { s with live := t.live, reqs := t.reqs })

/-- R88, R89, R92, R96 to R99, R112, R115: the steps of one shard of one search. -/
def Obligations.ShardStepsAdvance : Prop :=
  ∀ (s : State) (fid i k : Nat) (r : Req) (x : Search) (q : ShardQ) (c : Coll), s.shardOf fid i k = some (r, x, q) → s.reqColl r = some c →
    c.defn.inCellar 3 = false → FloorOpen s →
    (q.ph = .granted → Answers (.seedShard fid i k) s fun t => ∃ r' x' q', t.shardOf fid i k = some (r', x', q') ∧ q'.ph = .expanding ∧
      q'.width = r.beamWidth ∧ (c.poisoned (entryKey q.shard) (4 * (c.entries q.shard).length) = false →
        q'.visited = (c.entries q.shard).foldl insertAsc [])) ∧
    (q.ph = .expanding → bestUnexpanded q.beam = none → r.clauses = [] → Answers (.expandStep fid i k) s fun t =>
      ∃ r' x' q', t.shardOf fid i k = some (r', x', q') ∧ q'.ph ≠ .expanding ∧ q'.stop = 0 ∧ q'.expanded = q.expanded) ∧
    (q.ph = .expanding → bestUnexpanded q.beam ≠ none → r.expandLimit.1 = 0 ∨ q.expanded < r.expandLimit.1 →
      Answers (.expandStep fid i k) s fun t => ∃ r' x' q', t.shardOf fid i k = some (r', x', q') ∧ q'.expanded = q.expanded + 1) ∧
    (∀ page, q.ph = .scanning → q.handed = none → scanNext (envOf c r x) q = some page →
      (s.handoffRegion (envOf c r x) q page = none → Answers (.flatScanPage fid i k) s fun t => ∃ r' x' q', t.shardOf fid i k = some (r', x', q') ∧
        q'.ranges = dropBelow (c.pageNodes (useSq8 c.defn r) q.shard page q.ranges).2 q.ranges) ∧
      (∀ g, s.handoffRegion (envOf c r x) q page = some g → (s.stkQueue (regionStack g)).length < s.handoffMax (regionStack g) →
        Answers (.flatScanPage fid i k) s fun t => (∃ r' x', t.shardOf fid i k = some (r', x', { q with handed := some (s.nextId, page) })) ∧
          ∃ o, t.stkOps = s.stkOps ++ [o] ∧ o.id = s.nextId ∧ o.stack = regionStack g ∧ o.fid = some fid ∧ o.regions = [g])) ∧
    (∀ id page op, q.handed = some (id, page) → s.stkOps.find? (fun o => o.id == id) = some op → op.running = true →
      op.refused = false → pagePoisoned (envOf c r x) q page = false →
      Answers (.stackHandoffResult fid i k) s fun t => ∃ r' x' q', t.shardOf fid i k = some (r', x', q') ∧ q'.handed = none ∧
        q'.ranges = dropBelow (c.pageNodes (useSq8 c.defn r) q.shard page q.ranges).2 q.ranges ∧
        q'.stackBytes = q.stackBytes + (c.pageNodes (useSq8 c.defn r) q.shard page q.ranges).1.length * c.defn.recSize (if useSq8 c.defn r then 3 else 4) ∧
        t.stkOps = s.stkOps.filter fun y => y.id != op.id) ∧
    (2 ≤ q.runs.length →
      let e := envOf c r x
      let l := (sortBy (fun (a b : Cand) => ranksAbove a.score b.score) ((q.runs.take 16).map MantelRun.cands).flatten).take e.L
      Answers (.mantelMergePass fid i k) s fun t => ∃ r' x' q', t.shardOf fid i k = some (r', x', q') ∧
        (q.ph ≠ .listed ∨ 16 < q.runs.length → q'.runs.map MantelRun.cands = l :: (q.runs.drop 16).map MantelRun.cands) ∧
        (q.ph = .listed → q.runs.length ≤ 16 → q'.runs = [] ∧ q'.mantel = l ∧ q'.ph ≠ .listed)) ∧
    (∀ node, q.ph = .refining → node ∈ q.refineWait → ReadsOver s fid (refineTag i node) →
      (c.codePoison true node = false → Answers (.refineReadReturn fid i k node .ok) s fun t => ∃ r' x' q', t.shardOf fid i k = some (r', x', q') ∧
        q'.refineWait = q.refineWait.filter (fun n => n != node) ∧ q'.refFloor = q.refFloor + 1 ∧
        (q.refineWait.filter (fun n => n != node) = [] → q'.ph = .accepted ∧ q'.mantel = c.refine x.query r.k q.mantel)) ∧
      (∀ f, s.flight? fid = some f → f.phase ≠ .done → r.fromPort = none →
        Answers (.refineReadReturn fid i k node .poisoned) s (Completed · fid .poisoned 0 0)))

/-- R121 to R128: Join merges the lists, writes K records and fixes status, COUNT and inline result. -/
def Obligations.JoinWritesResultsAndCompletes : Prop :=
  ∀ (s : State) (fid : Nat) (r : Req) (x : Search) (f : Flight), s.req? fid = some r → r.opcode = 0x100 ∨ r.opcode = 0x101 →
    r.searches = [x] → r.waiting = false → (∀ q ∈ x.shards, q.ph = .accepted) →
    (∀ p ∈ r.parts, p.nparts = some p.got ∧ p.status.chainPasses = true) → r.fromPort = none → s.flight? fid = some f → f.phase = .active → (s.port (s.flightPort f)).st ≠ .failed → 0 < r.k →
    let j := joinCands s.fresh r.k true (x.shards.map ShardQ.mantel ++ r.parts.map PartWait.cands)
    let n := j.kept.length
    Answers (.joinLists fid) s fun t =>
      Completed t fid (if n = r.k then .ok else if r.clauses.length ≠ 0 then .filterShort else .short) (if n ≤ 65535 then n else 0xFFFF)
        (pack32 n j.ties) ∧
      .hostWrite (s.flightPort f) f.resultArea.1 (resultRecords r.k j.kept) ∈ t.out ∧ t.colls.map Prod.fst = s.colls.map Prod.fst ∧
      t.regs = s.regs ∧ t.pages = s.pages

/-- R133, R134, R142 to R145, R150, R151: staging, its resolution, publishing, discarding, the switch, and retiring. -/
def Obligations.StagingPublishingRetiring : Prop :=
  (∀ (s u : State) (fid : Nat) (src : Dma) (bs : Bytes) (f : Flight) (c : Coll), s.ready? fid 0x200 = some f → s.collOf f = some c →
    insertOk f c.defn = true → c.st = .active ∨ c.st = .closing → Source s u f (f.u 17 1) (f.u 32 8) (f.u 40 8) src 0 bs →
    (∀ b ∈ chunks (insertRec c.defn (f.u 18 1)) (f.u 20 4) bs, recOk c.defn (f.u 18 1) b = true) →
    u.flight? fid = some f → tfind u.colls f.obj = some c →
    (c.cset (f.u 16 1)).st = .empty ∨ ((c.cset (f.u 16 1)).st = .staging ∧ (c.cset (f.u 16 1)).base = c.latest) →
    Answers (.vecInsert fid src) s fun t => Admitted t fid u.cyc ∧ ∃ c', tfind t.colls f.obj = some c' ∧ (c'.cset (f.u 16 1)).st = .staging ∧
      (c'.cset (f.u 16 1)).base = c.latest ∧ c'.mem = c.mem ∧ c'.porch = c.porch ∧ ∃ j, c'.stage = c.stage ++ [j] ∧ j.fid = fid ∧ j.insert = true ∧
        j.cset = f.u 16 1 ∧ j.recs = (chunks (insertRec c.defn (f.u 18 1)) (f.u 20 4) bs).map fun b => (fld b 0 6, b)) ∧
  (∀ (s u : State) (fid : Nat) (src : Dma) (bs : Bytes) (f : Flight) (c : Coll), s.ready? fid 0x201 = some f → s.collOf f = some c →
    deleteOk f = true → c.st = .active ∨ c.st = .closing → Source s u f (f.u 17 1) (f.u 32 8) (f.u 40 8) src 0 bs →
    (∀ b ∈ chunks 8 (f.u 20 4) bs, fld b 6 2 = 0) → u.flight? fid = some f → tfind u.colls f.obj = some c →
    (c.cset (f.u 16 1)).st = .empty ∨ ((c.cset (f.u 16 1)).st = .staging ∧ (c.cset (f.u 16 1)).base = c.latest) →
    Answers (.vecDelete fid src) s fun t => Admitted t fid u.cyc ∧ ∃ c', tfind t.colls f.obj = some c' ∧ (c'.cset (f.u 16 1)).st = .staging ∧
      (c'.cset (f.u 16 1)).base = c.latest ∧ c'.mem = c.mem ∧ ∃ j, c'.stage = c.stage ++ [j] ∧ j.fid = fid ∧ j.insert = false ∧
        j.recs = (chunks 8 (f.u 20 4) bs).map fun b => (fld b 0 6, [])) ∧
  (∀ (s : State) (w h : Nat) (c : Coll) (j : StageJob) (f : Flight), tfind s.colls (objKey w h) = some c → c.stage = [j] → c.defn.winParts = [] →
    s.flight? j.fid = some f → f.phase ≠ .done →
    (∀ c' res, c.resolve j = .ok (c', res) → Answers (.stagingSweep w h) s fun t => Completed t j.fid .ok 0 res ∧
      ∃ x, tfind t.colls (objKey w h) = some x ∧ x.porch = c'.porch ∧ x.tombs = c'.tombs ∧ x.mem = c'.mem ∧ x.version = c'.version ∧
        ∀ y ∈ x.stage, y.fid ≠ j.fid) ∧
    (∀ st full, c.resolve j = .error (st, full) → Answers (.stagingSweep w h) s fun t => Completed t j.fid st 0 0 ∧
      ∃ x, tfind t.colls (objKey w h) = some x ∧ x.porch = c.porch ∧ x.tombs = c.tombs ∧ x.mem = c.mem)) ∧
  (∀ (s : State) (fid : Nat) (f : Flight) (c : Coll), s.ready? fid 0x210 = some f → s.collOf f = some c → f.u 16 1 ≤ 7 →
    f.zero [(17, 3), (32, 96)] = true → c.st = .active ∨ c.st = .closing → (c.cset (f.u 16 1)).st ≠ .publishing → (∀ j ∈ c.stage, j.cset ≠ f.u 16 1) →
    ((c.cset (f.u 16 1)).st = .staging → f.u 20 4 = (c.cset (f.u 16 1)).base) → f.u 20 4 = c.latest → f.u 20 4 < 0xFFFFFFFF →
    BeatFree s (f.u 24 8) → (∀ x ∈ c.csets, ∀ b, x.2.switchS = some b → b < f.u 24 8) →
    (c.st = .closing → ∀ d, c.destroyS = some d → f.u 24 8 < d) →
    Answers (.versionPublish fid) s fun t => (∃ c', tfind t.colls f.obj = some c' ∧ c'.latest = c.latest + 1 ∧ c'.version = c.version ∧
        (c'.cset (f.u 16 1)).st = .publishing ∧ (c'.cset (f.u 16 1)).switchS = some (f.u 24 8) ∧ c'.mem = c.mem) ∧
      t.beat.sched = s.beat.sched ++ [{ beat := f.u 24 8, kind := .version f.obj (f.u 16 1) (c.latest + 1) }] ∧
      (c.defn.durable = false → Completed t fid .ok 0 (c.latest + 1)) ∧ (c.defn.durable = true → Admitted t fid s.cyc)) ∧
  (∀ (s : State) (fid : Nat) (f : Flight) (c : Coll), s.ready? fid 0x211 = some f → s.collOf f = some c → f.u 16 1 ≤ 7 →
    f.zero [(17, 111)] = true → c.st = .active ∨ c.st = .closing → (c.cset (f.u 16 1)).st ≠ .publishing → (∀ j ∈ c.stage, j.fid ≠ fid) →
    Answers (.csetDiscard fid) s fun t => Completed t fid .ok 0 0 ∧ ∃ c', tfind t.colls f.obj = some c' ∧ c'.cset (f.u 16 1) = {} ∧ c'.mem = c.mem ∧
      (∀ e ∈ c'.porch, e.cset = f.u 16 1 → e.vis ≠ none) ∧ ∀ e ∈ c'.tombs, e.cset = f.u 16 1 → e.del ≠ none) ∧
  (∀ (s : State) (fid : Nat) (f : Flight) (c : Coll), s.ready? fid 0x212 = some f → s.collOf f = some c → f.zero [(16, 4), (24, 104)] = true →
    c.st = .active ∨ c.st = .closing → f.u 20 4 ≤ c.version → (∀ r ∈ s.pinned f.obj, r.fid ≠ fid) →
    Answers (.versionRetire fid) s fun t =>
      Completed t fid .ok 0 (((s.pinned f.obj).filter fun r => decide (r.version < f.u 20 4)).length % 2 ^ 32) ∧
      ∀ r ∈ s.pinned f.obj, r.version < f.u 20 4 → (∀ x ∈ s.reqs, x.fid = r.fid → x.fromPort = none) →
        ∀ g, s.flight? r.fid = some g → g.phase ≠ .done → Completed t r.fid .versionGone 0 0) ∧
  (∀ (s : State) (key i ver n : Nat) (c : Coll), tfind s.colls key = some c →
    ((c.st = .active ∨ c.st = .closing) → (c.cset i).switchS = some n →
      ∃ c', tfind (s.switchAt key i ver n).colls key = some c' ∧ c'.version = ver ∧ c'.cset i = {} ∧ c'.mem = c.mem) ∧
    ((c.cset i).switchS ≠ some n → s.switchAt key i ver n = s))

/-- R152 to R155: Mortar merges, applies tombstones, repairs and pauses. -/
def Obligations.MortarFoldsInTheBackground : Prop :=
  (∀ (s : State) (w h node : Nat) (c : Coll) (e : PorchEnt), tfind s.colls (objKey w h) = some c → c.defn.inCellar 3 = false →
    (s.mergeable (objKey w h) c (node % c.defn.shards)).find? (fun x => !(c.poisoned (c.key 0 x.node) 8)) = some e → e.node = node →
    (s.mortarPaused (c.die (node % c.defn.shards)) = false → Answers (.mortarMerge w h node) s fun t =>
      (∃ c', tfind t.colls (objKey w h) = some c' ∧ c'.porch = c.porch.filter (fun x => x.node != node) ∧ c'.tombs = c.tombs ∧ c'.version = c.version ∧
        c'.mem = ((c.link node (bits (s.reg (mortarReg (c.die (node % c.defn.shards)) 0)) 26 16)).1.setEntry node
          ((c.link node (bits (s.reg (mortarReg (c.die (node % c.defn.shards)) 0)) 26 16)).1.entry node ||| 2 ^ 49)).mem) ∧
      (∀ k, k ≠ objKey w h → tfind t.colls k = tfind s.colls k) ∧ t = { s with colls := t.colls, live := t.live, fresh := t.fresh }) ∧
    (s.mortarPaused (c.die (node % c.defn.shards)) = true → exec (.mortarMerge w h node) s = .next s)) ∧
  (∀ (s : State) (w h node d : Nat) (c : Coll) (x : Tomb), tfind s.colls (objKey w h) = some c → x ∈ c.tombs → x.node = node → x.del = some d →
    d ≤ s.oldest (objKey w h) c →
    (s.mortarPaused (c.die (node % c.defn.shards)) = false → Answers (.mortarTombApply w h node) s fun t =>
      (∃ c', tfind t.colls (objKey w h) = some c' ∧ c'.mem = (c.setEntry node (c.entry node ||| 2 ^ 48)).mem ∧ x ∉ c'.tombs ∧
        (∀ y ∈ c.tombs, y.node ≠ node → y ∈ c'.tombs) ∧ c'.porch = c.porch) ∧
      (∀ k, k ≠ objKey w h → tfind t.colls k = tfind s.colls k) ∧ t = { s with colls := t.colls, live := t.live, fresh := t.fresh }) ∧
    (s.mortarPaused (c.die (node % c.defn.shards)) = true → exec (.mortarTombApply w h node) s = .next s)) ∧
  (∀ (s : State) (w h shard : Nat) (c : Coll), tfind s.colls (objKey w h) = some c → c.defn.inCellar 3 = false → shard < c.defn.shards →
    s.mortarPaused (c.die shard) = false → c.st = .active ∨ c.st = .closing →
    Answers (.mortarRepairSweep w h shard) s fun t =>
      tfind t.colls (objKey w h) = some (c.repair (bits (s.reg (mortarReg (c.die shard) 0)) 26 16) shard).1 ∧
      (∀ k, k ≠ objKey w h → tfind t.colls k = tfind s.colls k) ∧ t = { s with colls := t.colls, live := t.live, fresh := t.fresh }) ∧
  (∀ (s : State) (src die : Nat) (on : Bool), die < 4 → SetUpHeard s src → Answers (.mortarPause src die on) s fun t =>
    t.mortarPaused die = on ∧ (∀ k, k ≠ mortarReg die 0 → t.reg k = s.reg k) ∧ t = { s with regs := t.regs })

/-- R174 to R183, R185: what the session commands do in their turn. -/
def Obligations.SessionsAreKept : Prop :=
  (∀ (s : State) (fid : Nat) (f : Flight), s.ready? fid 0x310 = some f → f.zero [(35, 1), (40, 88)] = true →
    (sessOfRaw f).fieldsOk = true → hHandle f.raw < 16384 → s.sessOf f = none →
    let n := (sessOfRaw f).layers * (sessOfRaw f).shards
    (s.sessions.length < 16384 → Room s f.wing (n * (sessOfRaw f).charge.1) (n * (sessOfRaw f).charge.2) →
      Answers (.kvCreate fid) s fun t => Completed t fid .ok 0 0 ∧ ∃ e, tfind t.sessions f.obj = some e ∧ e.layers = f.u 16 2 ∧ e.hkv = f.u 18 1 ∧
        e.dh = f.u 20 2 ∧ e.maxTokens = f.u 24 4 ∧ e.mem = [] ∧ (∀ l, e.len l = 0) ∧ e.frames.length = n * (sessOfRaw f).charge.1 ∧
        e.winPages = n * (sessOfRaw f).charge.2) ∧
    (16384 ≤ s.sessions.length ∨ s.floorQuota f.wing < s.floorUse f.wing + n * (sessOfRaw f).charge.1 →
      Answers (.kvCreate fid) s fun t => Completed t fid .noResource 0 0 ∧ OnlyBooks s t)) ∧
  (∀ (s u : State) (fid : Nat) (src : Dma) (bs : Bytes) (f : Flight) (e : Sess), s.ready? fid 0x311 = some f → s.sessOf f = some e → e.waits = [] →
    appendOk f e (e.layersOf (f.u 16 2)) = true → Source s u f (f.u 18 1) (f.u 32 8) (f.u 40 8) src 0 bs →
    allFinite (fmtVec (f.u 19 1) (bs.length / fmtBytes (f.u 19 1)) bs) = true → u.flight? fid = some f → tfind u.sessions f.obj = some e →
    Answers (.kvAppend fid src) s fun t => Completed t fid .ok 0 0 ∧ ∃ e', tfind t.sessions f.obj = some e' ∧
      (∀ l ∈ e.layersOf (f.u 16 2), e'.len l = e.len l + f.u 20 4) ∧ (∀ l, l ∉ e.layersOf (f.u 16 2) → e'.len l = e.len l) ∧
      e'.spilled = e.spilled ∧ e'.layers = e.layers) ∧
  (∀ (s : State) (fid : Nat) (src : Dma) (f : Flight) (e : Sess), s.ready? fid 0x311 = some f → s.sessOf f = some e → e.waits ≠ [] →
    fid ∉ e.waits → appendFields f e (e.layersOf (f.u 16 2)) = true → s.sessClosing e = false →
    Answers (.kvAppend fid src) s fun t => Admitted t fid s.cyc ∧ tfind t.sessions f.obj = some { e with waits := e.waits ++ [fid] }) ∧
  (∀ (s : State) (fid : Nat) (f : Flight) (e : Sess), s.ready? fid 0x313 = some f → s.sessOf f = some e → e.waits = [] →
    f.zero [(18, 2), (28, 100)] = true → e.layersOf (f.u 16 2) ≠ [] →
    let r := s.prefetchAll f.obj f.cls ((e.layersOf (f.u 16 2)).map fun l => e.namesOf l (f.u 20 4) (f.u 20 4 + f.u 24 4)).flatten 0x48
    Answers (.kvPrefetch fid) s fun t => Completed t fid .ok 0 (pack32 r.2.1 r.2.2) ∧ t.regs = s.regs ∧ t.colls = s.colls ∧
      (f.u 24 4 = 0 → r.2 = (0, 0) ∧ t.pages = s.pages) ∧
      ∃ e', tfind t.sessions f.obj = some e' ∧ e' = { e with pref := e'.pref } ∧ e.pref <+: e'.pref) ∧
  (∀ (s : State) (w h layer shard tp : Nat) (e : Sess), tfind s.sessions (objKey w h) = some e → layer < e.layers → shard < e.shards →
    (∀ x ∈ e.spilling, ¬ (kvLayer x = layer ∧ kvShard x = shard)) → (e.spillWait layer shard).head? = some tp →
    let name := kvName layer shard tp
    let r := s.winWrite w 7 [(e.winPage name * pageSize, e.perTier * e.pageBytes)]
    Answers (.kvSpill w h layer shard) s fun t =>
      (r.2.stop = none → (r.1.page w (e.winPage name)).cached = true →
        tfind t.sessions (objKey w h) = some { e with spilled := e.spilled ++ [name] } ∧ t.pages = r.1.pages) ∧
      (r.2.stop = none → (r.1.page w (e.winPage name)).cached = false →
        tfind t.sessions (objKey w h) = some { e with spilling := e.spilling ++ [name] } ∧ t.cellar = r.1.cellar) ∧
      (r.2.stop ≠ none → t = s) ∧
      (∀ k, k ≠ objKey w h → tfind t.sessions k = tfind s.sessions k) ∧ t.regs = s.regs ∧ t.flights = s.flights ∧ t.colls = s.colls) ∧
  (∀ (s : State) (w h layer shard name : Nat) (e : Sess), tfind s.sessions (objKey w h) = some e → layer < e.layers → shard < e.shards →
    e.spilling = [name] → kvLayer name = layer → kvShard name = shard → s.flashOwes (unitsOf w (e.winPage name * pageSize) pageSize) = false →
    Answers (.kvSpill w h layer shard) s fun t =>
      tfind t.sessions (objKey w h) = some { e with spilled := e.spilled ++ [name], spilling := [] } ∧
      (∀ k, k ≠ objKey w h → tfind t.sessions k = tfind s.sessions k) ∧ t = { s with sessions := t.sessions, live := t.live }) ∧
  (∀ (s : State) (w h layer shard page : Nat) (e : Sess), tfind s.sessions (objKey w h) = some e →
    Answers (.kvPrefetchHoldExpiry w h layer shard page) s fun t => t = { s with sessions := t.sessions } ∧
      ∃ e', tfind t.sessions (objKey w h) = some e' ∧ e' = { e with pref := e'.pref } ∧
        ∀ x, x ∈ e'.pref ↔ x ∈ e.pref ∧ ¬ (x.name = kvName layer shard page ∧ x.since + (if e.hold = 0 then 4 else e.hold) ≤ s.beat.beats)) ∧
  (∀ (s : State) (fid : Nat) (f : Flight) (e : Sess), s.flight? fid = some f → hOpcode f.raw = 0x314 → s.sessOf f = some e →
    (f.phase = .ready ∧ e.waits = []) ∨ (f.phase = .active ∧ e.waits.head? = some fid) → f.zero [(16, 4), (24, 104)] = true →
    (∀ r ∈ s.reqs, ¬ (r.key = f.obj ∧ (r.opcode = 0x312 ∨ r.opcode = 0x318))) → ReadsOver s fid kvTag →
    (∃ a ∈ s.accesses, a.fid = some fid ∧ a.tag = kvTag) ∨ (∀ name ∈ e.spilled, name ∉ e.cutNames (f.u 20 4)) →
    Answers (.kvTruncate fid) s fun t => Completed t fid .ok 0 0 ∧ ∃ e', tfind t.sessions f.obj = some e' ∧
      (∀ l, l < e.layers → e'.len l = min (e.len l) (f.u 20 4)) ∧ e'.mem = e.mem) ∧
  (∀ (s : State) (fid : Nat) (f : Flight) (e : Sess) (r : Req), s.ready? fid 0x314 = some f → s.sessOf f = some e → e.waits = [] →
    f.zero [(16, 4), (24, 104)] = true → r ∈ s.reqs → r.key = f.obj → r.opcode = 0x312 ∨ r.opcode = 0x318 →
    Answers (.kvTruncate fid) s fun t => Admitted t fid s.cyc ∧
      ∃ e', tfind t.sessions f.obj = some e' ∧ e' = { e with waits := [fid] }) ∧
  (∀ (s : State) (fid : Nat) (f : Flight) (e : Sess), s.flight? fid = some f → hOpcode f.raw = 0x315 → s.sessOf f = some e →
    (f.phase = .ready ∧ e.waits = []) ∨ (f.phase = .active ∧ e.waits.head? = some fid) → f.zero [(16, 112)] = true →
    (∀ r ∈ s.reqs, ¬ (r.key = f.obj ∧ (r.opcode = 0x312 ∨ r.opcode = 0x318))) →
    Answers (.kvDestroy fid) s fun t => Completed t fid .ok 0 0 ∧ tfind t.sessions f.obj = none)

/-- R164, R186, R190, R428: admission of the attention opcodes. -/
def Obligations.AttentionIsAdmitted : Prop :=
  (∀ (s u : State) (fid : Nat) (query loc : Dma) (q b : Bytes) (f : Flight) (c : Coll), s.ready? fid 0x300 = some f → s.collOf f = some c →
    memOk f c.defn = true → c.st = .active ∨ c.st = .closing →
    (f.u 54 1 = 1 → s.inRanges f.wing (f.u 64 8) (f.u 80 4 * valRow f) = true ∧ ∀ r ∈ s.ranges, r.wing = f.wing → r.freeFrom = none) →
    Sources s u f (f.u 31 1) (f.u 32 8) (f.u 53 1 * f.u 52 1 * c.defn.dim * fmtBytes (f.u 30 1)) query (f.u 62 1) (f.u 92 8)
      (if f.u 60 2 = 0 then 0 else localBytes (f.u 60 2) (f.u 52 1) c.defn.dim (f.u 84 2) (f.u 30 1)) loc q b →
    u.flight? fid = some f → (queriesOf (f.u 30 1) (f.u 53 1 * f.u 52 1) c.defn.dim q).all allFinite = true →
    (memLocal f c.defn b).ok (f.u 53 1) = true →
    Answers (.memAttend fid query loc) s fun t => Admitted t fid u.cyc ∧ ∃ r ∈ t.reqs, r.fid = fid ∧ r.opcode = 0x300 ∧ r.key = f.obj ∧
      r.version = c.version ∧ r.waiting = true ∧ r.queries = queriesOf (f.u 30 1) (f.u 53 1 * f.u 52 1) c.defn.dim q ∧
      r.searches.map Search.query = (if bit (f.u 63 1) 0 then r.queries.take (f.u 52 1) else distinct r.queries)) ∧
  (∀ (s : State) (fid : Nat) (query loc : Dma) (f : Flight) (c : Coll), s.ready? fid 0x300 = some f → s.collOf f = some c → memOk f c.defn = false →
    Answers (.memAttend fid query loc) s fun t => Completed t fid .invalid 0 0 ∧ OnlyBooks s t) ∧
  (∀ (s u : State) (fid : Nat) (query loc : Dma) (a b : Bytes) (f : Flight) (e : Sess), s.ready? fid 0x312 = some f → s.sessOf f = some e →
    e.waits = [] → kvOk f e = true →
    Sources s u f (f.u 19 1) (f.u 32 8) (f.u 60 1 * e.hkv * e.group * e.dh * fmtBytes (f.u 18 1)) query (f.u 58 1) (f.u 64 8)
      (if f.u 56 2 = 0 then 0 else localBytes (f.u 56 2) e.hkv e.dh e.dh (f.u 18 1)) loc a b →
    u.flight? fid = some f → (queriesOf (f.u 18 1) (f.u 60 1 * e.hkv * e.group) e.dh a).all allFinite = true → (kvLocal f e b).ok (f.u 60 1) = true →
    Answers (.kvAttend fid query loc) s fun t => Admitted t fid u.cyc ∧ ∃ r ∈ t.reqs, r.fid = fid ∧ r.opcode = 0x312 ∧ r.key = f.obj ∧
      r.waiting = true ∧ r.k = f.u 28 4 ∧ r.queries = queriesOf (f.u 18 1) (f.u 60 1 * e.hkv * e.group) e.dh a) ∧
  (∀ (s u : State) (fid : Nat) (query : Dma) (a : Bytes) (f : Flight) (e : Sess), s.ready? fid 0x318 = some f → s.sessOf f = some e →
    e.waits = [] → ringOk f e = true →
    Source s u f (f.u 19 1) (f.u 32 8) (f.u 26 2 * e.hkv * e.group * e.dh * fmtBytes (f.u 18 1)) query 0 a →
    u.flight? fid = some f → (queriesOf (f.u 18 1) (f.u 26 2 * e.hkv * e.group) e.dh a).all allFinite = true →
    Answers (.ringAttend fid query) s fun t => Admitted t fid u.cyc ∧ ∃ r ∈ t.reqs, r.fid = fid ∧ r.opcode = 0x318 ∧ r.key = f.obj ∧
      r.waiting = true ∧ r.length = e.len (f.u 16 2) ∧ r.cls = (if f.cls = 0 then 1 else f.cls) ∧ r.ringStep = 0)

/-- R220, R222, R224 to R226, R232, Table 09-5: the result of each controller instruction, after which it is counted, signals and the controller
fetches on. -/
def Obligations.ControllerInstructions : Prop :=
  (∀ (c : Ctx) (i j : Nat) (v : Word64), (c.sput i v).sget j = if j = 0 then 0 else if j = i then v else c.sget j) ∧
  ∀ (s : State) (b : Nat),
    Leaves (.opAdd b) s b 0 0 (fun r w => withD r w (r.br.ctx.sget (insnA w) + r.br.ctx.sget (insnB w))) ∧
    Leaves (.opSub b) s b 0 1 (fun r w => withD r w (r.br.ctx.sget (insnA w) - r.br.ctx.sget (insnB w))) ∧
    Leaves (.opAnd b) s b 0 2 (fun r w => withD r w (r.br.ctx.sget (insnA w) &&& r.br.ctx.sget (insnB w))) ∧
    Leaves (.opOr b) s b 0 3 (fun r w => withD r w (r.br.ctx.sget (insnA w) ||| r.br.ctx.sget (insnB w))) ∧
    Leaves (.opXor b) s b 0 4 (fun r w => withD r w (r.br.ctx.sget (insnA w) ^^^ r.br.ctx.sget (insnB w))) ∧
    Leaves (.opShl b) s b 0 5 (fun r w => withD r w (r.br.ctx.sget (insnA w) <<< ((r.br.ctx.sget (insnB w)).toNat % 64))) ∧
    Leaves (.opShr b) s b 0 6 (fun r w => withD r w (r.br.ctx.sget (insnA w) >>> ((r.br.ctx.sget (insnB w)).toNat % 64))) ∧
    Leaves (.opSar b) s b 0 7 (fun r w => withD r w ((r.br.ctx.sget (insnA w)).sshiftRight ((r.br.ctx.sget (insnB w)).toNat % 64))) ∧
    Leaves (.opMul b) s b 0 8 (fun r w => withD r w (r.br.ctx.sget (insnA w) * r.br.ctx.sget (insnB w))) ∧
    Leaves (.opAddi b) s b 0 9 (fun r w => withD r w (r.br.ctx.sget (insnA w) + insnSext w)) ∧
    Leaves (.opMovhi b) s b 0 10 (fun r w => withD r w (r.br.ctx.sget (insnA w) <<< 25 ||| BitVec.ofNat 64 (insnImm w))) ∧
    Leaves (.opSlt b) s b 0 11 (fun r w => withD r w (if (r.br.ctx.sget (insnA w)).slt (r.br.ctx.sget (insnB w)) then 1 else 0)) ∧
    Leaves (.opSltu b) s b 0 12 (fun r w => withD r w (if (r.br.ctx.sget (insnA w)).ult (r.br.ctx.sget (insnB w)) then 1 else 0)) ∧
    Leaves (.opSeq b) s b 0 13 (fun r w => withD r w (if r.br.ctx.sget (insnA w) = r.br.ctx.sget (insnB w) then 1 else 0)) ∧
    (∀ r bs, Starts s b 1 0 r → let x := started r
      (x.br.ctx.sget (insnA r.word) + insnSext r.word).toNat % 8 = 0 → x.load (x.br.ctx.sget (insnA r.word) + insnSext r.word).toNat 8 = .ok bs →
      exec (.opLd b) s = .next (afterCtl s b r (withD x r.word (BitVec.ofNat 64 (leNat bs))))) ∧
    (∀ r bs, Starts s b 1 2 r → let x := started r
      (x.br.ctx.sget (insnA r.word) + insnSext r.word).toNat % 4 = 0 → x.load (x.br.ctx.sget (insnA r.word) + insnSext r.word).toNat 4 = .ok bs →
      exec (.opLdw b) s = .next (afterCtl s b r (withD x r.word (BitVec.ofNat 64 (leNat bs))))) ∧
    (∀ r, Starts s b 1 1 r → let x := started r
      let a := (x.br.ctx.sget (insnA r.word) + insnSext r.word).toNat
      a % 8 = 0 → x.ent.holds a 8 = true →
      exec (.opSt b) s = .next (afterCtl s b r (withCtx ({ x with br := x.br.writeLoose a (natLe (x.br.ctx.sget (insnB r.word)).toNat 8) } : Run) x.br.ctx))) ∧
    (∀ r, Starts s b 1 3 r → let x := started r
      let a := (x.br.ctx.sget (insnA r.word) + insnSext r.word).toNat
      a % 4 = 0 → x.ent.holds a 4 = true →
      exec (.opStw b) s = .next (afterCtl s b r (withCtx ({ x with br := x.br.writeLoose a (natLe (x.br.ctx.sget (insnB r.word)).toNat 4) } : Run) x.br.ctx))) ∧
    Leaves (.opBeqz b) s b 2 0 (fun r w => { r.br with ctx := { r.br.ctx with
      pc := if r.br.ctx.sget (insnA w) = 0 then branchTo r.br.ctx.pc w else (r.br.ctx.pc + 8) % 2 ^ 23 } }) ∧
    Leaves (.opBnez b) s b 2 1 (fun r w => { r.br with ctx := { r.br.ctx with
      pc := if r.br.ctx.sget (insnA w) = 0 then (r.br.ctx.pc + 8) % 2 ^ 23 else branchTo r.br.ctx.pc w } }) ∧
    Leaves (.opJal b) s b 2 2 (fun r w => { r.br with ctx := { r.br.ctx.sput (insnD w) (BitVec.ofNat 64 ((r.br.ctx.pc + 8) % 2 ^ 23)) with
      pc := branchTo r.br.ctx.pc w } }) ∧
    (∀ r, Starts s b 2 3 r →
      exec (.opJr b) s = .next (afterCtl s b r { (started r).br with ctx := { (started r).br.ctx with
        pc := ((started r).br.ctx.sget (insnA r.word)).toNat % 2 ^ 23 } })) ∧
    (∀ r, Starts s b 2 4 r → (∀ e, 1 ≤ e → e ≤ 4 → (started r).br.ctx.queueOf e = []) →
      exec (.opHalt b) s = .next (afterCtl s b r { (started r).br with
        st := .halted, fault := 0, ctx := { (started r).br.ctx with halted := true } })) ∧
    Leaves (.opWdog b) s b 2 5 (fun r _ => { (withCtx r { r.br.ctx with wdogLeft := r.prog.wdogUs }) with wdogFrom := s.cyc }) ∧
    Leaves (.opRdcyc b) s b 2 6 (fun r w => withD r w (BitVec.ofNat 64 s.cyc)) ∧
    Leaves (.opRdbeat b) s b 2 7 (fun r w => withD r w (BitVec.ofNat 64 (s.beat.number.getD (2 ^ 64 - 1)))) ∧
    (∀ r, Starts s b 2 8 r → (∀ e, 1 ≤ e → e ≤ 4 → (started r).br.ctx.queueOf e = []) →
      exec (.opFence b) s = .next (afterCtl s b r (withCtx (started r) (started r).br.ctx))) ∧
    Leaves (.opClrsat b) s b 2 9 (fun r w => withCtx r { r.br.ctx with num := r.br.ctx.num - (r.br.ctx.num &&& bits (insnImm w) 8 0) }) ∧
    (∀ r, Starts s b 3 0 r → let x := started r
      let l := bits (insnImm r.word) 5 0
      (x.br.ctx.latchAt l).value < 255 →
      exec (.opSig b) s = .next (afterCtl s b r (withCtx x (x.br.ctx.signal l 0 x.br.ctx.pc)))) ∧
    (∀ r, Starts s b 3 1 r → let x := started r
      let l := bits (insnImm r.word) 5 0
      0 < (x.br.ctx.latchAt l).value →
      exec (.opWait b) s = .next (afterCtl s b r (withCtx x (x.br.ctx.setLatch l ((x.br.ctx.latchAt l).value - 1))))) ∧
    (∀ r, Starts s b 3 2 r → let x := started r
      let l := bits (insnImm r.word) 5 0
      ((x.br.ctx.latchAt l).value = 0 → exec (.opTry b) s = .next (afterCtl s b r (withD x r.word 0))) ∧
      (0 < (x.br.ctx.latchAt l).value →
        exec (.opTry b) s = .next (afterCtl s b r (withCtx x ((x.br.ctx.setLatch l ((x.br.ctx.latchAt l).value - 1)).sput (insnD r.word) 1))))) ∧
    Leaves (.opRdl b) s b 3 3 (fun r w => withD r w (BitVec.ofNat 64 (r.br.ctx.latchAt (bits (insnImm w) 5 0)).value)) ∧
    Leaves (.opSetl b) s b 3 4 (fun r w => withCtx r (r.br.ctx.setLatch (bits (insnImm w) 5 0) (bits (insnImm w) 13 6)))

/-- R233: what follows an instruction, a fault too, keeps registers, accumulators and stores; a fault halts the brick with its code, engine and address. -/
def Obligations.InstructionEndKeepsRegisters : Prop :=
  (∀ (s : State) (b e w addr k : Nat), ((s.finishInsn b e w addr).brick k).ctx.s = (s.brick k).ctx.s ∧
    ((s.finishInsn b e w addr).brick k).ctx.v = (s.brick k).ctx.v ∧ ((s.finishInsn b e w addr).brick k).ctx.acc = (s.brick k).ctx.acc ∧
    ((s.finishInsn b e w addr).brick k).ctx.num = (s.brick k).ctx.num ∧ ((s.finishInsn b e w addr).brick k).ctx.codebook = (s.brick k).ctx.codebook ∧
    ((s.finishInsn b e w addr).brick k).ctx.fifo = (s.brick k).ctx.fifo ∧ (∀ a, (∀ x ∈ (s.brick k).torn, a < x.1 ∨ x.1 + x.2 ≤ a) →
      getBytes ((s.finishInsn b e w addr).brick k).store a 1 = getBytes (s.brick k).store a 1) ∧
    ((s.brick k).torn = [] → ((s.finishInsn b e w addr).brick k).store = (s.brick k).store) ∧
    ((s.finishInsn b e w addr).brick k).bad = (s.brick k).bad) ∧
  (∀ (s : State) (b eng addr code key : Nat) (p : Prog), (s.brick b).prog = some key → tfind s.progs key = some p →
    (∃ g, tfind (s.brickFault b eng addr code).progs key = some g ∧
      g.firstFault = if p.firstFault = none ∨ (p.failCyc = s.cyc ∧ ∃ x, p.firstFault = some x ∧ b < x.1) then some (b, code, addr) else p.firstFault) ∧
    let t := (s.brickFault b eng addr code).brick b
    t.st = .faulted ∧ t.fault = code ∧ t.fEngine = eng ∧ t.fAddr = addr ∧ t.ctx.halted = true ∧ t.ctx.s = (s.brick b).ctx.s ∧ t.store = (s.brick b).store)

/-- R200, R204 to R217: what the matrix and LUT engines' instructions leave. -/
def Obligations.EngineInstructions : Prop :=
  (∀ (c : Ctx) (n a i j : Nat) (x : Shape) (cell : Nat → Nat → Word32 → Word32 × Bool), x.rows ≤ 16 → j < 16 →
    (i < x.rows → (c.product n a x cell).aget a i j = (cell i j (if x.acc then c.aget a i j else 0)).1) ∧
    (∀ a', i < 16 → a' ≠ a ∨ x.rows ≤ i → (c.product n a x cell).aget a' i j = c.aget a' i j) ∧ (c.product n a x cell).s = c.s) ∧
  ∀ (s : State) (b : Nat) (r : Run) (q : QEnt), let x := taken r q.word.toNat
    let w := q.word.toNat
    let sh := shapeOf w
    (∀ act wei, EngineStarts s b 4 0 r q → x.load q.a.toNat (sh.rows * sh.len) = .ok act → x.load q.b.toNat (16 * sh.len) = .ok wei →
      exec (.opMma8 b) s = .next (afterEng s b 4 x q { x.br with ctx := (x.br.ctx.product s.cyc (insnD w) sh fun i j old =>
        satAcc old (dotInt (((act.drop (i * sh.len)).take sh.len).map int8) (((wei.drop (j * sh.len)).take sh.len).map int8))) }
        0x48 (cdiv sh.products 256))) ∧
    (∀ act wei, EngineStarts s b 4 1 r q → x.load q.a.toNat (1 * sh.rows * sh.len) = .ok act → x.load q.b.toNat (16 * 1 * sh.len) = .ok wei →
      exec (.opMmaf8 b) s = .next (afterEng s b 4 x q { x.br with ctx := (x.br.ctx.product s.cyc (insnD w) sh fun i j old =>
        (dotGroups 32 old ((elems (fp8Of w 10) 1 sh.len (act.drop (1 * i * sh.len))).zip (elems (fp8Of w 11) 1 sh.len (wei.drop (1 * j * sh.len)))), false)) }
        0x48 (cdiv sh.products 256))) ∧
    (∀ act wei, EngineStarts s b 4 2 r q → x.load q.a.toNat (2 * sh.rows * sh.len) = .ok act → x.load q.b.toNat (16 * 2 * sh.len) = .ok wei →
      exec (.opMmab b) s = .next (afterEng s b 4 x q { x.br with ctx := (x.br.ctx.product s.cyc (insnD w) sh fun i j old =>
        (dotGroups 32 old ((elems bf16 2 sh.len (act.drop (2 * i * sh.len))).zip (elems bf16 2 sh.len (wei.drop (2 * j * sh.len)))), false)) }
        0x48 (cdiv sh.products 64))) ∧
    (EngineStarts s b 4 3 r q → exec (.opAzero b) s = .next (afterWork s b 4 x q { x.br with ctx := x.br.ctx.azero (insnD w) } 0x48 0)) ∧
    (EngineStarts s b 4 4 r q → x.ent.holds q.a.toNat 1024 = true →
      exec (.opAst b) s = .next (afterWork s b 4 x q (x.br.writeLoose q.a.toNat (x.br.ctx.accBytes (insnD w))) 0x48 0)) ∧
    (EngineStarts s b 5 0 r q → bit (insnImm w) 0 = true →
      exec (.opCbset b) s = .next (afterWork s b 5 x q { x.br with ctx := { x.br.ctx with codebook := none } } 0x50 0)) ∧
    (∀ bs, EngineStarts s b 5 0 r q → bit (insnImm w) 0 = false → x.load q.a.toNat 16 = .ok bs →
      exec (.opCbset b) s = .next (afterWork s b 5 x q { x.br with ctx := { x.br.ctx with codebook := some bs } } 0x50 0)) ∧
    (∀ act wei, EngineStarts s b 5 1 r q → x.load q.a.toNat (sh.rows * sh.len) = .ok act → x.load q.b.toNat (8 * sh.len) = .ok wei →
      exec (.opLdot b) s = .next (afterEng s b 5 x q { x.br with ctx := (x.br.ctx.product s.cyc (insnD w) sh fun i j old =>
        satAcc old (dotInt (((act.drop (i * sh.len)).take sh.len).map int8)
          ((List.range sh.len).map fun k => codeValue x.br.ctx.codebook (nibble (wei.drop (j * sh.len / 2)) k)))) }
        0x50 (cdiv sh.products 512))) ∧
    (∀ g tbl codes, EngineStarts s b 5 2 r q → x.load q.b.toNat 32 = .ok g → deqOk g = true →
      x.load (fld g 0 4) (tblBytes (fld g 9 1) * (if fld g 8 1 = 8 then 256 else 16)) = .ok tbl →
      x.load q.a.toNat (if fld g 8 1 = 8 then fld g 12 4 else cdiv (fld g 12 4) 2) = .ok codes →
      let out := ((List.range (fld g 12 4)).map fun i => deqOut (fld g 10 1) (fmul (fOf (tblFmt (fld g 9 1))
        (fld tbl (tblBytes (fld g 9 1) * (if fld g 8 1 = 8 then (codes.getD i 0).toNat else nibble codes i)) (tblBytes (fld g 9 1))))
        (BitVec.ofNat 32 (fld g 4 4)))).flatten
      Fits x q.d.toNat out.length → exec (.opDeq b) s = .next (afterWork s b 5 x q (x.br.write q.d.toNat out) 0x50 0)) ∧
    (∀ h blk xs, EngineStarts s b 5 3 r q → x.load q.b.toNat 64 = .ok h → histOk h = true → bits (insnImm w) 5 0 < fld h 4 2 →
      x.load q.b.toNat (histBytes (fld h 4 2)) = .ok blk → x.load q.a.toNat (4 * bits (insnImm w) 17 6) = .ok xs →
      let v := fmtVec 0 (bits (insnImm w) 17 6) xs
      let sc := scaleOfMax (fld h 3 1) (histScaleMax blk (bits (insnImm w) 5 0) (rowAmax v))
      let y := quantRow s.fresh (fld h 3 1) sc v
      let after := histAfter blk (bits (insnImm w) 5 0) (rowAmax v) y.2.1 y.2.2
      x.ent.holds q.d.toNat 4 = true → Fits x (q.d.toNat + 64) y.1.length → Fits x q.b.toNat after.length →
      exec (.opQuant b) s = .next (afterWork s b 5 x q (((x.br.write q.d.toNat (natLe sc.toNat 4)).write (q.d.toNat + 64) y.1).write
        q.b.toNat after) 0x50 1)) ∧
    (∀ g xs, EngineStarts s b 5 4 r q → bits (insnImm w) 4 0 < x.prog.priv → x.load (x.ent.pscale + 16 * bits (insnImm w) 4 0) 16 = .ok g →
      x.load q.a.toNat (4 * bits (insnImm w) 17 6) = .ok xs → privOk g = true →
      let y := quantRow s.fresh (fld g 4 1) (f32At g 0) (fmtVec 0 (bits (insnImm w) 17 6) xs)
      x.ent.holds q.d.toNat 4 = true → Fits x (q.d.toNat + 64) y.1.length →
      exec (.opQpriv b) s = .next (afterWork s b 5 x q (((x.br.write q.d.toNat (natLe (f32At g 0).toNat 4)).write (q.d.toNat + 64) y.1).write
        (x.ent.pscale + 16 * bits (insnImm w) 4 0) (patch g 8 (natLe (sat (fld g 8 4 + y.2.1) 32) 4 ++ natLe (sat (fld g 12 4 + y.2.2) 32) 4))) 0x50 1)) ∧
    (∀ es ss, EngineStarts s b 5 5 r q → x.load q.a.toNat 128 = .ok es → x.load q.b.toNat 64 = .ok ss →
      (∀ j, j < 16 → rescaleOk (slice es (8 * j) 8) = true) →
      let cells := (List.range 256).map fun k => rescaleElem (slice es (8 * (k % 16)) 8) (x.br.ctx.aget (bits (insnImm w) 2 0) (k / 16) (k % 16))
        (f32At ss (4 * (k / 16)))
      let out := x.br.write q.d.toNat (cells.map Prod.fst).flatten
      Fits x q.d.toNat (cells.map Prod.fst).flatten.length →
      exec (.opRescale b) s = .next (afterWork s b 5 x q (if cells.any Prod.snd = true then { out with ctx := x.br.ctx.numSat s.cyc 8 } else out)
        0x50 0)) ∧
    (∀ bs, EngineStarts s b 5 6 r q → x.load q.a.toNat 512 = .ok bs →
      exec (.opVld b) s = .next (afterWork s b 5 x q { x.br with ctx := x.br.ctx.vput (insnD w) bs } 0x50 0)) ∧
    (EngineStarts s b 5 7 r q → x.ent.holds q.a.toNat 512 = true →
      exec (.opVst b) s = .next (afterWork s b 5 x q (x.br.write q.a.toNat (x.br.ctx.vget (insnD w))) 0x50 0)) ∧
    (EngineStarts s b 5 8 r q → exec (.opVop b) s = .next (afterWork s b 5 x q
      { x.br with ctx := (x.br.ctx.vput (insnD w) (vopBytes (bits (insnImm w) 3 0) (bits (insnImm w) 5 4) (s.free % 2 == 0)
        (x.br.ctx.vget (insnA w)) (x.br.ctx.vget (insnB w)) (x.br.ctx.vget (insnD w)))) } 0x50 1)) ∧
    (EngineStarts s b 5 9 r q → exec (.opVred b) s = .next (afterWork s b 5 x q
      { x.br with ctx := x.br.ctx.sput (insnD w) (BitVec.ofNat 64 (fReduce (fmtVec 0 128 (x.br.ctx.vget (insnA w)))).toNat) } 0x50 0))

/-- R227 to R230, R234, R237, R242: the Mover, the Post, and delivery. -/
def Obligations.MoverAndPostInstructions : Prop :=
  (∀ (s : State) (b : Nat) (r : Run) (q : QEnt), let x := taken r q.word.toNat
    let w := q.word.toNat
    let u := s.setBrick b x.br
    (∀ v, EngineStarts s b 6 0 r q → Fits x q.b.toNat q.d.toNat → q.d.toNat = 0 ∨ x.ent.grants 0 q.a.toNat q.d.toNat = true →
      BringsIn x v u ((chunksFrom x.br.ctx.moved q.d.toNat).map fun o =>
        { tier := q.a.toNat + o, store := q.b.toNat + o, n := min 4096 (q.d.toNat - o), next := o + 4096 }) →
      exec (.opMget b) s = .next (s.within (v.engineDone b 3 q))) ∧
    (∀ v bs, EngineStarts s b 6 1 r q → x.load q.b.toNat q.d.toNat = .ok bs →
      q.d.toNat = 0 ∨ (x.ent.grants 1 q.a.toNat q.d.toNat = true ∧ s.inRanges x.wing q.a.toNat q.d.toNat = true) →
      TakesOut x q.a.toNat bs v u (chunksFrom x.br.ctx.moved q.d.toNat) → (q.d.toNat = 0 → v = u) →
      exec (.opMput b) s = .next (s.within (v.engineDone b 3 q))) ∧
    (∀ g idx v, EngineStarts s b 6 2 r q → x.load q.a.toNat 32 = .ok g → gatherOk g = true → x.load (fld g 16 4) (4 * fld g 12 4) = .ok idx →
      BringsIn x v u (((List.range (fld g 12 4)).drop x.br.ctx.moved).map fun k =>
        { tier := fld g 0 8 + fld idx (4 * k) 4 * fld g 8 4, store := fld g 20 4 + k * fld g 8 4, n := fld g 8 4, next := k + 1 }) →
      exec (.opMgather b) s = .next (s.within (v.engineDone b 3 q))) ∧
    (EngineStarts s b 6 3 r q → q.d.toNat % 8 = 0 → 0 < q.d.toNat → x.ent.holds q.b.toNat q.d.toNat = true →
      exec (.opMfill b) s = .next (afterEng s b 6 x q (x.br.writeLoose q.b.toNat (List.replicate (q.d.toNat / 8) (natLe q.a.toNat 8)).flatten)
        0x58 q.d.toNat)) ∧
    (EngineStarts s b 6 3 r q → q.d.toNat = 0 → exec (.opMfill b) s = .next (afterEng s b 6 x q x.br 0x58 0)) ∧
    (∀ payload, EngineStarts s b 7 0 r q → (∀ o, s.brickWing (bits q.a.toNat 7 0) = some o → o = x.wing) → x.load q.b.toNat (insnImm w) = .ok payload →
      Answers (.opPsend b) s fun t => (t.brick b).ctx.sending = true ∧ t.nextId = s.nextId + 1 ∧ ∃ p, t.transit = s.transit ++ [p] ∧ p.id = s.nextId ∧
        p.src = some b ∧ p.dst = bits q.a.toNat 7 0 ∧ p.fifo = bits q.a.toNat 9 8 ∧ p.pkt.payload = payload) ∧
    (EngineStarts s b 7 1 r q → exec (.opPhead b) s = .next (afterEng s b 7 x q { x.br with ctx := (x.br.ctx.sput (insnD w)
      (((x.br.ctx.fifoAt (bits (insnImm w) 1 0)).pkts.head?.map Packet.w0).getD notValid)) } 0 0)) ∧
    (EngineStarts s b 7 2 r q → (x.br.ctx.fifoAt (bits (insnImm w) 1 0)).pkts = [] →
      exec (.opPtake b) s = .next (afterEng s b 7 x q { x.br with ctx := x.br.ctx.sput (insnD w) notValid } 0 0)) ∧
    (∀ p ps, EngineStarts s b 7 2 r q → (x.br.ctx.fifoAt (bits (insnImm w) 1 0)).pkts = p :: ps → x.ent.holds q.a.toNat p.bytes.length = true →
      exec (.opPtake b) s = .next (afterEng s b 7 x q { (x.br.writeLoose q.a.toNat p.bytes) with
        ctx := (x.br.ctx.setFifo (bits (insnImm w) 1 0) (x.br.ctx.fifoAt (bits (insnImm w) 1 0)).pop).sput (insnD w) p.w0 } 0 0)) ∧
    (EngineStarts s b 7 3 r q → exec (.opPdrop b) s = .next (afterEng s b 7 x q { x.br with
      ctx := x.br.ctx.setFifo (bits (insnImm w) 1 0) (x.br.ctx.fifoAt (bits (insnImm w) 1 0)).pop } 0 0)) ∧
    (EngineStarts s b 7 4 r q → exec (.opPbind b) s = .next (afterEng s b 7 x q { x.br with
      ctx := x.br.ctx.setFifo (bits (insnImm w) 1 0) { x.br.ctx.fifoAt (bits (insnImm w) 1 0) with
        bind := if bit (insnImm w) 8 then some (bits (insnImm w) 7 2, q.addr) else none } } 0 0))) ∧
  (∀ (s : State) (id : Nat) (p : Transit), s.transit.find? (fun t => t.id == id) = some p → s.err.fatal = false →
    (s.postTo p.dprog p.dst = true → ((s.brick p.dst).ctx.fifoAt p.fifo).room p.pkt = true → s.postAhead p = false → p.src ≠ some p.dst →
      (∀ l a, ((s.brick p.dst).ctx.fifoAt p.fifo).bind = some (l, a) → ((s.brick p.dst).ctx.latchAt l).value < 255) →
      Answers (.postPacketDeliver id) s fun t => (∀ x ∈ t.transit, x.id ≠ p.id) ∧
        (p.src = none → ∀ x ∈ s.transit, x.id ≠ p.id → p.fid = none ∨ x.fid ≠ p.fid → x ∈ t.transit) ∧
        (∃ pkt, ((t.brick p.dst).ctx.fifoAt p.fifo).pkts = ((s.brick p.dst).ctx.fifoAt p.fifo).pkts ++ [pkt] ∧ pkt.payload = p.pkt.payload ∧
          pkt.w0 = p.pkt.w0) ∧
        (∀ l a, ((s.brick p.dst).ctx.fifoAt p.fifo).bind = some (l, a) →
          ((t.brick p.dst).ctx.latchAt l).value = ((s.brick p.dst).ctx.latchAt l).value + 1) ∧
        (∀ fid f, p.fid = some fid → s.flight? fid = some f → f.phase ≠ .done → Completed t fid .ok 0 0) ∧
        (∀ b r q, p.src = some b → s.run? b = some r → (r.br.ctx.queueOf 4).head? = some q →
          (t.brick b).ctx.sget (insnD q.word.toNat) = 0)) ∧
    (s.postTo p.dprog p.dst = false → Answers (.postPacketDeliver id) s fun t => (∀ x ∈ t.transit, x.id ≠ p.id) ∧
      (p.src = none → t.bricks = s.bricks) ∧
      (∀ fid f g, p.fid = some fid → s.flight? fid = some f → f.phase ≠ .done → tfind s.progs p.dprog = some g →
        Completed t fid (if g.st = .running then .busy else .invalid) 0 0) ∧
      (∀ b r q, p.src = some b → s.run? b = some r → (r.br.ctx.queueOf 4).head? = some q → insnD q.word.toNat ≠ 0 →
        (t.brick b).ctx.sget (insnD q.word.toNat) = 1)))

/-- R232, R235, R236, R238 to R245: what the program descriptors, a slice switch and a watchdog leave. -/
def Obligations.ProgramsLoadRunAndEnd : Prop :=
  (∀ (s u : State) (fid : Nat) (src : Dma) (img : Bytes) (f : Flight), s.ready? fid 0x500 = some f →
    loadOk f = true → hHandle f.raw < 256 → s.progAt f = none → Source s u f (f.u 24 1) (f.u 32 8) (f.u 40 8) src 0 img → u.flight? fid = some f →
    let p := progOf f img u.nextId
    let group := u.sliceGroup f.wing p.uses
    (∀ k, k < f.u 16 2 → u.entOk f.wing p.priv (f.u 40 8) img k = true) → noRepeat p.uses = true → u.progs.length < 1024 → group.length < 16 →
    let own := ((saveDemands p.bricks (group.map Prod.snd)).map Prod.snd).sum
    let grown := fun e => ((addedDemands p group e).map Prod.snd).sum
    let all := own + (group.map grown).sum
    FloorRoom u f.wing all →
    Answers (.progLoad fid src) s fun t => Completed t fid .ok 0 0 ∧ ∃ q, tfind t.progs f.obj = some q ∧ q.st = .loaded ∧ q.bricks = p.bricks ∧
      q.quantum = p.quantum ∧ q.wdogUs = p.wdogUs ∧ q.frames.length = own ∧ (∀ x ∈ q.frames, x ∈ t.frames ∧ x.wing = f.wing) ∧
      (∀ e ∈ group, ∃ m, tfind t.progs e.1 = some m ∧ m.st = e.2.st ∧ m.frames.length = e.2.frames.length + grown e) ∧
      ((∀ e ∈ group, e.2.resident = false ∧ e.2.switching = false) → q.resident = true ∧ ∀ e ∈ p.bricks, (t.brick e.brick).prog = some f.obj ∧
        (t.brick e.brick).ctx = {}) ∧
      ((∃ e ∈ group, e.2.resident = true ∨ e.2.switching = true) → q.resident = false ∧ t.bricks = u.bricks)) ∧
  (∀ (s : State) (fid : Nat) (f : Flight) (p : Prog), s.ready? fid 0x501 = some f → s.progAt f = some p → f.zero [(16, 8), (32, 96)] = true →
    p.st = .loaded → p.startFid = none → (∀ b, (s.brick b).torn = []) →
    (f.u 24 8 = 0 → p.resident = true → Answers (.progStart fid) s fun t => Completed t fid .ok 0 0 ∧
      (∃ q, tfind t.progs f.obj = some q ∧ q.bricks = p.bricks ∧ q.st ≠ .loaded ∧ q.startFid = none) ∧
      (∀ b, (t.brick b).store = (s.brick b).store) ∧
      ∀ e ∈ p.bricks, (t.brick e.brick).ctx.s = [] ∧ (t.brick e.brick).ctx.v = [] ∧ (t.brick e.brick).ctx.acc = [] ∧ (t.brick e.brick).ctx.num = 0 ∧
        ((t.brick e.brick).st = .running ∨ (t.brick e.brick).st = .faulted)) ∧
    (f.u 24 8 = 0 → p.resident = false → Answers (.progStart fid) s fun t => Admitted t fid s.cyc ∧ t.bricks = s.bricks ∧
      ∃ q, tfind t.progs f.obj = some q ∧ q = { p with startFid := some fid, startBeat := none }) ∧
    (f.u 24 8 ≠ 0 → BeatFree s (f.u 24 8) → Answers (.progStart fid) s fun t => Admitted t fid s.cyc ∧ t.bricks = s.bricks ∧
      (∃ q, tfind t.progs f.obj = some q ∧ q = { p with startFid := some fid, startBeat := some (f.u 24 8) }) ∧
      t.beat.sched = s.beat.sched ++ [{ beat := f.u 24 8, kind := .progStart f.obj }])) ∧
  (∀ (s : State) (fid : Nat) (f : Flight) (p : Prog), s.ready? fid 0x502 = some f → s.progAt f = some p → f.zero [(16, 112)] = true →
    (p.st = .ended → Answers (.progWait fid) s fun t => (p.firstFault = none → Completed t fid .ok 0 p.cycles) ∧
      ∀ b code a, p.firstFault = some (b, code, a) → Completed t fid .aborted 0 (b + 256 * code)) ∧
    (p.st ≠ .ended → Answers (.progWait fid) s fun t => Admitted t fid s.cyc ∧ ∃ q, tfind t.progs f.obj = some q ∧ q = { p with waits := p.waits ++ [fid] })) ∧
  (∀ (s : State) (fid : Nat) (f : Flight) (p : Prog), s.ready? fid 0x503 = some f → s.progAt f = some p → f.zero [(16, 112)] = true →
    (p.st = .ended → Answers (.progStop fid) s fun t => Completed t fid .ok 0 0 ∧ t.bricks = s.bricks) ∧
    (p.st ≠ .ended → fid ∉ p.waits → p.startFid ≠ some fid → (p.resident = true → ∀ b ∈ p.uses, (s.brick b).prog = some f.obj) →
      Answers (.progStop fid) s fun t => Completed t fid .ok 0 0 ∧ (∃ q, tfind t.progs f.obj = some q ∧ q.st = .ended ∧ q.bricks = p.bricks ∧
        (∀ b ∈ p.uses, t.brickHalted f.obj q b = true) ∧
        ∀ g x, g ∈ p.waits → p.startFid ≠ some g → s.flight? g = some x → x.phase ≠ .done → Completed t g q.endCpl.status 0 q.endCpl.result) ∧
        ∀ g x, p.startFid = some g → g ∉ p.waits → s.flight? g = some x → x.phase ≠ .done → Completed t g .invalid 0 0)) ∧
  (∀ (s u : State) (fid : Nat) (src : Dma) (payload : Bytes) (f : Flight) (p : Prog), s.ready? fid 0x504 = some f → s.progAt f = some p →
    postOk f = true → p.uses.contains (f.u 16 1) = true → p.st = .running → s.postTo f.obj (f.u 16 1) = true →
    Source s u f (f.u 24 1) (f.u 32 8) (f.u 18 2) src 0 payload → u.flight? fid = some f →
    Answers (.progPost fid src) s fun t => Admitted t fid u.cyc ∧ t.bricks = u.bricks ∧ ∃ x, t.transit = u.transit ++ [x] ∧ x.id = u.nextId ∧
      x.fid = some fid ∧ x.src = none ∧ x.dst = f.u 16 1 ∧ x.fifo = f.u 17 1 ∧ x.dprog = f.obj ∧ x.pkt.payload = payload) ∧
  (∀ (s : State) (fid : Nat) (f : Flight) (p : Prog), s.ready? fid 0x505 = some f → s.progAt f = some p → f.zero [(16, 112)] = true →
    (p.st = .running → Answers (.progUnload fid) s fun t => Completed t fid .busy 0 0 ∧ OnlyBooks s t) ∧
    (p.st ≠ .running → fid ∉ p.waits → p.startFid ≠ some fid → Answers (.progUnload fid) s fun t => Completed t fid .ok 0 0 ∧
      tfind t.progs f.obj = none ∧ ∀ b, (t.brick b).store = (s.brick b).store ∧
        (b ∈ p.uses → (s.brick b).prog = some f.obj → (t.brick b).prog = none))) ∧
  (∀ (s : State) (w h : Nat) (p : Prog), tfind s.progs (objKey w h) = some p → p.switching = true → p.startFid = none →
    Answers (.sliceResume w h) s fun t => (∃ q, tfind t.progs (objKey w h) = some q ∧ q.resident = true ∧ q.switching = false) ∧
      ∀ e ∈ p.bricks, (t.brick e.brick).prog = some (objKey w h) ∧ (t.brick e.brick).ctx.s = (tget {} p.saved e.brick).s ∧
        (t.brick e.brick).ctx.acc = (tget {} p.saved e.brick).acc) ∧
  (∀ (s : State) (w h g : Nat) (p : Prog), tfind s.progs (objKey w h) = some p → p.switching = true → p.startFid = some g → p.startBeat = none →
    p.st = .loaded → Answers (.sliceResume w h) s fun t => (∃ q, tfind t.progs (objKey w h) = some q ∧ q.resident = true ∧ q.switching = false ∧
      q.startFid = none ∧ q.st ≠ .loaded) ∧ ∀ x, s.flight? g = some x → x.phase ≠ .done → Completed t g .ok 0 0) ∧
  (∀ (s : State) (b : Nat) (r : Run), s.run? b = some r →
    (r.br.wdogAt < s.cyc → Answers (.brickWatchdogExpiry b) s fun t => (t.brick b).st = .faulted ∧ (t.brick b).fault = fWatchdog ∧
      (t.brick b).ctx.halted = true ∧ (t.brick b).store = (s.brick b).store) ∧
    (s.cyc ≤ r.br.wdogAt → exec (.brickWatchdogExpiry b) s = .next s))

/-- R248 to R251, R253 to R255: vocabularies, and cutting text: no byte is lost, no segment too long, results written and counted. -/
def Obligations.TextIsCutIntoSegments : Prop :=
  (∀ (s u : State) (fid : Nat) (src : Dma) (img : Bytes) (tokens : List Token) (f : Flight), s.ready? fid 0x610 = some f →
    f.zero [(12, 4), (18, 2), (24, 8), (48, 80)] = true → f.u 16 1 < 8 → f.u 17 1 ≤ 1 → inside 1 262144 (f.u 20 4) = true →
    aligned64 (f.u 32 8) = true → SlotFree s f.wing (f.u 16 1) →
    (∀ x, x = s ∨ x = u → FloorRoom (x.freeSlot (f.u 16 1)) f.wing (cdiv (f.u 40 8) pageSize)) →
    Source s u f (f.u 17 1) (f.u 32 8) (f.u 40 8) src 0 img → 8 * f.u 20 4 ≤ f.u 40 8 → tokensOf img (f.u 20 4) = some tokens →
    u.flight? fid = some f →
    Answers (.vocabLoad fid src) s fun t => Completed t fid .ok 0 0 ∧
      (∃ frames, tfind t.vocabs (f.u 16 1) = some { wing := f.wing, tokens, pages := cdiv (f.u 40 8) pageSize, frames } ∧
        frames.length = cdiv (f.u 40 8) pageSize ∧ ∀ x ∈ frames, x ∈ t.frames ∧ x.wing = f.wing) ∧ t.streams = u.streams) ∧
  (∀ (s : State) (fid : Nat) (f : Flight), s.ready? fid 0x611 = some f → f.zero [(12, 4), (17, 111)] = true → f.u 16 1 < 8 →
    SlotFree s f.wing (f.u 16 1) → Answers (.vocabDrop fid) s fun t => Completed t fid .ok 0 0 ∧ tfind t.vocabs (f.u 16 1) = none ∧
      (∀ k, k ≠ f.u 16 1 → tfind t.vocabs k = tfind s.vocabs k) ∧ t.streams = s.streams) ∧
  (∀ (s : State) (fid : Nat) (src : Dma) (f : Flight), s.ready? fid 0x620 = some f → streamOpenOk f = true → hHandle f.raw < 4096 →
    s.streamOf f = none → s.streams.length < 4096 → f.u 16 1 = 1 →
    Answers (.streamOpen fid src) s fun t => Completed t fid .ok 0 0 ∧ t.vocabs = s.vocabs ∧
      tfind t.streams f.obj = some { cut := true, segLen := f.u 20 2, outW := f.u 22 1, pad := f.u 24 2, idBase := f.u 26 2 }) ∧
  (∀ (final : Bool) (input : Bytes), let u := cutUnits final input.length input
    u.1.flatten ++ u.2 = input ∧ u.2.length ≤ 3 ∧ (final = true → u.2 = []) ∧ ∀ x ∈ u.1, 1 ≤ x.length ∧ x.length ≤ 4) ∧
  (∀ (n : Nat) (units : List Bytes), (∀ x ∈ units, 1 ≤ x.length ∧ x.length ≤ n) → (fillSegs n units).flatten = units.flatten ∧
    ∀ x ∈ fillSegs n units, 1 ≤ x.length ∧ x.length ≤ n) ∧
  (∀ (s u : State) (fid : Nat) (src : Dma) (bs : Bytes) (f : Flight) (x : Stream), s.ready? fid 0x600 = some f → s.streamOf f = some x →
    x.cut = true → f.zero [(18, 2), (24, 8), (52, 76)] = true → f.u 16 1 ≤ 1 → f.u 17 1 ≤ 1 → inside 1 1048576 (f.u 20 4) = true →
    aligned64 (f.u 40 8) = true → cdiv (f.u 20 4 + 3) (x.segLen - 3) * x.segLen * x.outW ≤ f.u 48 4 →
    Source s u f (f.u 16 1) (f.u 32 8) (f.u 20 4) src 0 bs → u.flight? fid = some f → tfind u.streams f.obj = some x →
    (u.port (u.flightPort f)).st ≠ .failed →
    let c := cutUnits (f.u 17 1 == 1) (x.carry ++ bs).length (x.carry ++ bs)
    let segs := fillSegs x.segLen c.1
    Answers (.textCut fid src) s fun t => Completed t fid .ok (countCap segs.length) (pack32 segs.length c.2.length) ∧
      tfind t.streams f.obj = some { x with carry := c.2 } ∧
      ((segs.map x.segBytes).flatten ≠ [] → .hostWrite (u.flightPort f) (f.resultArea.1 + 0) (segs.map x.segBytes).flatten ∈ t.out))

/-- R250 to R252, R256 to R261: streams and drafts. -/
def Obligations.StreamsFeedAndDraft : Prop :=
  (∀ (s u : State) (fid : Nat) (src : Dma) (b : Bytes) (stops : List Bytes) (v : Vocab) (f : Flight), s.ready? fid 0x620 = some f →
    streamOpenOk f = true → hHandle f.raw < 4096 → s.streamOf f = none → s.streams.length < 4096 → f.u 16 1 = 0 →
    tfind s.vocabs (f.u 17 1) = some v → v.wing = f.wing →
    Source s u f (f.u 19 1) (f.u 32 8) (if f.u 18 1 = 0 then 0 else 16 + 64 * f.u 18 1) src 0 b → stopsOf b (f.u 18 1) = some stops →
    u.flight? fid = some f →
    Answers (.streamOpen fid src) s fun t => Completed t fid .ok 0 0 ∧
      tfind t.streams f.obj = some { cut := false, vocab := f.u 17 1, stops }) ∧
  (∀ (s u : State) (fid : Nat) (src : Dma) (bs : Bytes) (f : Flight) (x : Stream) (v : Vocab), s.ready? fid 0x621 = some f →
    s.streamOf f = some x → x.cut = false → x.stopped = false → f.zero [(18, 2), (24, 8), (52, 76)] = true → f.u 16 1 ≤ 2 → f.u 17 1 ≤ 1 →
    inside 1 4096 (f.u 20 4) = true → aligned64 (f.u 32 8) = true → (f.u 16 1 = 2 → f.u 32 8 = 0) → aligned64 (f.u 40 8) = true →
    384 * f.u 20 4 + 72 ≤ f.u 48 4 → zeroAt f.cont (4 * f.u 20 4) (f.cont.length - 4 * f.u 20 4) = true →
    Source s u f (f.u 16 1) (f.u 32 8) (4 * f.u 20 4) src 0 bs → tfind u.vocabs x.vocab = some v →
    bs.length = 4 * f.u 20 4 → (∀ i ∈ words32 bs, i < v.tokens.length) → u.flight? fid = some f → tfind u.streams f.obj = some x → (u.port (u.flightPort f)).st ≠ .failed →
    let st := runFeed x v.tokens (f.u 17 1 == 1) (words32 bs)
    Answers (.streamFeed fid src) s fun t =>
      Completed t fid .ok st.count (st.out.length + (st.stop.getD (0, 0)).1 * 2 ^ 32 + (st.stop.getD (0, 0)).2 * 2 ^ 40) ∧
      tfind t.streams f.obj = some { x with
        carry := st.carry, held := st.held, stopped := st.stop.isSome, history := (x.history ++ st.hist).drop ((x.history ++ st.hist).length - 8) } ∧
      (st.out ≠ [] → .hostWrite (u.flightPort f) (f.resultArea.1 + 0) st.out ∈ t.out)) ∧
  (∀ (x : Stream) (tokens : List Token) (final : Bool) (ids : List Nat), (x.stops = [] → x.held = [] → (runFeed x tokens final ids).held = []) ∧
    (runFeed x tokens final ids).count ≤ ids.length ∧ (runFeed x tokens final ids).hist = ids.take (runFeed x tokens final ids).count) ∧
  (∀ (s : State) (fid : Nat) (f : Flight) (x : Stream), s.ready? fid 0x622 = some f → s.streamOf f = some x → f.zero [(16, 112)] = true →
    Answers (.streamClose fid) s fun t => Completed t fid .ok 0 0 ∧ tfind t.streams f.obj = none ∧ t.vocabs = s.vocabs ∧
      ∀ k, k ≠ f.obj → tfind t.streams k = tfind s.streams k) ∧
  (∀ (s u : State) (fid : Nat) (src : Dma) (bs : Bytes) (f : Flight) (x : Stream) (y : Vocab), s.ready? fid 0x630 = some f →
    s.streamOf f = some x → x.cut = false → f.zero [(18, 2), (24, 8), (48, 80)] = true → inside 1 64 (f.u 16 1) = true → f.u 17 1 ≤ 1 →
    inside 1 65536 (f.u 20 4) = true → f.u 40 8 = roundUp (4 * f.u 16 1) 64 + 4 * f.u 20 4 →
    Source s u f (f.u 17 1) (f.u 32 8) (f.u 40 8) src 0 bs →
    zeroAt bs (4 * f.u 16 1) (roundUp (4 * f.u 16 1) 64 - 4 * f.u 16 1) = true →
    (∀ l ∈ words32 (slice bs 0 (4 * f.u 16 1)), 1 ≤ l) → (words32 (slice bs 0 (4 * f.u 16 1))).foldl (· + ·) 0 = f.u 20 4 →
    tfind u.vocabs x.vocab = some y → (∀ i ∈ words32 (bs.drop (roundUp (4 * f.u 16 1) 64)), i < y.tokens.length) →
    FloorRoom (u.freeInternal f.wing x.frames) f.wing (cdiv (f.u 40 8) pageSize) → u.flight? fid = some f → tfind u.streams f.obj = some x →
    Answers (.draftSource fid src) s fun t => Completed t fid .ok 0 0 ∧ ∃ frames, frames.length = cdiv (f.u 40 8) pageSize ∧
      (∀ y ∈ frames, y ∈ t.frames ∧ y.wing = f.wing) ∧ tfind t.streams f.obj = some { x with
      draft := some (passages (words32 (slice bs 0 (4 * f.u 16 1))) (words32 (bs.drop (roundUp (4 * f.u 16 1) 64))))
      draftPages := cdiv (f.u 40 8) pageSize, frames }) ∧
  (∀ (s : State) (fid : Nat) (f : Flight), s.ready? fid 0x631 = some f → Answers (.draftPropose fid) s fun t =>
    tget 0 t.live 0x5068 = min (tget 0 s.live 0x5068 + 1) (2 ^ 64 - 1) ∧
    ((∀ x, s.streamOf f = some x → x.draft = none ∨ x.stopped = true) → Completed t fid .invalid 0 0)) ∧
  (∀ (s : State) (fid : Nat) (f : Flight) (x : Stream) (ps : List (List Nat)), s.ready? fid 0x631 = some f → s.streamOf f = some x → x.draft = some ps →
    x.stopped = false → f.zero [(18, 22), (48, 80)] = true → inside 1 8 (f.u 16 1) = true → inside 1 16 (f.u 17 1) = true →
    aligned64 (f.u 40 8) = true →
    (draftMatch x.history (f.u 16 1) ps = none → Answers (.draftPropose fid) s fun t => Completed t fid .ok 0 0 ∧ t.streams = s.streams) ∧
    (∀ p pos l, draftMatch x.history (f.u 16 1) ps = some (p, pos, l) → (s.port (s.flightPort f)).st ≠ .failed →
      Answers (.draftPropose fid) s fun t =>
        Completed t fid .ok ((((ps.getD p []).drop pos).take (f.u 17 1)).length) (p + l * 2 ^ 8 + pos * 2 ^ 16) ∧ t.streams = s.streams ∧
        (∃ bs, .hostWrite (s.flightPort f) (f.resultArea.1 + 0) bs ∈ t.out ∧ bs = ((((ps.getD p []).drop pos).take (f.u 17 1)).map fun i => natLe i 4).flatten) ∧
        f.u 16 1 ≤ l ∧ l ≤ 8 ∧ l ≤ pos ∧ ((ps.getD p []).take pos).drop (pos - l) = x.history.drop (x.history.length - l)))

/-- R266 to R273, R278, R292, R299, R344: tier ranges come at the lowest place and go when nothing needs them; pins. -/
def Obligations.TierRangesComeAndGo : Prop :=
  (∀ (s : State) (f : Flight) (base : Nat), s.allocBase f = .ok base →
    (tierSpan (f.u 16 1) (f.u 19 1)).1 ≤ base ∧ base + f.u 20 4 ≤ (tierSpan (f.u 16 1) (f.u 19 1)).1 + (tierSpan (f.u 16 1) (f.u 19 1)).2 ∧
    s.meetsRange f.wing base (f.u 20 4) = false ∧
    (bit (f.u 17 1) 1 = false → ∀ b, (tierSpan (f.u 16 1) (f.u 19 1)).1 ≤ b → b < base →
      (isRegionRange (f.u 16 1) (f.u 18 1) (f.u 20 4) = true → b % 8 = 0) → s.meetsRange f.wing b (f.u 20 4) = true)) ∧
  (∀ (s : State) (fid base : Nat) (f : Flight), s.ready? fid 0x940 = some f → allocFieldsOk f = true → s.allocBase f = .ok base →
    (f.u 16 1 = 1 → s.floorUse f.wing + f.u 20 4 ≤ s.floorQuota f.wing → isRegionRange 1 (f.u 18 1) (f.u 20 4) = false →
      (∀ i, i < 12 → f.u 18 1 = 0 ∨ f.u 18 1 = i + 1 → f.u 20 4 ≤ s.stackFree f.wing i) →
      Answers (.tierAlloc fid) s fun t => Admitted t fid s.cyc ∧ t.ranges = s.ranges ++ [rangeOf f base] ∧
        (∀ j, j < f.u 20 4 → ∃ x, t.page f.wing (base + j) = floorEnt x ∧ x.wing = f.wing ∧ (f.u 18 1 ≠ 0 → x.stack + 1 = f.u 18 1)) ∧
        ∀ k, (∀ j, j < f.u 20 4 → k ≠ pageKey f.wing (base + j)) → tfind t.pages k = tfind s.pages k) ∧
    (f.u 16 1 = 1 → s.floorUse f.wing + f.u 20 4 ≤ s.floorQuota f.wing → isRegionRange 1 (f.u 18 1) (f.u 20 4) = true →
      ∀ l, s.freeRegions f.wing ((f.u 18 1 - 1) / 3) (f.u 20 4 / 8) = some l → l.length = f.u 20 4 / 8 ∧ (∀ k ∈ l, k ∉ s.claimed) ∧
      Answers (.tierAlloc fid) s fun t => Admitted t fid s.cyc ∧ t.ranges = s.ranges ++ [{ rangeOf f base with regions := l }] ∧
        (∀ j, j < f.u 20 4 → t.page f.wing (base + j) = floorEnt (regionFrame f.wing (l.getD (j / 8) 0) (j % 8))) ∧
        ∀ k, (∀ j, j < f.u 20 4 → k ≠ pageKey f.wing (base + j)) → tfind t.pages k = tfind s.pages k) ∧
    (f.u 16 1 = 1 → s.floorQuota f.wing < s.floorUse f.wing + f.u 20 4 →
      Answers (.tierAlloc fid) s fun t => Completed t fid .noResource 0 0 ∧ OnlyBooks s t) ∧
    (f.u 16 1 = 2 → s.cellarUse f.wing + f.u 20 4 ≤ s.cellarQuota f.wing → s.cellarTotal + f.u 20 4 ≤ 106811523 →
      Answers (.tierAlloc fid) s fun t => Completed t fid .ok 0 (base * pageSize) ∧
        t.ranges = s.ranges ++ [{ rangeOf f base with ready := true, fid := none }] ∧ t.pages = s.pages ∧ t.frames = s.frames) ∧
    (f.u 16 1 = 3 → s.annexUse f.wing + f.u 20 4 ≤ s.annexQuota f.wing → s.annexRanges (f.u 19 1) < 256 → (s.bp (f.u 19 1)).en = .enabled →
      Answers (.tierAlloc fid) s fun t => Admitted t fid s.cyc ∧ t.ranges = s.ranges ++ [rangeOf f base] ∧
        (∀ r ∈ (s.bp (f.u 19 1)).reqs, r ∈ (t.bp (f.u 19 1)).reqs) ∧ t.pages = s.pages)) ∧
  (∀ (s : State) (fid : Nat) (f : Flight) (r : Range), s.ranges.find? (fun r => r.fid == some fid && r.tier == 1) = some r →
    s.active? fid 0x940 = some f → Answers (.tierAllocZeroDone fid) s fun t => Completed t fid .ok 0 (r.base * pageSize) ∧
      t.ranges = s.ranges.map (fun x => if x = r then { x with ready := true, fid := none } else x) ∧ t.pages = s.pages) ∧
  (∀ (s : State) (fid : Nat) (f : Flight) (r : Range), s.ready? fid 0x941 = some f → f.zero [(12, 4), (16, 4), (32, 96)] = true →
    s.exactRange f.wing (f.u 24 8) (f.u 20 4) = some r →
    (s.programOn r = true ∨ s.windowsOn r.wing r.base r.pages = true →
      Answers (.tierFree fid) s fun t => Completed t fid .busy 0 0 ∧ OnlyBooks s t) ∧
    (s.programOn r = false → s.windowsOn r.wing r.base r.pages = false →
      (s.namers r fid ≠ [] ∨ s.journalFull r = true → Answers (.tierFree fid) s fun t => Admitted t fid s.cyc ∧
        t.ranges = s.ranges.map (fun x => if x = r then { x with freeFrom := some fid, freeFor := s.namers r fid } else x) ∧ t.pages = s.pages) ∧
      (s.namers r fid = [] → s.journalFull r = false → Answers (.tierFree fid) s fun t => Completed t fid .ok 0 0 ∧ t.ranges = s.ranges.filter (fun x => x != r) ∧
        ∀ p, r.base ≤ p → p < r.base + r.pages → tfind t.pages (pageKey r.wing p) = none))) ∧
  (∀ (s : State) (fid : Nat) (f : Flight) (r : Range), s.ranges.find? (fun r => r.freeFrom == some fid) = some r → s.active? fid 0x941 = some f →
    ((∃ g ∈ s.flights, g.fid ∈ r.freeFor ∧ g.phase ≠ .done) ∨ s.journalFull r = true → exec (.tierFreeRelease fid) s = .next s) ∧
    ((∀ g ∈ s.flights, g.fid ∈ r.freeFor → g.phase = .done) → s.journalFull r = false → Answers (.tierFreeRelease fid) s fun t => Completed t fid .ok 0 0 ∧ t.ranges = s.ranges.filter (fun x => x != r) ∧
      ∀ p, r.base ≤ p → p < r.base + r.pages → tfind t.pages (pageKey r.wing p) = none)) ∧
  (∀ (s : State) (fid : Nat) (r : Range), s.ranges.find? (fun r => r.freeFrom == some fid) = some r → s.active? fid 0x941 = none →
    Answers (.tierFreeRelease fid) s fun t => t.ranges = s.ranges.map (fun x => if x = r then { x with freeFrom := none, freeFor := [] } else x) ∧
      t.pages = s.pages) ∧
  (∀ (s : State) (fid : Nat) (f : Flight) (r : Range), s.ready? fid 0x942 = some f → s.rangeOver f.wing (f.u 24 8) (f.u 20 4) = some r →
    f.zero [(12, 4), (17, 3), (32, 96)] = true → f.u 16 1 ≤ 1 →
    let ps := (List.range (f.u 20 4)).map fun i => f.u 24 8 / pageSize + i
    (r.tier = 1 → Answers (.tierPin fid) s fun t => Completed t fid .ok 0 0 ∧ OnlyBooks s t) ∧
    (r.tier ≠ 1 → f.u 16 1 = 0 → Answers (.tierPin fid) s fun t => Completed t fid .ok 0 0 ∧
      (∀ p ∈ ps, t.page f.wing p = { s.page f.wing p with pinned := false }) ∧ t.ranges = s.ranges ∧ t.frm = s.frm) ∧
    (r.tier ≠ 1 → f.u 16 1 = 1 → (∀ p ∈ ps, (s.page f.wing p).cached = true ∧ (s.page f.wing p).filling = false ∧
        s.inLost f.wing (p * pageSize) 1 = false) → s.cacheUse f.wing ≤ s.cacheMax f.wing →
      Answers (.tierPin fid) s fun t => Completed t fid .ok 0 0 ∧ (∀ p ∈ ps, t.page f.wing p = { s.page f.wing p with pinned := true }) ∧
        t.ranges = s.ranges ∧ t.frm = s.frm)) ∧
  (∀ (s : State) (fid : Nat) (x : PinWait) (f : Flight), s.pins.find? (fun x => x.fid == fid) = some x → s.flight? x.fid = some f → f.phase = .active →
    (∀ p ∈ x.pages, (s.page x.wing p).cached = true ∧ (s.page x.wing p).filling = false ∧ s.inLost x.wing (p * pageSize) 1 = false) →
    Answers (.tierPinRetry fid) s fun t => Completed t fid .ok 0 0 ∧ (∀ p ∈ x.pages, t.page x.wing p = { s.page x.wing p with pinned := true }) ∧
      t.ranges = s.ranges ∧ t.frm = s.frm)

/-- R275, R279, R283, R287, R288, R290, R367, R370, R371, R374, R380: CXL.mem accesses to Floor pages, and the window cache. -/
def Obligations.HostMemoryReadsAndWrites : Prop :=
  (∀ (s : State) (port dpa tag w : Nat), s.err.fatal = false → s.link.cxl = true → (s.port port).st = .enabled → s.creditHeld = false →
    (s.port port).queue = [] → s.bwOpen port = true → s.winOfDpa port dpa = some w → s.err.armed = false →
    (∀ x ∈ s.accesses, x.mem ≠ some s.nextId) →
    let h := s.hostWin port w
    let a := h.tierAddr dpa / 64 * 64
    let k := lineKey h.wing a
    a < 2 ^ 52 → s.inLost h.wing a 64 = false → s.inRanges h.wing a 64 = true → s.floorBusy h.wing a 64 = false →
    (s.page h.wing (a / pageSize)).tier = 1 → (s.page h.wing (a / pageSize)).filling = false →
    (h.shared = true → (∀ x ∈ s.snoops, x.line ≠ k) ∧ (s.dirEnt? k = none → s.dir.length < dirSize)) →
    (∀ own : Bool, (h.shared = true → ∀ e, s.dirEnt? k = some e →
        if own then ∀ q ∈ e.holders, q = port else e.owner = none ∨ e.owner = some port) →
      Answers (.cxlMemRead port dpa tag own h.shared) s fun t =>
        .memResp port tag (s.tierBytes h.wing a 64) (s.linePoisoned h.wing a) (s.port port).devload ∈ t.out ∧ t.frm = s.frm ∧ t.low = s.low ∧
        t.frmBad = s.frmBad ∧ t.memWaits = s.memWaits ∧
        (h.shared = true → ∃ e, t.dirEnt? k = some e ∧ port ∈ e.holders ∧ (own = true → e.owner = some port))) ∧
    (∀ l : LineWrite, l.data.length = 64 → (h.shared = true → ∀ e, s.dirEnt? k = some e → ∀ q ∈ e.holders, q = port) →
      Answers (.cxlMemWrite port dpa tag l h.shared) s fun t =>
        .memResp port tag [] false (s.port port).devload ∈ t.out ∧ t.tierBytes h.wing a 64 = lineOver l (s.tierBytes h.wing a 64) ∧
        (∀ x, x < a ∨ a + 64 ≤ x → t.tierByte h.wing x = s.tierByte h.wing x) ∧
        t.linePoisoned h.wing a = (l.poison || (s.linePoisoned h.wing a && !(lineFull l))) ∧ t.memWaits = s.memWaits ∧
        (h.shared = true → ∃ e, t.dirEnt? k = some e ∧ e.owner = some port))) ∧
  (∀ (s : State) (port dpa tag : Nat) (bi : Bool), s.err.fatal = false → s.link.cxl = true → (s.port port).st = .enabled → s.creditHeld = false →
    (s.port port).queue = [] → s.bwOpen port = true → s.winOfDpa port dpa = none →
    (∀ own : Bool, Answers (.cxlMemRead port dpa tag own bi) s fun t =>
      .memResp port tag (List.replicate 64 0) true (s.port port).devload ∈ t.out ∧ t.frm = s.frm ∧ t.low = s.low ∧ t.pages = s.pages) ∧
    (∀ l : LineWrite, Answers (.cxlMemWrite port dpa tag l bi) s fun t =>
      .memResp port tag [] false (s.port port).devload ∈ t.out ∧ t.frm = s.frm ∧ t.low = s.low ∧ t.pages = s.pages)) ∧
  (∀ (s : State) (port : Nat), tget 0 s.bwTicks port < s.cyc / 1500 + 1 → (s.port port).queue = [] →
    Answers (.hpBwWindowEnd port) s fun t => t.port port = { s.port port with
        devload := s.devLoad port, started := 0, waited := false, spilled := decide (512 < s.heldReqs port)
        count := match s.bwBudget port with
          | some b => (s.port port).count - b
          | none => 0 } ∧
      (∀ q, q ≠ port → t.port q = s.port q) ∧ t = { s with ports := t.ports, bwTicks := t.bwTicks }) ∧
  (∀ (s : State) (wing page : Nat), s.annexBusy wing page = false → s.flashBusy (pageUnits wing page) = false → NoWaiters s →
    ((s.page wing page).filling = true → Answers (.pageFillDone wing page) s fun t =>
      t.page wing page = { s.page wing page with busy := false, filling := false, wrote := [] } ∧ t = { s with pages := t.pages, live := t.live }) ∧
    ((s.page wing page).filling = false → (s.page wing page).busy = true → Answers (.writeBackDone wing page) s fun t =>
      t.page wing page = { s.page wing page with busy := false } ∧ t = { s with pages := t.pages, live := t.live })) ∧
  (∀ (s : State) (wing page : Nat), page < 2 ^ 34 → bits (s.reg 0x3000) 31 16 ≠ 0 → (s.page wing page).cached = true → (s.page wing page).dirty = true →
    (s.page wing page).busy = false → bits (s.reg 0x3000) 31 16 ≤ s.beat.beats - (s.page wing page).age →
    (pageTier page = 2 → s.cellarStop = none) → Answers (.backgroundClean wing page) s fun t =>
      t.page wing page = { s.page wing page with dirty := false, busy := true, filling := false } ∧ t.low = (s.copyDown wing page).low ∧
      t.frm = s.frm ∧ t.ranges = s.ranges ∧ t.flights = s.flights) ∧
  (∀ (s : State) (access : Nat) (a : Access), s.accesses.find? (fun a => a.id == access) = some a → a.stalled = false →
    (s.stillOut a = true → lateAfter a.cause < s.cyc - a.issued → Answers (.tierAccessLate access) s fun t => t.accesses = s.accesses.map (markStalled a.id a.cause) ∧
      tget 0 t.live (wngReg a.wing (0x2100 + 16 * a.cause)) = min (tget 0 s.live (wngReg a.wing (0x2100 + 16 * a.cause)) + 1) (2 ^ 64 - 1) ∧
      (∀ fid g, a.fid = some fid → s.flight? fid = some g → t.flight? fid = some { g with stalled := true }) ∧
      t = { s with accesses := t.accesses, live := t.live, flights := t.flights }) ∧
    (s.stillOut a = false ∨ s.cyc - a.issued ≤ lateAfter a.cause → exec (.tierAccessLate access) s = .next s)) ∧
  (∀ (s : State) (src val : Nat), SetUpHeard s src →
    exec (.tptPeekAddrWrite src val) s = .next { s with peek := s.entryBits (bits val 59 56) (bits val 51 0 / pageSize) })

/-- R295 to R297, R299, R301 to R303, R306, R317: region states. -/
def Obligations.RegionsOpenAndSeal : Prop :=
  (∀ (s : State) (fid : Nat) (f : Flight) (ks0 : List Nat), s.ready? fid 0x700 = some f → regionFieldsOk f false = true → s.namedRegions f = some ks0 →
    (ks0.any s.regionMoving = true → exec (.stkOpen fid) s = .next s) ∧
    (f.u 17 1 = 0 → s.movePart f = some (s, 0)) ∧
    (ks0.any s.regionMoving = false → ∀ u moved, s.movePart f = some (u, moved) → u.flight? fid = some f →
      let shut := ((u.namedRegions f).getD []).filter fun k => (u.region k).st == .guarded
      (∀ i, i < 4 → u.openRegions i + (shut.filter fun k => regionStack k == i).length ≤ profOpenMax u.prof) →
      (∀ x ∈ u.poolFrames, x.wing = f.wing ∨ ∀ k, x.region = some k → k ∉ shut) → Answers (.stkOpen fid) s fun t => Admitted t fid u.cyc ∧
        (∀ k ∈ shut, t.region k = { st := .opening, internal := decide (f.u 16 1 = 1), wing := f.wing }) ∧ (∀ k, k ∉ shut → t.region k = u.region k) ∧
        t.regionJobs = u.regionJobs ++ [{ fid, sealing := false, left := shut, changed := shut.length, moved }] ∧ t.frm = u.frm)) ∧
  (∀ (s : State) (fid : Nat) (f : Flight) (j : RegionJob), s.regionJobs.find? (fun j => j.fid == fid && !j.sealing) = some j → j.table = none →
    (s.active? fid 0x700 = some f →
      ((∀ k ∈ j.left, s.regionBad k = 0) → Answers (.stkOpenCheckDone fid none) s fun t => Completed t fid .ok 0 (pack32 j.changed j.moved) ∧
        (∀ k ∈ j.left, (t.region k).st = .opened ∧ (t.region k).held = s.holdsRange k) ∧ (∀ k, k ∉ j.left → t.region k = s.region k) ∧
        t.regionJobs = s.regionJobs.filter (fun x => x.fid != fid) ∧ t.frm = s.frm) ∧
      ((∃ k ∈ j.left, s.regionBad k ≠ 0) → Answers (.stkOpenCheckDone fid none) s fun t => Completed t fid .poisoned 0 0 ∧
        (∀ k ∈ j.left, t.region k = {}) ∧ ∀ k, k ∉ j.left → t.region k = s.region k) ∧
      (∀ line, Answers (.stkOpenCheckDone fid (some line)) s fun t => Completed t fid .poisoned 0 0 ∧ (∀ k ∈ j.left, t.region k = {}))) ∧
    (s.active? fid 0x700 = none → ∀ bad, Answers (.stkOpenCheckDone fid bad) s fun t => (∀ k ∈ j.left, t.region k = {}) ∧
      t = { s with regions := t.regions, regionJobs := s.regionJobs.filter fun x => x.fid != fid })) ∧
  (∀ (s : State) (fid : Nat) (f : Flight) (ks : List Nat), s.ready? fid 0x701 = some f → regionFieldsOk f true = true → s.namedRegions f = some ks →
    ks.any s.regionMoving = false →
    let l := ks.filter fun k => (s.region k).st == .opened
    (l = [] → Answers (.stkSeal fid) s fun t => Completed t fid .ok 0 0 ∧ OnlyBooks s t) ∧
    (l ≠ [] → Answers (.stkSeal fid) s fun t => Admitted t fid s.cyc ∧ (∀ k ∈ l, (t.region k).st = .sealing) ∧ (∀ k, k ∉ l → t.region k = s.region k) ∧
      t.regionJobs = s.regionJobs ++ [{ fid, sealing := true, left := l, changed := l.length }] ∧ t.frm = s.frm)) ∧
  (∀ (s : State) (stack r : Nat), isCompute stack = true → r < 36864 → (s.region (regionKey (stack / 3) r)).st = .sealing →
    let k := regionKey (stack / 3) r
    (s.regionRuns k = true → exec (.stkSealDone stack r) s = .next s) ∧
    (s.regionRuns k = false → Answers (.stkSealDone stack r) s fun t => t.region k = {} ∧
      (s.memWaits = [] → (∀ j ∈ s.regionJobs, j.table = none) → (∀ x, x ≠ k → t.region x = s.region x) ∧ t.frm = s.frm) ∧
      (∀ j f, j ∈ s.regionJobs → j.sealing = true → j.table = none → j.left = [k] → (∀ j' ∈ s.regionJobs, j'.fid = j.fid → j' = j) → s.flight? j.fid = some f →
        f.phase ≠ .done → Completed t j.fid .ok 0 (pack32 j.changed 0)) ∧
      (∀ j ∈ s.regionJobs, k ∉ j.left → j.left ≠ [] → j ∈ t.regionJobs))) ∧
  (∀ (s : State) (src wing val : Nat), WingHeard s src wing → Answers (.wngFlushDoneWrite src wing val) s fun t =>
    (∀ k i, i ≤ bits val 11 0 → s.spanRegion wing (8 * (bits val 51 21 + i)) = some k → (s.region k).st = .opened →
      t.region k = { s.region k with held := false }) ∧
    (∀ k, (∀ i, i ≤ bits val 11 0 → s.spanRegion wing (8 * (bits val 51 21 + i)) ≠ some k) ∨ (s.region k).st ≠ .opened → t.region k = s.region k) ∧
    t = { s with regions := t.regions }) ∧
  (∀ (s : State) (src stack val : Nat), SetUpHeard s src → isCompute stack = true → Answers (.stkRegionSelWrite src stack val) s fun t =>
    tget 0 t.regionSel (stack / 3) = bits val 15 0 ∧ t = { s with regionSel := t.regionSel })

/-- R304, R307 to R314, R316, R371: stack operations. -/
def Obligations.StackOperationsRun : Prop :=
  (∀ (s u v : State) (fid i op : Nat) (c : Instr) (rows aux : Dma) (ab rb : Bytes) (f : Flight),
    (c = .stkScan fid aux ∧ op = 0x710) ∨ (c = .stkBitmap fid aux ∧ op = 0x711) ∨ (c = .stkAdd fid rows aux ∧ op = 0x720) ∨
      (c = .stkReduce fid ∧ op = 0x721) ∨ (c = .stkCopy fid ∧ op = 0x730) ∨ (c = .stkFill fid ∧ op = 0x731) →
    s.ready? fid op = some f ∨ (s.active? fid op = some f ∧ ∀ o ∈ s.stkOps, o.fid ≠ some fid) → stkFieldsOk f = true →
    s.oneStack f.wing f.stkSpans = some i → (f.phase = .ready → ∀ x ∈ f.stkSpans, s.freeing (some f.fid) f.wing x.1 x.2 = false) →
    s.inputsOk f = true → Source s u f (f.u 17 1) (f.u 48 8) (auxBytes f) aux 0 ab →
    (op = 0x711 → filterOk (f.u 18 2 / 4) (chunks 16 (f.u 64 1) ab) = true) →
    Source u v f (f.u 17 1) (f.u 32 8) (if op = 0x720 then f.u 20 4 * f.u 18 2 else 0) rows 0 rb → v.flight? fid = some f →
    (1024 ≤ (s.stkQueue i).length → Answers c s fun t => (∃ g, t.flight? fid = some g ∧ g.phase = .active) ∧ t.stkOps = v.stkOps ∧ t.frm = v.frm) ∧
    ((s.stkQueue i).length < 1024 → Answers c s fun t => (∃ g, t.flight? fid = some g ∧ g.phase = .active) ∧ (f.phase = .ready → Admitted t fid v.cyc) ∧
      t.frm = v.frm ∧ t.pages = v.pages ∧ ∃ o, t.stkOps = v.stkOps ++ [o] ∧ o.stack = i ∧
      o.fid = some fid ∧ o.opcode = op ∧ o.cls = f.cls ∧ o.aux = ab ∧ o.rows = rb ∧ o.running = false)) ∧
  (∀ (s : State) (stack fid : Nat) (o : StkOp) (f : Flight), isCompute stack = true → s.err.fatal = false → s.nextStkOp (stack / 3) = some o →
    o.fid = some fid → s.flight? fid = some f → f.phase ≠ .done → 0x710 ≤ o.opcode →
    let base := s.touchedRegions f.wing f.stkSpans
    let all := if o.opcode = 0x720 then base ++ s.touchedRegions f.wing (addSpans f o.aux) else base
    (base.any s.shut = true → Answers (.stkOpDispatch stack) s fun t => Completed t fid .guardedRegion 0 0 ∧ o ∉ t.stkOps ∧ t.frm = s.frm) ∧
    (base.any s.shut = false → s.addOutside f o.stack o.aux = true →
      Answers (.stkOpDispatch stack) s fun t => Completed t fid .invalid 0 0 ∧ o ∉ t.stkOps ∧ t.frm = s.frm) ∧
    (base.any s.shut = false → s.addOutside f o.stack o.aux = false →
      ((all.filterMap id).any (fun k => (s.region k).held) = true →
        Answers (.stkOpDispatch stack) s fun t => Completed t fid .hostHeld 0 0 ∧ o ∉ t.stkOps ∧ t.frm = s.frm) ∧
      ((all.filterMap id).any (fun k => (s.region k).held) = false → Answers (.stkOpDispatch stack) s fun t =>
        (∃ x ∈ t.stkOps, x.id = o.id ∧ x.running = true ∧ ∀ k, some k ∈ all → k ∈ x.regions) ∧ t = { s with stkOps := t.stkOps, unitQ := t.unitQ, sliceEnd := t.sliceEnd }))) ∧
  (∀ (s : State) (stack op fid : Nat) (o : StkOp) (f : Flight),
    s.stkOps.find? (fun o => o.id == op && o.running && isCompute stack && o.stack == stack / 3) = some o → o.fid = some fid →
    s.flight? fid = some f → f.phase = .active →
    (∀ x ∈ f.stkSources o.aux, s.ownedIn f.wing x.1 x.2 = false ∧ (x.2 ≠ 0 → s.firstPoison f.wing x.1 x.2 = none)) →
    (∀ x ∈ f.stkTargets o.aux, s.heldIn f.wing x.1 x.2 = false) →
    (o.opcode = 0x731 → f.u 20 4 % 8 = 0 → Answers (.stkOpComplete stack op) s fun t => Completed t fid .ok 0 0 ∧
      (∀ i, i < f.u 20 4 → t.tierByte f.wing (f.u 40 8 + i) = (slice f.raw 24 8).getD (i % 8) 0) ∧
      ∀ x, x < f.u 40 8 ∨ f.u 40 8 + f.u 20 4 ≤ x → t.tierByte f.wing x = s.tierByte f.wing x) ∧
    (o.opcode = 0x730 → Answers (.stkOpComplete stack op) s fun t => Completed t fid .ok 0 0 ∧
      (∀ i, i < f.u 20 4 → t.tierByte f.wing (f.u 40 8 + i) = s.tierByte f.wing (f.u 32 8 + i)) ∧
      ∀ x, x < f.u 40 8 ∨ f.u 40 8 + f.u 20 4 ≤ x → t.tierByte f.wing x = s.tierByte f.wing x) ∧
    (o.opcode = 0x710 →
      let hits := (List.range (f.u 20 4)).filterMap fun i =>
        let x := tableScore o.aux (scanCodes f) (f.u 16 1 == 0) (s.tierBytes f.wing (f.u 32 8 + i * f.u 18 2) (f.u 18 2))
        if fle (BitVec.ofNat 32 (f.u 24 4)) x then some (i, x) else none
      Answers (.stkOpComplete stack op) s fun t =>
        Completed t fid .ok 0 (pack32 (hits.take (f.u 60 4 / 8)).length (sat hits.length 32)) ∧ t.frm = s.frm) ∧
    (o.opcode = 0x711 →
      let pass := (List.range (f.u 20 4)).filter fun i =>
        let b := s.tierBytes f.wing (f.u 32 8 + i * f.u 18 2) (f.u 18 2)
        filterPasses (fun w => BitVec.ofNat 32 (fld b (4 * w) 4)) ((chunks 16 (f.u 64 1) o.aux).map clauseOf)
      Answers (.stkOpComplete stack op) s fun t => Completed t fid .ok 0 pass.length ∧
        ∀ x, x < f.u 40 8 ∨ f.u 40 8 + bitmapBytes (f.u 20 4) ≤ x → t.tierByte f.wing x = s.tierByte f.wing x) ∧
    (o.opcode = 0x720 → f.u 20 4 = 1 → f.u 18 2 % 64 = 0 → Answers (.stkOpComplete stack op) s fun t => Completed t fid .ok 0 0 ∧
      t.tierBytes f.wing (addRow f o.aux 0) (f.u 18 2) =
        (addRows (f.u 16 1) (f.u 24 1) (s.tierBytes f.wing (addRow f o.aux 0) (f.u 18 2)) (slice o.rows 0 (f.u 18 2))).1 ∧
      ∀ x, x < addRow f o.aux 0 ∨ addRow f o.aux 0 + f.u 18 2 ≤ x → t.tierByte f.wing x = s.tierByte f.wing x) ∧
    (o.opcode = 0x721 → Answers (.stkOpComplete stack op) s fun t => (∃ r, Completed t fid .ok 0 r ∧ (0 < f.u 20 4 → f.u 32 8 % 2097152 + 4 * f.u 20 4 ≤ 2097152 →
        r = (redShare (f.u 16 1) (f.u 24 1) (s.free % 2 == 0) (redElems (f.u 16 1) (f.u 20 4) (s.tierBytes f.wing (f.u 32 8) (4 * f.u 20 4)))).toNat)) ∧
      t.frm = s.frm)) ∧
  (∀ (s : State) (stack op fid : Nat) (o : StkOp) (f : Flight),
    s.stkOps.find? (fun o => o.id == op && o.running && isCompute stack && o.stack == stack / 3) = some o → o.fid = some fid →
    s.flight? fid = some f → 0x710 ≤ o.opcode →
    (∃ x ∈ f.stkSources o.aux, s.ownedIn f.wing x.1 x.2 = true) ∨ (∃ x ∈ f.stkTargets o.aux, s.heldIn f.wing x.1 x.2 = true) →
    Answers (.stkOpComplete stack op) s fun t => t = { s with snoops := t.snoops, nextId := t.nextId, live := t.live, out := t.out }) ∧
  (∀ (s : State) (stack unit cur : Nat) (rest : List Nat), isCompute stack = true → unit < 64 →
    tget [] s.unitQ (stack / 3 * 64 + unit) = cur :: rest →
    let key := stack / 3 * 64 + unit
    Answers (.bankSliceEnd stack unit) s fun t =>
      (∃ id ∈ cur :: rest, tget [] t.unitQ key = id :: (rest ++ [cur]).filter (fun x => x != id) ∧ ∀ x ∈ cur :: rest, partClass s id ≤ partClass s x) ∧
      tget 0 t.debt key = tget 0 s.debt key - 1 ∧
      t = { s with unitQ := t.unitQ, sliceEnd := t.sliceEnd, debt := t.debt, refreshTill := t.refreshTill, live := t.live }) ∧
  (∀ (s : State) (stack unit : Nat), isCompute stack = true → unit < 64 →
    let key := stack / 3 * 64 + unit
    ((∃ a, tfind s.refreshAt key = some a ∧ s.cyc < a + s.refreshPeriod stack) → exec (.refreshDue stack unit) s = .next s) ∧
    ((∀ a, tfind s.refreshAt key = some a → a + s.refreshPeriod stack ≤ s.cyc) → Answers (.refreshDue stack unit) s fun t =>
      tget 0 t.debt key = (if tget [] s.unitQ key ≠ [] ∧ tget 0 s.debt key + 1 < 8 then tget 0 s.debt key + 1 else 0) ∧
      (∃ a, tfind t.refreshAt key = some a ∧ ∀ b, tfind s.refreshAt key = some b → a = b + s.refreshPeriod stack) ∧
      t = { s with refreshAt := t.refreshAt, sliceEnd := t.sliceEnd, debt := t.debt, refreshTill := t.refreshTill, live := t.live }))

/-- R296, R297, R319 to R324, R327, R328, R331, R334, R335, R338: embedding tables. -/
def Obligations.EmbeddingTables : Prop :=
  (∀ (s : State) (fid : Nat) (f : Flight), s.ready? fid 0x400 = some f → createFieldsOk f = true → tfind s.embs f.obj = none →
    s.embs.length < 1024 →
    let e := embOfFields f
    let pages := cdiv (e.localRows + e.migSlots) e.q
    (e.update = false → FloorRoom s f.wing pages →
      Answers (.embCreate fid) s fun t => Completed t fid .ok 0 0 ∧ t.regions = s.regions ∧ ∃ frames, frames.length = pages ∧
        (∀ x ∈ frames, x ∈ t.frames ∧ x.wing = f.wing) ∧ tfind t.embs f.obj = some { e with pages, frames }) ∧
    (e.update = true → ∀ ks, s.embRegions f.wing pages = some ks → s.floorUse f.wing + pages ≤ s.floorQuota f.wing →
      (∀ i, i < 4 → s.openRegions i + (ks.filter fun k => regionStack k == i).length ≤ profOpenMax s.prof) →
      Answers (.embCreate fid) s fun t => Admitted t fid s.cyc ∧
        tfind t.embs f.obj = some { e with pages, frames := framesIn f.wing ks pages, regions := ks, ready := false } ∧
        (∀ k ∈ ks, t.region k = { st := .opening, internal := true, wing := f.wing }) ∧ (∀ k, k ∉ ks → t.region k = s.region k) ∧
        ∃ j ∈ t.regionJobs, j.fid = fid ∧ j.sealing = false ∧ j.left = ks ∧ j.table = some f.obj)) ∧
  (∀ (s : State) (fid key : Nat) (f : Flight) (j : RegionJob) (e : Emb), s.regionJobs.find? (fun j => j.fid == fid && !j.sealing) = some j →
    j.table = some key → tfind s.embs key = some e →
    (s.active? fid 0x400 = some f → (∀ k ∈ j.left, s.regionBad k = 0) → Answers (.stkOpenCheckDone fid none) s fun t => Completed t fid .ok 0 0 ∧
      (∀ k ∈ j.left, (t.region k).st = .opened) ∧ tfind t.embs key = some { e with ready := true }) ∧
    (s.active? fid 0x400 = some f → ∀ bad : Option Nat, bad ≠ none ∨ (∃ k ∈ j.left, s.regionBad k ≠ 0) →
      Answers (.stkOpenCheckDone fid bad) s fun t => Completed t fid .poisoned 0 0 ∧ tfind t.embs key = none ∧ ∀ k ∈ e.regions, t.region k = {}) ∧
    (s.active? fid 0x400 = none → ∀ bad, Answers (.stkOpenCheckDone fid bad) s fun t => tfind t.embs key = none ∧ ∀ k ∈ e.regions, t.region k = {})) ∧
  (∀ (s u : State) (fid : Nat) (src : Dma) (bs : Bytes) (f : Flight) (e : Emb), s.ready? fid 0x401 = some f → s.embOf f = some e →
    f.zero [(16, 1), (18, 2), (28, 4), (48, 80)] = true → f.u 17 1 ≤ 1 → f.u 20 4 + f.u 24 4 ≤ e.localRows → f.u 40 8 = f.u 24 4 * e.rb →
    aligned64 (f.u 32 8) = true → s.addsRun f.obj e (f.u 20 4) (f.u 24 4) = false → Source s u f (f.u 17 1) (f.u 32 8) (f.u 40 8) src 0 bs →
    u.flight? fid = some f → tfind u.embs f.obj = some e →
    Answers (.embWrite fid src) s fun t => Completed t fid .ok 0 0 ∧ ∃ e', tfind t.embs f.obj = some e' ∧ e'.slots = e.slots ∧ e'.holders = e.holders ∧
      (∀ i, i < f.u 24 4 → e'.row (f.u 20 4 + i) = slice ((slice bs (i * e.rb) e.rb).take (embStored e.fmt e.width)) 0 e.rb) ∧
      ((e.mem.map Prod.fst).Pairwise (· < ·) → ∀ slot, slot < f.u 20 4 ∨ f.u 20 4 + f.u 24 4 ≤ slot → e'.row slot = e.row slot)) ∧
  (∀ (s : State) (fid : Nat) (f : Flight) (e : Emb), s.ready? fid 0x402 = some f → s.embOf f = some e → f.zero [(16, 112)] = true →
    (∀ m ∈ e.migs, m.switched = true) →
    (∀ g ∈ s.flights, g.wing = f.wing → g.phase = .active → g.fid ≠ fid → g.obj = f.obj → hOpcode g.raw < 0x400 ∨ 0x500 ≤ hOpcode g.raw) →
    (e.regions = [] → Answers (.embDestroy fid) s fun t => Completed t fid .ok 0 0 ∧ tfind t.embs f.obj = none ∧
      (s.embFrames = [] → ∀ k, k ≠ f.obj → tfind t.embs k = tfind s.embs k) ∧ t.regions = s.regions) ∧
    (e.regions ≠ [] → Answers (.embDestroy fid) s fun t => Admitted t fid s.cyc ∧ tfind t.embs f.obj = some { e with ready := false } ∧
      (∀ k ∈ e.regions, (t.region k).st = .sealing) ∧ (∀ k, k ∉ e.regions → t.region k = s.region k) ∧
      ∃ j ∈ t.regionJobs, j.fid = fid ∧ j.sealing = true ∧ j.left = e.regions ∧ j.table = some f.obj)) ∧
  (∀ (s : State) (stack r key : Nat) (j : RegionJob) (f : Flight), isCompute stack = true → r < 36864 →
    let k := regionKey (stack / 3) r
    (s.region k).st = .sealing → s.regionRuns k = false → j ∈ s.regionJobs → j.sealing = true → j.table = some key → j.left = [k] →
    (∀ j' ∈ s.regionJobs, j'.fid = j.fid → j' = j) → s.flight? j.fid = some f → f.phase ≠ .done →
    Answers (.stkSealDone stack r) s fun t => Completed t j.fid .ok 0 0 ∧ tfind t.embs key = none) ∧
  (∀ (s u v : State) (fid : Nat) (idx next : Dma) (bs nb : Bytes) (f : Flight) (e : Emb), s.ready? fid 0x410 = some f → s.embOf f = some e →
    gatherFieldsOk f e = true → Source s u f (f.u 19 1) (f.u 32 8) (4 * f.u 20 4) idx 0 bs → Source u v f (f.u 19 1) (f.u 56 8) (4 * f.u 24 4) next 0 nb →
    v.flight? fid = some f → v.embOf f = some e →
    (∀ g ∈ words32 bs ++ words32 nb, g < e.nrows) → (f.u 19 1 = 2 → zeroAt f.cont (4 * f.u 20 4) (128 * entriesOf (4 * f.u 20 4) - 4 * f.u 20 4) = true) →
    (∀ j ∈ v.embJobs, j.fid ≠ fid) → (∀ p ∈ v.prefRows, p.key ≠ f.obj) → (v.port (v.flightPort f)).st ≠ .failed →
    (∀ g ∈ words32 bs, bit (f.u 17 1) 0 = false ∨ e.pantry.contains g = false ∨ tfind e.copies g = none) →
    (∀ g ∈ words32 nb, profEmbBricks v.prof = 0 ∨ e.moving g = true ∨ (e.slotOf g).isSome = true ∨ e.update = true) →
    (∀ g ∈ words32 bs, e.moving g = false ∧ ∃ slot, e.slotOf g = some slot ∧ e.rowBad slot = false) →
    let bag := max 1 (f.u 18 1)
    let out := ((List.range (gatherOuts f)).map fun o =>
      e.outRow (f.u 16 1) ((((words32 bs).drop (o * bag)).take bag).map fun g => e.row ((e.slotOf g).getD 0))).flatten
    Answers (.embGather fid idx next) s fun t => Completed t fid .ok (min (gatherOuts f) 65535) 0 ∧
      (out ≠ [] → .hostWrite (v.flightPort f) (f.resultArea.1 + 0) out ∈ t.out) ∧ ∃ e', tfind t.embs f.obj = some e' ∧ e'.mem = e.mem ∧
        e'.now.gathers = e.now.gathers + (eachOnce (words32 bs)).length) ∧
  (∀ (s u : State) (fid : Nat) (src : Dma) (bs : Bytes) (f : Flight) (e : Emb), s.ready? fid 0x420 = some f → s.embOf f = some e →
    updateFieldsOk f e = true → Source s u f (f.u 17 1) (f.u 32 8) (f.u 40 8) src 0 bs → u.flight? fid = some f →
    tfind u.embs f.obj = some e → (∀ i, i < 4 → (s.stkQueue i).length < 1024 ∧ (u.stkQueue i).length < 1024) → (∀ j ∈ u.embJobs, j.fid ≠ fid) →
    (∀ x ∈ updRows f e bs, x.1 < e.nrows ∧ allFinite x.2 = true ∧ e.moving x.1 = false ∧
      ∃ slot k, e.slotOf x.1 = some slot ∧ e.slotRegion slot = some k ∧ regionStack k < 4) →
    Answers (.embUpdate fid src) s fun t => Admitted t fid u.cyc ∧ t.embs = u.embs ∧
      ∀ x ∈ updRows f e bs, ∀ slot k, e.slotOf x.1 = some slot → e.slotRegion slot = some k →
        ∃ o ∈ t.stkOps, o.fid = some fid ∧ o.opcode = 0x420 ∧ o.key = f.obj ∧ o.ask = none ∧ o.stack = regionStack k ∧ k ∈ o.regions) ∧
  (∀ (s : State) (stack op fid g slot : Nat) (v : Bytes) (o : StkOp) (f : Flight) (e : Emb) (j : EmbJob),
    s.stkOps.find? (fun o => o.id == op && o.running && isCompute stack && o.stack == stack / 3) = some o → o.opcode = 0x420 → o.fid = some fid → o.ask = none → s.embFrames = [] →
    s.flight? fid = some f → f.phase = .active → s.embOf f = some e → opAdds o e.width = [(g, v)] → e.slotOf g = some slot → e.rowBad slot = false →
    s.job? fid = some j → j.ops = 1 → j.waits = [] → j.parked = [] → j.gather = false →
    Answers (.stkOpComplete stack op) s fun t => Completed t fid .ok 0 (pack32 j.added j.forwarded) ∧ ∃ e', tfind t.embs f.obj = some e' ∧
      e'.row slot = slice ((addRows e.fx e.frac ((e.row slot).take (4 * e.width)) v).1.take (embStored e.fmt e.width)) 0 e.rb) ∧
  (∀ (s u : State) (fid : Nat) (src : Dma) (bs : Bytes) (f : Flight) (e : Emb), s.ready? fid 0x430 = some f → s.embOf f = some e →
    f.zero [(16, 1), (18, 2), (36, 4), (56, 72)] = true → f.u 17 1 ≤ 1 → f.u 20 4 ≤ 65536 → inside 1 65535 (f.u 24 4) = true →
    f.u 48 8 = roundUp (4 * f.u 20 4) 64 → aligned64 (f.u 40 8) = true → BeatFree s (f.u 28 8) → (∀ x ∈ e.sets, x.beat < f.u 28 8) →
    s.pantryUse f.wing (some f.obj) + f.u 20 4 * e.rb ≤ 65536 * bits (s.reg (wngReg f.wing 0x2308)) 15 0 →
    Source s u f (f.u 17 1) (f.u 40 8) (f.u 48 8) src 0 bs → (∀ g ∈ (words32 bs).take (f.u 20 4), g < e.nrows) →
    u.flight? fid = some f → tfind u.embs f.obj = some e →
    Answers (.pantrySet fid src) s fun t => Completed t fid .ok 0 0 ∧ t.beat.sched = u.beat.sched ++ [{ beat := f.u 28 8, kind := .pantry f.obj }] ∧
      tfind t.embs f.obj = some { e with
        sets := e.sets ++ [{ beat := f.u 28 8, period := f.u 24 4, rows := (words32 bs).take (f.u 20 4) }] }) ∧
  (∀ (s u : State) (fid : Nat) (src : Dma) (bs : Bytes) (f : Flight) (e : Emb), s.ready? fid 0x440 = some f → s.embOf f = some e →
    f.zero [(19, 1), (48, 80)] = true → f.u 16 1 ≤ 1 → f.u 17 1 < e.members → f.u 17 1 ≠ e.index → f.u 18 1 ≤ 1 → inside 1 4096 (f.u 20 4) = true →
    f.u 40 8 = roundUp (4 * f.u 20 4) 64 → aligned64 (f.u 32 8) = true → Source s u f (f.u 18 1) (f.u 32 8) (f.u 40 8) src 0 bs →
    let out := f.u 16 1 == 0
    let rows := eachOnce ((words32 bs).take (f.u 20 4))
    rows.all (e.canMove out (f.u 17 1)) = true → BeatFree u (f.u 24 8) →
    (out = false → e.slotsTaken + (rows.filter fun g => e.home g == f.u 17 1).length ≤ e.migSlots) →
    (out = true → e.holdersNamed + (rows.filter fun g => e.home g == e.index).length ≤ 65536) → u.flight? fid = some f → tfind u.embs f.obj = some e →
    Answers (.embMigrate fid src) s fun t => Admitted t fid u.cyc ∧
      tfind t.embs f.obj = some { e with migs := e.migs ++ [{ fid, out, peer := f.u 17 1, rows, beat := f.u 24 8 }] } ∧
      t.beat.sched = u.beat.sched ++ [{ beat := f.u 24 8, kind := .migrate fid }]) ∧
  (∀ (s : State) (fid : Nat) (f : Flight) (e : Emb), s.ready? fid 0x450 = some f → s.embOf f = some e → f.zero [(16, 24), (48, 80)] = true →
    aligned64 (f.u 40 8) = true → (s.port (s.flightPort f)).st ≠ .failed → Answers (.embStats fid) s fun t => Completed t fid .ok 1344 0 ∧
      .hostWrite (s.flightPort f) (f.resultArea.1 + 0) (s.loadRecord f e) ∈ t.out ∧ t.embs = s.embs)

/-- R46, R158, R347, R352, R355, R357 to R359: Cellar descriptors and shut-down. -/
def Obligations.CellarDiscardsSyncsAndShutsDown : Prop :=
  (∀ (s : State) (fid : Nat) (f : Flight), s.ready? fid 0x800 = some f → f.zero [(12, 4), (16, 4), (32, 96)] = true → f.u 20 4 ≠ 0 →
    f.u 24 8 % 16384 = 0 → (s.cellarRange f.wing (f.u 24 8) (f.u 20 4 * 16384)).isSome = true → s.cellarStop = none →
    s.heldIn f.wing (f.u 24 8) (f.u 20 4 * 16384) = false → s.cellar.room 1 = true →
    Answers (.celDiscard fid) s fun t => Completed t fid .ok 0 (f.u 20 4) ∧
      (∀ i, i < f.u 20 4 → tfind t.cellar.map (unitKey f.wing (f.u 24 8) + i) = none) ∧
      (∀ i, i < f.u 20 4 * 16384 → t.tierByte f.wing (f.u 24 8 + i) = 0) ∧
      ((s.frm.map Prod.fst).Pairwise (· < ·) → (s.low.map Prod.fst).Pairwise (· < ·) →
        ∀ x, x < f.u 24 8 ∨ f.u 24 8 + f.u 20 4 * 16384 ≤ x → t.tierByte f.wing x = s.tierByte f.wing x)) ∧
  (∀ (s : State) (fid : Nat) (f : Flight), s.ready? fid 0x801 = some f → f.zero [(12, 4), (16, 4), (32, 96)] = true → f.u 20 4 ≠ 0 →
    f.u 24 8 % pageSize = 0 → (s.cellarRange f.wing (f.u 24 8) (f.u 20 4 * pageSize)).isSome = true → s.cellarStop = none →
    let dirty := (pageRun (f.u 24 8 / pageSize) (f.u 20 4)).filter fun p => (s.page f.wing p).dirty
    (∀ p ∈ dirty, (s.page f.wing p).filling = false ∧ p < 2 ^ 34) →
    Answers (.celSync fid) s fun t => Admitted t fid s.cyc ∧ t.cellar.syncs = s.cellar.syncs ++ [(fid, dirty)] ∧ t.frm = s.frm ∧
      ∀ p ∈ dirty, t.page f.wing p = { s.page f.wing p with dirty := false, busy := true }) ∧
  (∀ (s : State) (fid : Nat) (f : Flight), s.flight? fid = some f → f.phase = .active → f.admitCyc.isSome = true → s.cellar.room 1 = true →
    (∀ x, hOpcode f.raw = 0x801 → s.cellar.syncs.find? (fun x => x.1 == f.fid) = some x → (∀ p ∈ x.2, s.flashOwes (pageUnits f.wing p) = false) →
      Answers (.celCommitDone fid) s fun t => Completed t fid .ok 0 x.2.length ∧ t.cellar.journal = s.cellar.journal ++ [.commit]) ∧
    (∀ u c, hOpcode f.raw = 0x210 ∨ hOpcode f.raw = 0x282 →
      (∀ g ∈ s.flights, g.obj = f.obj → g.phase = .active → g.admitCyc.isSome = true → hOpcode g.raw = 0x210 ∨ hOpcode g.raw = 0x282 →
        f.commits ≤ g.commits) → tfind s.colls f.obj = some c →
      (c.winPages = 0 → s.winClean f.wing f.cls c = (s, true)) ∧
      (s.winClean f.wing f.cls c = (u, true) → u.flight? fid = some f → tfind u.colls f.obj = some c →
      Answers (.celCommitDone fid) s fun t => Completed t fid .ok 0 (if hOpcode f.raw = 0x210 then f.u 20 4 + 1 else 0) ∧
        t.cellar.journal = u.cellar.journal ++ [.commit] ∧
        tfind t.mirrors f.obj = some (c.mirrorAt (if hOpcode f.raw = 0x210 then f.u 20 4 + 1 else 1))))) ∧
  (∀ (s : State) (fid : Nat) (f : Flight), s.ready? fid 0x810 = some f → f.zero [(12, 4), (16, 24), (48, 80)] = true → aligned64 (f.u 40 8) = true →
    (s.port (s.flightPort f)).st ≠ .failed → Answers (.celHealth fid) s fun t => Completed t fid .ok 4352 0 ∧
      .hostWrite (s.flightPort f) (f.resultArea.1 + 0) s.cellar.record ∈ t.out ∧ t.cellar.health = s.cellar.health) ∧
  (∀ (s : State) (src : Nat), SetUpHeard s src →
    (s.cellar.st = .mounted ∨ s.cellar.st = .readOnly → Answers (.celShutdown src) s fun t => t.cellar.closing = true ∧ t.cellar.st = s.cellar.st ∧
      t.flights = s.flights ∧ t.frm = s.frm) ∧
    (s.cellar.st ≠ .mounted → s.cellar.st ≠ .readOnly → exec (.celShutdown src) s = .next s)) ∧
  (∀ s : State, s.cellar.closing = true → s.durableKeys = [] → s.cellar.writing = false →
    exec .celShutdownComplete s = .next { s with cellar := { s.cellar with
      journal := [], journalCyc := s.cyc, sysMap := s.cellar.map, sysJournal := [], dirtySegs := [], closing := false, closed := true, cause := 0, st := .shutDown } }) ∧
  (∀ (s : State) (temp : Int), s.cellar.st ≠ .mounting → roundUp (s.cellar.tempCyc + 3600 * 1500000000) 1500 ≤ s.cyc →
    Answers (.tempHistoryHour temp) s fun t => t.cellar.temps = (temp16 temp :: s.cellar.temps).take 2048 ∧ t.cellar.tempCyc = s.cyc ∧
      t.cellar.map = s.cellar.map) ∧
  (∀ s : State,
    (s.cellar.st = .mounted → s.boot.hkImage.isSome = true →
      roundUp (max s.boot.hkFrom (s.cellar.bgFrom.getD 0) + 1500000000 * backgroundSeconds) 1500 ≤ s.cyc →
      exec .cellarBackgroundSchedule s = .next { s with cellar := { s.cellar with bgFrom := some s.cyc, bgRuns := s.cellar.bgRuns + 1 } }) ∧
    (s.cyc < roundUp (max s.boot.hkFrom (s.cellar.bgFrom.getD 0) + 1500000000 * backgroundSeconds) 1500 →
      exec .cellarBackgroundSchedule s = .next s))

/-- R341 to R345, R348 to R350, R353, R506: flash operations, the map, segments and journal. -/
def Obligations.FlashOperationsAndTheMap : Prop :=
  (∀ (s : State) (die : Nat) (o : FlashOp), s.err.fatal = false → s.cellar.nextOp die = some o → s.cellar.chanDown.contains o.chan = false →
    s.cellar.chanOff.contains o.chan = false →
    (s.cellar.onNow die = none → exec (.flashOpIssue die) s = .next { s with cellar := s.cellar.modOp o.id FlashOp.start }) ∧
    (∀ r, s.cellar.onNow die = some r →
      (o.cls = 0 ∧ o.use.isRead = true ∧ r.use.isRead = false → Answers (.flashOpIssue die) s fun t =>
        t.cellar = (s.cellar.modOp r.id FlashOp.suspend).modOp o.id FlashOp.start ∧ t = { s with cellar := t.cellar, live := t.live }) ∧
      (¬ (o.cls = 0 ∧ o.use.isRead = true ∧ r.use.isRead = false) → exec (.flashOpIssue die) s = .next s))) ∧
  (∀ (s : State) (die : Nat) (o : FlashOp), s.err.fatal = false → s.cellar.nextOp die = some o → s.cellar.chanDown.contains o.chan = false →
    s.cellar.chanOff.contains o.chan = true → NoWaiters s →
    (o.use.isRead = true → Answers (.flashOpIssue die) s fun t => o ∉ t.cellar.ops ∧ t.cellar.map = s.cellar.map ∧
      tget 0 t.live 0x4070 = min (tget 0 s.live 0x4070 + 1) (2 ^ 64 - 1)) ∧
    (o.use.isRead = false → exec (.flashOpIssue die) s = .next s)) ∧
  (∀ (s : State) (op : Nat) (o : FlashOp) (retried : Bool), s.cellar.ops.find? (fun o => o.id == op && o.running && o.use.isRead) = some o →
    NoWaiters s →
    (∀ l, Answers (.flashReadDone op (some l) retried) s fun t => o ∉ t.cellar.ops ∧
      (t.cellar.block (o.block.getD 0)).reads = (s.cellar.block (o.block.getD 0)).reads + 1 ∧ t.cellar.map = s.cellar.map ∧
      t.frm = s.frm ∧ t.low = s.low ∧
      (retried = false → (∀ id, o.use = .access id → t.accesses = s.accesses.map (answered id false)) ∧
        ((∀ id, o.use ≠ .access id) → t.accesses = s.accesses))) ∧
    (Answers (.flashReadDone op none retried) s fun t => o ∉ t.cellar.ops ∧ t.cellar.map = s.cellar.map ∧
      tget 0 t.live 0x4070 = min (tget 0 s.live 0x4070 + 1) (2 ^ 64 - 1) ∧
      (retried = false → ∀ id, o.use = .access id → t.accesses = s.accesses.map (answered id true)))) ∧
  (∀ (s : State) (op : Nat) (o : FlashOp), s.cellar.ops.find? (fun o => o.id == op && o.running && !o.suspended && !o.use.isRead) = some o →
    (o.use = .write → o.stale = false → s.cellar.canMap o.unit = true → Answers (.flashProgramDone op false) s fun t =>
      tfind t.cellar.map o.unit = some o.pu ∧ (∀ u, u ≠ o.unit → tfind t.cellar.map u = tfind s.cellar.map u) ∧ o ∉ t.cellar.ops ∧
      t.cellar.journal = s.cellar.journal ++ [.mapped o.unit o.pu] ∧ t.frm = s.frm ∧ t.low = s.low) ∧
    (o.use = .write → o.stale = true → s.cellar.canMap o.unit = true → Answers (.flashProgramDone op false) s fun t =>
      t.cellar.map = s.cellar.map ∧ t.cellar.journal = s.cellar.journal ∧ o ∉ t.cellar.ops) ∧
    (∀ src, o.use = .copied src → s.cellar.canMap o.unit = true → Answers (.flashProgramDone op false) s fun t => o ∉ t.cellar.ops ∧
      (tfind s.cellar.map o.unit = some src → tfind t.cellar.map o.unit = some o.pu) ∧
      (tfind s.cellar.map o.unit ≠ some src → t.cellar.map = s.cellar.map)) ∧
    (o.use.isErase = false → o.use.isSegment = false → s.cellar.canMap o.unit = false → exec (.flashProgramDone op false) s = .next s) ∧
    (∀ k, o.use = .segment k → Answers (.flashProgramDone op false) s fun t => o ∉ t.cellar.ops ∧ k ∉ t.cellar.dirtySegs ∧
      t.cellar.map = s.cellar.map ∧ t.cellar.journal = (s.cellar.journal.map (JEntry.without k)).flatten ∧
      (∀ u pu, JEntry.mapped u pu ∈ t.cellar.journal → u / 65536 ≠ k)) ∧
    (∀ gc b, o.use = .erase gc → o.block = some b → (∀ x ∈ s.cellar.ops, x.id ≠ o.id → x.block.isSome = true) →
      Answers (.flashProgramDone op false) s fun t => t.cellar.block b = { pe := (s.cellar.block b).pe + 1 } ∧ o ∉ t.cellar.ops ∧
        t.cellar.map = s.cellar.map) ∧
    (∀ b, o.block = some b → Answers (.flashProgramDone op true) s fun t => (t.cellar.block b).retired = true ∧ t.cellar.map = s.cellar.map)) ∧
  (∀ (s : State) (die b : Nat), (s.cellar.st = .mounted ∧ s.cellar.gcBlock die = some b) ∨
      (s.cellar.st = .mounting ∧ s.power.rails = .good ∧ s.boot.phase = phaseMount ∧ s.cellar.foldBlock die = some b) → Answers (.garbageCollect die) s fun t =>
    (∃ o ∈ t.cellar.ops, s.nextId ≤ o.id ∧ o.block = some b ∧ o.use = .erase true ∧ o.cls = 7) ∧ t.cellar.map = s.cellar.map ∧
    (∀ u pu, u ∈ (s.cellar.block b).valid → tfind s.cellar.map u = some pu →
      ∃ o ∈ t.cellar.ops, s.nextId ≤ o.id ∧ o.unit = u ∧ o.pu = pu ∧ o.use = .copySrc) ∧ ∀ o ∈ s.cellar.ops, o ∈ t.cellar.ops) ∧
  (∀ (s : State) (block : Nat), s.cellar.st = .mounted → s.cellar.canEmpty block = true →
    bits (s.reg 0x4008) 9 0 * 1000 ≤ (s.cellar.block block).reads ∨ (s.cellar.block block).worn = true →
    Answers (.readRelocate block) s fun t => (∃ o ∈ t.cellar.ops, s.nextId ≤ o.id ∧ o.block = some block ∧ o.use = .erase false ∧ o.cls = 7) ∧
      t.cellar.map = s.cellar.map ∧ ∀ o ∈ s.cellar.ops, o ∈ t.cellar.ops) ∧
  (∀ s : State,
    (∀ k, s.cellar.nextSegment = some k → k ∈ s.cellar.dirtySegs ∧ exec .mapSegmentWrite s = .next { s with
      cellar := { s.cellar with ops := s.cellar.ops ++ [
        { id := s.nextId, cls := 7, unit := 0, block := some s.cellar.systemBlock, pu := 0, use := .segment k }] }
      nextId := s.nextId + 1 }) ∧
    (s.cellar.nextSegment = none → exec .mapSegmentWrite s = .next s)) ∧
  (∀ s : State, let written := { s with cellar := { s.cellar with
      sysJournal := s.cellar.sysJournal ++ s.cellar.journal, journal := [], journalCyc := s.cyc } }
    (2097152 ≤ s.cellar.journal.length * Config.journalEntry → exec .journalWrite s = .next written) ∧
    (s.cellar.journal.length * Config.journalEntry < 2097152 → exec .journalWrite s = .next s) ∧
    (roundUp (s.cellar.journalCyc + 15000000) 1500 ≤ s.cyc → exec .journalFlushTimer s = .next written) ∧
    (s.cyc < roundUp (s.cellar.journalCyc + 15000000) 1500 → exec .journalFlushTimer s = .next s))

/-- R363, R377, R381, R389, R470, R478, R493: the link and the ports. -/
def Obligations.LinkAndPortsComeAndGo : Prop :=
  (∀ (s : State) (width rate : Nat) (cxl : Bool),
    (s.power.rails = .good → s.power.perst = false → s.link.trained = false → exec (.linkTrainDone width rate cxl) s = .next { s with
      link := { trained := true, everTrained := true, width, rate, cxl := cxl && (width == 4 || width == 8 || width == 16) && inside 1 3 rate } }) ∧
    (s.power.rails ≠ .good ∨ s.power.perst = true ∨ s.link.trained = true → exec (.linkTrainDone width rate cxl) s = .next s)) ∧
  (∀ (s : State) (c : Instr), c = .linkDown ∨ c = .perstAssert → s.link.trained = true → Answers c s fun t =>
    t.link = { everTrained := s.link.everTrained } ∧ t.power = (if c = .perstAssert then { s.power with perst := true } else s.power) ∧
    (∀ p, p < 8 → (s.port p).st ≠ .disabled → (s.port p).st ≠ .failed → (t.port p).st = .failed ∧ (t.port p).cause = 3) ∧
    (∀ p, (s.port p).st = .disabled ∨ (s.port p).st = .failed → (t.port p).st = (s.port p).st ∧ (t.port p).cause = (s.port p).cause)) ∧
  (∀ s : State, (s.link.trained = false → exec .linkDown s = .next s ∧
      exec .perstAssert s = .next { s with power := { s.power with perst := true } }) ∧
    exec .perstRelease s = .next { s with power := { s.power with perst := false } }) ∧
  (∀ (s : State) (port : Nat), s.power.rails = .good → Answers (.ldReset port) s fun t => (∀ k, k / 65536 = port → tfind t.msixTab k = none) ∧
    (∀ x ∈ t.msixPend, x / 2048 ≠ port) ∧ (∀ q, q ≠ port → (t.port q).st = (s.port q).st) ∧
    ((s.port port).st ≠ .disabled → (s.port port).st ≠ .failed → (t.port port).st = .failed ∧ (t.port port).cause = 2)) ∧
  (∀ (s : State) (src port : Nat), PortHeard s src → Answers (.hpCtrlFail src port) s fun t =>
    (∀ q, q ≠ port → (t.port q).st = (s.port q).st) ∧
    ((s.port port).st ≠ .disabled → (s.port port).st ≠ .failed → (t.port port).st = .failed ∧ (t.port port).cause = 2 ∧
      (t.port port).failCyc = some s.cyc ∧ (∀ x ∈ (t.port port).queue, x.write.isSome = true) ∧
      (∀ x ∈ t.memWaits, x.port = port → x.write.isSome = true) ∧
      (s.memWaits = [] → (∀ x ∈ t.snoops, x.port ≠ port) ∧ ∀ e ∈ t.dir, port ∉ e.holders ∧ e.owner ≠ some port))) ∧
  (∀ (s : State) (src port : Nat) (en : Bool), PortHeard s src → Answers (.hpEnWrite src port en) s fun t =>
    t.port port = { s.port port with en, st := portEn (s.port port).st en } ∧ (∀ q, q ≠ port → t.port q = s.port q) ∧
    ((s.port port).st = .enabled → en = false → ∀ e ∈ s.dir, port ∈ e.holders → ∃ x ∈ t.snoops, x.port = port ∧ x.line = e.line ∧ x.inv = true) ∧
    t.dir = s.dir ∧ t.flights = s.flights ∧ t.frm = s.frm) ∧
  (∀ (s : State) (port : Nat),
    ((s.port port).st = .draining ∨ (s.port port).st = .enablePending → s.portDrained port = true → Answers (.hpDrainEnd port) s fun t =>
      t.port port = { s.port port with st := (s.port port).st.drained, cause := 0, denied := [] } ∧ (∀ q, q ≠ port → t.port q = s.port q) ∧
      t = { s with ports := t.ports }) ∧
    (s.portDrained port = false → exec (.hpDrainEnd port) s = .next s))

/-- R366, R368, R369, R371, R373, R382: grants, windows, hand-overs, snoops. -/
def Obligations.WindowsGrantsAndSnoops : Prop :=
  (∀ (s : State) (src port val : Nat), PortHeard s src →
    let inUse := (List.range 16).any fun w => bit (s.reg (hpReg port 0x10)) w && !(bit val w) && s.wingOnPort port w
    exec (.hpGrantWrite src port val) s = .next (if inUse then s.lockVio src (hpReg port 0x10) else s.setReg (hpReg port 0x10) val)) ∧
  (∀ (s : State) (src port win val : Nat), PortHeard s src →
    let h := winFields (setBits val 0 0 1) (s.reg (winBReg port win))
    ((s.port port).winBusy.contains win = true → exec (.hpWinValidSet src port win val) s = .next s ∧ exec (.hpWinValidClear src port win val) s = .next s) ∧
    ((s.port port).winBusy.contains win = false →
      ((s.hostWin port win).valid = false → s.winOk port win h = true → Answers (.hpWinValidSet src port win val) s fun t =>
        t = { s.setReg (winAReg port win) (setBits val 0 0 1) with ports := t.ports } ∧ win ∉ (t.port port).denied ∧
        (t.port port).st = (s.port port).st ∧ ∀ q, q ≠ port → t.port q = s.port q) ∧
      ((s.hostWin port win).valid = true ∨ s.winOk port win h = false →
        exec (.hpWinValidSet src port win val) s = .next (s.lockVio src (winAReg port win))) ∧
      ((s.hostWin port win).valid = false → Answers (.hpWinValidClear src port win val) s fun t =>
        t = { s.setReg (winAReg port win) (setBits val 0 0 0) with ports := t.ports } ∧ win ∉ (t.port port).denied) ∧
      ((s.hostWin port win).valid = true → port < 8 → win < 16 → s.dir = [] → s.snoops = [] → s.memWaits = [] → (s.port port).queue = [] →
        Answers (.hpWinValidClear src port win val) s fun t => win ∉ (t.port port).winBusy ∧
          t.regs = (s.setReg (winAReg port win) (s.reg (winAReg port win) - 1)).regs ∧ t.frm = s.frm ∧ t.low = s.low))) ∧
  (∀ (s : State) (fid : Nat) (f : Flight), s.ready? fid 0x950 = some f →
    let x := handoverOf f
    f.zero [(12, 4), (20, 4), (40, 88)] = true → x.from_ ≤ 7 → x.to_ ≤ 7 → x.from_ ≠ x.to_ → x.fromWin ≤ 15 → x.toWin ≤ 15 → f.u 32 8 % pageSize = 0 →
    let h := s.hostWin x.from_ x.fromWin
    h.valid = true → h.shared = true → h.wing = x.wing → (s.hostWin x.to_ x.toWin).valid = false → (s.port x.to_).winBusy.contains x.toWin = false →
    (s.port x.to_).st = .enabled → bit (s.reg (hpReg x.to_ 0x10)) x.wing = true → x.toDpa + h.pages ≤ 2 ^ 27 →
    (∀ i, i < 16 → i ≠ x.toWin → (s.hostWin x.to_ i).valid = true →
      runsMeet (s.hostWin x.to_ i).dpa (s.hostWin x.to_ i).pages x.toDpa h.pages = false) → BeatFree s (f.u 24 8) → Answers (.hostHandover fid) s fun t => Admitted t fid s.cyc ∧
      t.handovers = s.handovers ++ [x] ∧ t.beat.sched = s.beat.sched ++ [{ beat := f.u 24 8, kind := .handover fid }] ∧ t.regs = s.regs) ∧
  (∀ (s : State) (snoop : Nat) (x : Snoop) (data : Option Bytes), s.snoops.find? (fun x => x.id == snoop) = some x → s.memWaits = [] →
    (∀ p, (s.port p).winBusy = []) → Answers (.bisnpResponse snoop data) s fun t => t.snoops = s.snoops.filter (fun y => y.id != snoop) ∧
      (x.inv = true → ∀ e ∈ t.dir, e.line = x.line → x.port ∉ e.holders) ∧
      (x.inv = true → ∀ e ∈ s.dir, e.line ≠ x.line → e.holders ≠ [] → e ∈ t.dir) ∧
      (x.inv = false → t.dir = s.dir.map fun e => if e.line = x.line then { e with owner := none } else e) ∧
      (data = none → t.frm = s.frm ∧ t.low = s.low ∧ t.pages = s.pages) ∧
      (∀ bs, data = some bs → (s.page (x.line / 2 ^ 46) (keyAddr x.line / pageSize)).tier = 1 →
        t.tierBytes (x.line / 2 ^ 46) (keyAddr x.line) 64 = slice bs 0 64)) ∧
  (∀ (s : State) (snoop : Nat) (x : Snoop), s.snoops.find? (fun x => x.id == snoop) = some x →
    let late := roundUp (x.sent + 1500000 * bits (s.reg (hpReg x.port 0x20)) 9 0) 1500
    (s.cyc ≤ late → exec (.biSnoopTimeout snoop) s = .next s) ∧
    (late < s.cyc → (s.port x.port).st ≠ .disabled → (s.port x.port).st ≠ .failed → Answers (.biSnoopTimeout snoop) s fun t =>
      (t.port x.port).st = .failed ∧ (t.port x.port).cause = 1 ∧ ∀ q, q ≠ x.port → (t.port q).st = (s.port q).st))

/-- R364, R367, R385, R386, R479, R503: management commands. The codes in the answers are the model's (log 11, PRESUMED). -/
def Obligations.ManagementCommandsAnswer : Prop :=
  (∀ (s : State) (path : MPath), s.pathOpen path = true → s.boot.hkImage.isSome = true →
    (carriesMld path = true →
      exec (.getLdInfo path) s = .next (s.answer path 0x5400 true [8]) ∧
      exec (.getLdAllocations path) s = .next (s.answer path 0x5401 true (List.replicate 8 (2 ^ 45))) ∧
      exec (.getQosControl path) s = .next (s.answerFree path 0x5403) ∧ exec (.getQosStatus path) s = .next (s.answerFree path 0x5405) ∧
      exec (.getQosAllocatedBw path) s = .next (s.answerFree path 0x5406) ∧
      (∀ port, exec (.getQosBwLimit path port) s = .next (s.answer path 0x5408 true [port, bits (s.reg (hpReg port 0x18)) 10 0])) ∧
      (∀ port num den, s.isReady = true → den ≠ 0 → num ≤ den → (s.port port).queue = [] →
        exec (.setQosBwLimit path port num den) s = .next ((s.setReg (hpReg port 0x18) (bwUnits num den)).answer path 0x5409 true [port, bwUnits num den])) ∧
      (∀ port num den, s.isReady = true → den ≠ 0 → num ≤ den → Answers (.setQosBwLimit path port num den) s fun t =>
        t.regs = (s.setReg (hpReg port 0x18) (bwUnits num den)).regs) ∧
      (∀ port num den, s.isReady = true → den = 0 ∨ den < num → exec (.setQosBwLimit path port num den) s = .next (s.answer path 0x5409 false [])) ∧
      (∀ port num den, s.isReady = false →
        exec (.setQosBwLimit path port num den) s = .next { s with mgmtWaits := s.mgmtWaits ++ [(path, .setQosBwLimit port num den)] })) ∧
    (carriesMld path = false → ∀ port num den, exec (.getLdInfo path) s = .next (s.answer path 0x5400 false []) ∧
      exec (.getLdAllocations path) s = .next (s.answer path 0x5401 false []) ∧ exec (.getQosControl path) s = .next (s.answer path 0x5403 false []) ∧
      exec (.getQosStatus path) s = .next (s.answer path 0x5405 false []) ∧ exec (.getQosAllocatedBw path) s = .next (s.answer path 0x5406 false []) ∧
      exec (.getQosBwLimit path port) s = .next (s.answer path 0x5408 false []) ∧
      exec (.setQosBwLimit path port num den) s = .next (s.answer path 0x5409 false [])) ∧
    exec (.setLdAllocations path) s = .next (s.answer path 0x5402 false []) ∧ exec (.setQosControl path) s = .next (s.answer path 0x5404 false []) ∧
    exec (.setQosAllocatedBw path) s = .next (s.answer path 0x5407 false []) ∧
    (∀ code, exec (.unsupportedCommand path code) s = .next (s.answer path code false [])) ∧
    (∀ ld, carriesMem ld path = true →
      exec (.identify path ld) s = .next (s.answer path 0x4000 true [ld, 2 ^ 45]) ∧
      exec (.getHealthInfo path ld) s = .next (s.answer path 0x4200 true [ld, b2n s.isReady, s.free]).useFree ∧
      (∀ log, exec (.getEventRecords path ld log) s = .next (s.answer path 0x100 true
        (tget 0 s.logLost (ld * 4 + log) :: ((tget [] s.logs (ld * 4 + log)).map EvRec.fields).flatten))) ∧
      (∀ log count, Answers (.clearEventRecords path ld log count) s fun t =>
        tget [] t.logs (ld * 4 + log) = (tget [] s.logs (ld * 4 + log)).drop count ∧ t = { s with logs := t.logs, logLost := t.logLost, out := t.out } ∧
        ∀ k, k ≠ ld * 4 + log → tget [] t.logs k = tget [] s.logs k)) ∧
    (∀ ld log count, carriesMem ld path = false → exec (.identify path ld) s = .next (s.answer path 0x4000 false []) ∧
      exec (.getHealthInfo path ld) s = .next (s.answer path 0x4200 false []) ∧
      exec (.getEventRecords path ld log) s = .next (s.answer path 0x100 false []) ∧
      exec (.clearEventRecords path ld log count) s = .next (s.answer path 0x101 false [])) ∧
    (∀ b, exec (.setEventInterruptPolicy path b) s = .next (s.answer path 0x103 (carriesMem 0 path && b) []))) ∧
  (∀ (s : State) (path : MPath), s.pathOpen path = true → s.boot.hkImage = none → s.earlyPath path = true →
    (carriesMld path = true → exec (.getLdInfo path) s = .next { s with mgmtWaits := s.mgmtWaits ++ [(path, .getLdInfo)] }) ∧
    (carriesMld path = false → exec (.getLdInfo path) s = .next (s.answer path 0x5400 false [])) ∧
    (∀ code, exec (.unsupportedCommand path code) s = .next (s.answer path code false []))) ∧
  (∀ (s : State) (path : MPath) (ld port num den : Nat), s.pathOpen path = false ∨ (s.boot.hkImage = none ∧ s.earlyPath path = false) →
    exec (.getLdInfo path) s = .next s ∧ exec (.identify path ld) s = .next s ∧ exec (.getQosBwLimit path port) s = .next s ∧
    exec (.setQosBwLimit path port num den) s = .next s ∧ ∀ code, exec (.unsupportedCommand path code) s = .next s)

/-- R433, R434, R438, R440, R443, R444, R446: Bruvia links. The nonce is a free value. -/
def Obligations.BruviaLinksTrainAndDrop : Prop :=
  (∀ (s : State) (p : Nat), let b := s.bp p
    let ok := s.power.rails = .good ∧ s.err.fatal = false ∧ b.en = .enabled ∧ b.link = .down
    (ok → Answers (.bruviaSignalDetect p) s fun t => t = { s with bps := t.bps } ∧ (t.bp p).link = .train ∧ (t.bp p).epoch = b.epoch ∧
      (t.bp p).txq = b.txq.filter (fun f => f.chan != 8) ∧ (t.bp p).credits = [] ∧ ∀ q, q ≠ p → t.bp q = s.bp q) ∧
    (¬ ok → exec (.bruviaSignalDetect p) s = .next s)) ∧
  (∀ (s : State) (p : Nat), let b := s.bp p
    let ok := b.link = .train ∧ b.epochSent = false
    (ok → Answers (.bruviaTrainDone p) s fun t => (t.bp p).epochSent = true ∧ (t.bp p).epoch = b.epoch ∧
      Sends s t p { blankFrame with typ := 2, args := argsOf (natLe b.epoch 4) } ∧
      (b.epochGot = false → (t.bp p).link = .train) ∧
      (b.epochGot = true → (t.bp p).link = .ident ∧ (t.bp p).nonceTx = s.free % 2 ^ 256 ∧
        Sends s t p { blankFrame with typ := 3, args := argsOf (natLe (s.free % 2 ^ 256) 32), payload := slice Config.publicKey 0 1312 }) ∧
      t.flights = s.flights ∧ (∀ q, q ≠ p → t.bp q = s.bp q)) ∧
    (¬ ok → exec (.bruviaTrainDone p) s = .next s)) ∧
  (∀ (s : State) (p src : Nat), let b := s.bp p
    let left : State → LinkSt → Prop := fun t x => (t.bp p).link = x ∧
      (t.bp p).epoch = (if b.link = .up ∨ b.link = .train ∨ b.link = .ident then (b.epoch + 1) % 2 ^ 32 else b.epoch) ∧
      (t.bp p).leftUp = (if b.link = .up then some s.cyc else b.leftUp) ∧ (t.bp p).en = b.en ∧
      ∀ q, q ≠ p → (t.bp q).link = (s.bp q).link ∧ (t.bp q).epoch = (s.bp q).epoch ∧ (t.bp q).en = (s.bp q).en
    let late := s.linkHeard p = true ∧ 0 < b.unacked ∧ b.ackCyc + 30000 < s.cyc
    (b.link ≠ .down → Answers (.bruviaLinkDown p) s fun t => left t .down) ∧ (b.link = .down → exec (.bruviaLinkDown p) s = .next s) ∧
    (late → Answers (.bruviaAckTimeout p) s fun t => left t .down) ∧ (¬ late → exec (.bruviaAckTimeout p) s = .next s) ∧
    (PortHeard s src → (b.link ≠ .down → Answers (.bpRetrain src p) s fun t => left t .train) ∧
      (b.link = .down → exec (.bpRetrain src p) s = .next s))) ∧
  (∀ (s : State) (p : Nat) (flit : Bytes), let b := s.bp p
    let ok := s.linkHeard p = true ∧ crc16 (slice flit 0 62) ≠ fld flit 62 2 ∧ b.dropping = false
    (ok → Answers (.flitCrcFail p flit) s fun t => (t.bp p).dropping = true ∧ (t.bp p).link = b.link ∧ t.flights = s.flights ∧
      ∃ f, f.typ = 1 ∧ f.chan = 8 ∧ fld f.args 0 4 = b.rxFlits % 2 ^ 32 ∧ fld f.args 4 1 = 1 ∧ Sends s t p f) ∧
    (¬ ok → exec (.flitCrcFail p flit) s = .next s)) ∧
  (∀ (s : State) (p : Nat), let b := s.bp p
    let ok := s.linkHeard p = true ∧ 0 < b.rxPending ∧ (128 ≤ b.rxPending ∨ b.rxAckCyc + 150 ≤ s.cyc)
    (ok → Answers (.linkCtlSendTimer p) s fun t => (t.bp p).rxAcked = b.rxFlits ∧ (t.bp p).rxAckCyc = s.cyc ∧ t.flights = s.flights ∧
      ∃ f, f.typ = 1 ∧ f.chan = 8 ∧ fld f.args 0 4 = b.rxFlits % 2 ^ 32 ∧ fld f.args 4 1 = b2n b.dropping ∧ Sends s t p f) ∧
    (¬ ok → exec (.linkCtlSendTimer p) s = .next s)) ∧
  (∀ (s : State) (p c : Nat), let b := s.bp p
    b.leftUp = some c →
    (b.link ≠ .up → roundUp (c + 1500000 * bits (s.reg (bpReg p 0x10)) 31 16) 1500 < s.cyc → Answers (.bruviaLostTimeout p) s fun t =>
      (t.bp p).leftUp = none ∧ (t.bp p).link = b.link ∧ (t.bp p).lent = [] ∧ (t.bp p).grants = [] ∧
      ∀ r ∈ t.ranges, r.tier = 3 → r.port = p → r.ready = true → r.lost = true) ∧
    (b.link = .up ∨ s.cyc ≤ roundUp (c + 1500000 * bits (s.reg (bpReg p 0x10)) 31 16) 1500 → exec (.bruviaLostTimeout p) s = .next s)) ∧
  (∀ (s : State) (src p : Nat) (en : Bool), PortHeard s src → Answers (.bpEnWrite src p en) s fun t =>
    (t.bp p).en = (if en = true then (s.bp p).en.on else (s.bp p).en.off) ∧ (t.bp p).link = (s.bp p).link ∧ (t.bp p).txq = (s.bp p).txq ∧
    ((s.bp p).en = .enabled → en = false → (t.bp p).drainFrom = some s.cyc) ∧ (∀ q, q ≠ p → t.bp q = s.bp q) ∧ t = { s with bps := t.bps }) ∧
  (∀ (s : State) (p : Nat), let b := s.bp p
    let late := ∃ c, b.drainFrom = some c ∧ roundUp (c + 1500000 * bits (s.reg (bpReg p 0x10)) 31 16) 1500 < s.cyc
    (b.draining = true → b.outstanding = [] ∨ late → Answers (.bpDrainEnd p) s fun t =>
      (t.bp p).en = (if b.en = .draining then .disabled else .enabled) ∧ (t.bp p).link = .down ∧ (t.bp p).drainFrom = none ∧
      (t.bp p).lent = [] ∧ ∀ q, q ≠ p → (t.bp q).link = (s.bp q).link) ∧
    (b.draining = false ∨ (b.outstanding ≠ [] ∧ ¬ late) → exec (.bpDrainEnd p) s = .next s))

/-- R36, R435, R437 to R442, R456: frames of the link, beat and health. The verdict of IDENT is the event's operand. -/
def Obligations.LinkFramesAreCountedAndTaken : Prop :=
  (∀ c ∈ [Instr.idleFrame, Instr.linkCtl, Instr.epochFrame, Instr.identHello, Instr.identProof, Instr.beatAnnounce, Instr.healthFrame, Instr.annexGrantReq, Instr.annexGrant, Instr.annexRelease, Instr.refuseFrame, Instr.fanoutFrame, Instr.resultPart, Instr.ringBlock, Instr.annexRd, Instr.annexWr, Instr.annexRowRd, Instr.annexAtom, Instr.rowMigrate],
    ∀ (s : State) (p : Nat) (f : Frame), (s.linkHeard p = false → exec (c p f) s = .next s) ∧
    (s.linkHeard p = true → (s.bp p).stale f = true → Answers (c p f) s fun t =>
      t = { s with bps := t.bps, live := t.live, out := t.out } ∧ (t.bp p).link = (s.bp p).link ∧
      (t.bp p).rxFlits = ((s.bp p).rxFlits + frameFlits f) % 2 ^ 32 ∧ (∀ q, q ≠ p → t.bp q = s.bp q) ∧
      t.counter (bpReg p 0x48) = min (s.counter (bpReg p 0x48) + 1) (2 ^ 64 - 1) ∧
      t.counter (bpReg p 0x88) = min (s.counter (bpReg p 0x88) + 1) (2 ^ 64 - 1))) ∧
  (∀ (s : State) (p : Nat) (f : Frame), Heard s p f →
    let b := s.bp p
    Answers (.idleFrame p f) s (fun t => t = { s with bps := t.bps, live := t.live, out := t.out } ∧ (t.bp p).link = b.link ∧
      (t.bp p).rxFlits = (b.rxFlits + frameFlits f) % 2 ^ 32 ∧ (t.bp p).dropping = false ∧
      t.counter (bpReg p 0x88) = s.counter (bpReg p 0x88)) ∧
    (let a := (b.received f).acked f s.cyc
     Answers (.linkCtl p f) s (fun t =>
      (bit (fld f.args 4 1) 0 = false → b.txq = [] → (t.bp p).link = b.link ∧ t.flights = s.flights ∧ t.regs = s.regs ∧
        (∀ ch, ch < 10 → tget 0 (t.bp p).credits ch = tget 0 b.credits ch - creditsIn f ch) ∧
        (t.bp p).ackedFlits = a.ackedFlits ∧ (t.bp p).replayBuf.take a.replayBuf.length = a.replayBuf) ∧
      (bit (fld f.args 4 1) 0 = true → 0 < a.unacked → Out.replay p a.ackedFlits (a.replayBuf.map fun x => frameBytes x.2) ∈ t.out.drop s.out.length ∧
        (a.replays < 7 → (t.bp p).link = b.link ∧ (t.bp p).replays = a.replays + 1 ∧ t.flights = s.flights) ∧
        (7 ≤ a.replays → (t.bp p).link = .down)))) ∧
    Answers (.epochFrame p f) s (fun t =>
      (b.link ≠ .train → t = { s with bps := t.bps, live := t.live, out := t.out } ∧ (t.bp p).epoch = b.epoch ∧ (t.bp p).link = b.link) ∧
      (b.link = .train → (t.bp p).epoch = max b.epoch (fld f.args 0 4) ∧ (t.bp p).epochGot = true ∧
        (b.epochSent = false → (t.bp p).link = .train) ∧ (b.epochSent = true → (t.bp p).link = .ident))) ∧
    Answers (.identHello p f) s (fun t => t = { s with bps := t.bps, live := t.live, out := t.out, signings := t.signings } ∧
      (b.link = .ident → b.nonceRx = [] → (t.bp p).nonceRx = slice f.args 0 32 ∧ (t.bp p).peerKey = slice f.payload 0 1312 ∧
        Signing.identProof p ∈ t.signings ∧ t.signings.length = s.signings.length + 1) ∧
      (b.link ≠ .ident ∨ b.nonceRx ≠ [] → (t.bp p).nonceRx = b.nonceRx ∧ (t.bp p).peerKey = b.peerKey ∧ t.signings = s.signings)) ∧
    Answers (.identProof p f) s (fun t => t = { s with bps := t.bps, live := t.live, out := t.out } ∧
      (t.bp p).proof = (if b.link = .ident ∧ b.nonceRx ≠ [] then some (slice f.payload 0 2420) else b.proof)) ∧
    Answers (.beatAnnounce p f) s (fun t => t.flights = s.flights ∧ t.regs = s.regs ∧ (t.bp p).link = b.link ∧
      t.beat = { s.beat with offers := s.beat.offers ++
        (if bit (s.reg 0x80) (24 + p) = true then [{ cyc := s.cyc, n := fld f.args 0 8, port := p }] else []) }) ∧
    Answers (.healthFrame p f) s (fun t => t = { s with bps := t.bps, live := t.live, out := t.out } ∧
      (t.bp p).health = slice f.payload 0 576)) ∧
  (∀ (s : State) (p : Nat) (ok : Bool), let b := s.bp p
    let id := Config.sha3 b.peerKey
    let good := ok = true ∧ (bit (s.reg (bpReg p 0x10)) 0 = true → id = s.pinId p)
    (b.link ≠ .ident ∨ b.proof = none → exec (.identVerifyDone p ok) s = .next s) ∧
    (b.link = .ident → b.proof.isSome = true → Answers (.identVerifyDone p ok) s fun t =>
      (¬ good → t = { s with bps := t.bps } ∧ (t.bp p).link = .identFail ∧ (t.bp p).txq = b.txq.filter (fun f => f.chan != 8)) ∧
      (good → (t.bp p).link = .up ∧ (t.bp p).peerId = some id ∧ (t.bp p).lastPeer = some id ∧ (t.bp p).epoch = b.epoch ∧
        ((t.bp p).newPeer = true ↔ b.newPeer = true ∨ ∃ x, b.lastPeer = some x ∧ x ≠ id) ∧
        (b.lastPeer = some id → t.ranges = s.ranges ∧ (t.bp p).lent = b.lent)))) ∧
  (∀ (s : State) (p : Nat),
    let ok := bit (s.reg (bpReg p 0x10)) 1 = true ∧ s.healthDue p = true ∧ p ∉ s.beat.healthSent ∧
      s.beat.periodNs * 24 ≤ 4 * 16 * s.beatPos ∧ (s.bp p).link = .up ∧ s.err.fatal = false
    (ok → Answers (.healthSend p) s fun t => t.beat = { s.beat with healthSent := p :: s.beat.healthSent } ∧ t.flights = s.flights ∧
      (t.bp p).health = (s.bp p).health ∧ Sends s t p { blankFrame with typ := 0x11, chan := 9, payload := s.healthBytes }) ∧
    (¬ ok → exec (.healthSend p) s = .next s))

/-- R3, R435: every field of a Bruvia frame at every value that Table 18-2 admits survives its layout in bytes. -/
def Obligations.FrameBytesSpellTheFrame : Prop :=
  ∀ f : Frame, f.typ < 2 ^ 16 → f.chan < 16 → f.colour < 4 → f.hdrVer < 256 → f.wing < 16 → f.epoch < 2 ^ 32 → f.seq < 2 ^ 32 → f.tag < 2 ^ 32 →
    f.deadline < 2 ^ 32 → f.args.length = 40 → f.payload.length < 2 ^ 13 → f.resv = false →
    (frameBytes f).length = 64 + f.payload.length ∧ frameOfBytes (frameBytes f) = f

/-- R269, R421, R425, R445, R447, R448, R453: Annex pages across Bruvia. -/
def Obligations.PagesCrossBruvia : Prop :=
  (∀ c ∈ [Instr.annexRd, Instr.annexWr, Instr.annexRowRd, Instr.annexAtom, Instr.rowMigrate, Instr.fanoutFrame, Instr.ringBlock],
    ∀ (s : State) (p w : Nat) (f : Frame), Heard s p f → f.resp = false → s.mapWing p f.wing = some w →
    (f.chan ≤ 7 → (s.police w 1 f.chan (64 + f.payload.length) f.colour).2.drop = true → Answers (c p f) s fun t =>
      t = { s with bps := t.bps, live := t.live, out := t.out, meters := t.meters, polTicks := t.polTicks } ∧ Refuses s t p f .policedDrop) ∧
    (7 < f.chan → Answers (c p f) s fun t => t = { s with bps := t.bps, live := t.live, out := t.out } ∧ Refuses s t p f .invalid)) ∧
  (∀ c ∈ [Instr.annexRowRd, Instr.annexAtom, Instr.rowMigrate, Instr.fanoutFrame, Instr.ringBlock],
    ∀ (s : State) (p : Nat) (f : Frame), Heard s p f → f.resp = false → s.mapWing p f.wing = none → Answers (c p f) s fun t =>
      t = { s with bps := t.bps, live := t.live, out := t.out } ∧ Refuses s t p f .invalid) ∧
  (∀ (s : State) (p : Nat) (f : Frame), Heard s p f →
    let b := s.bp p
    let n := fld f.args 0 4
    (∀ g, b.grants.find? (fun x => x.tag == f.tag) = some g → Answers (.annexGrantReq p f) s fun t =>
      t = { s with bps := t.bps, live := t.live, out := t.out } ∧ (t.bp p).lent = b.lent ∧
      Replies s t p f 0x21 (natLe g.first 4 ++ natLe g.pages 4 ++ natLe 0 1) []) ∧
    (b.grants.find? (fun x => x.tag == f.tag) = none →
      (n = 0 → Answers (.annexGrantReq p f) s fun t => t = { s with bps := t.bps, live := t.live, out := t.out } ∧ Refuses s t p f .invalid) ∧
      (n ≠ 0 → s.lendMax p < b.lentPages + n → Answers (.annexGrantReq p f) s fun t =>
        t = { s with bps := t.bps, live := t.live, out := t.out } ∧ (t.bp p).lent = b.lent ∧
        Replies s t p f 0x21 (natLe 0 4 ++ natLe 0 4 ++ natLe 0x61 1) []) ∧
      (n ≠ 0 → b.freeRun n = none → Answers (.annexGrantReq p f) s fun t => (t.bp p).lent = b.lent ∧ t.frames = s.frames ∧
        Replies s t p f 0x21 (natLe 0 4 ++ natLe 0 4 ++ natLe 0x61 1) []) ∧
      (∀ first, n ≠ 0 → b.lentPages + n ≤ s.lendMax p → b.freeRun n = some first → (∀ i, i < 12 → n ≤ s.stackFree 16 i) →
        Answers (.annexGrantReq p f) s fun t => t = { s with bps := t.bps, live := t.live, out := t.out, frames := t.frames, fresh := t.fresh } ∧
          (∃ l : List FrameAt, l.length = n ∧ t.frames = s.frames ++ l ∧ tget [] (t.bp p).lentFrames first = l) ∧
          (t.bp p).lent = b.lent ++ [(first, n)] ∧ Replies s t p f 0x21 (natLe first 4 ++ natLe n 4 ++ natLe 0 1) [])) ∧
    (let x := (fld f.args 0 4, fld f.args 4 4)
     (x ∈ b.lent → Answers (.annexRelease p f) s fun t => (t.bp p).lent = b.lent.filter (fun y => y != x) ∧ t.flights = s.flights ∧
      t.frames = (s.giveFrames (tget [] b.lentFrames x.1)).frames) ∧
     (x ∉ b.lent → Answers (.annexRelease p f) s fun t => t = { s with bps := t.bps, live := t.live, out := t.out } ∧ (t.bp p).lent = b.lent))) ∧
  (∀ (s : State) (p fid : Nat) (f : Frame) (r : BpReq) (fl : Flight), Heard s p f → s.reqOf p f = some r → r.typ = 0x20 → r.fid = some fid →
    s.flight? fid = some fl →
    (fld f.args 8 1 ≠ 0 → fl.phase ≠ .done → Answers (.annexGrant p f) s fun t => Completed t fid .noResource 0 0 ∧
      t.ranges = s.ranges.filter fun x => !(x.fid == some fid && x.tier == 3)) ∧
    (∀ x, fld f.args 8 1 = 0 → s.ranges.find? (fun x => x.fid == some fid && x.tier == 3) = some x →
      (fl.phase = .active → hOpcode fl.raw = 0x940 → Answers (.annexGrant p f) s fun t => Completed t fid .ok 0 (x.base * pageSize) ∧
        t.ranges = s.ranges.map fun y => if y.fid = some fid then { y with first := fld f.args 0 4, ready := true, fid := none } else y) ∧
      (fl.phase = .done → x.lost = false → Answers (.annexGrant p f) s fun t =>
        ∃ g, g.typ = 0x22 ∧ fld g.args 0 4 = fld f.args 0 4 ∧ Sends s t x.port g))) ∧
  (∀ (s : State) (p : Nat) (f : Frame), Heard s p f → f.resp = false → s.mapWing p f.wing = none ∨ (∃ w, Policed s p f w) →
    let b := s.bp p
    let k := fld f.args 0 4 * pageSize + fld f.args 4 4
    let n := fld f.args 8 4
    (b.pageReqOk f true = true → Answers (.annexWr p f) s fun t => t.flights = s.flights ∧ t.low = s.low ∧
      (∀ i, i < n → tget 0 (t.bp p).lentMem (k + i) = f.payload.getD i 0) ∧
      (∀ a, a < k ∨ k + n ≤ a → tget 0 (t.bp p).lentMem a = tget 0 b.lentMem a) ∧
      Replies s t p f f.typ (annexArgs (fld f.args 0 4) (fld f.args 4 4) n 0) []) ∧
    (b.pageReqOk f true = false → Answers (.annexWr p f) s fun t => (t.bp p).lentMem = b.lentMem ∧ Refuses s t p f .invalid) ∧
    (b.pageReqOk f false = true → Answers (.annexRd p f) s fun t => t.flights = s.flights ∧ (t.bp p).lentMem = b.lentMem ∧
      ∃ map, Replies s t p f f.typ (annexArgs (fld f.args 0 4) (fld f.args 4 4) n map) (getBytes b.lentMem k n)) ∧
    (b.pageReqOk f false = false → Answers (.annexRd p f) s fun t => (t.bp p).lentMem = b.lentMem ∧ Refuses s t p f .invalid)) ∧
  (∀ (s : State) (p : Nat) (f : Frame) (r : BpReq), Heard s p f → f.resp = true → s.reqOf p f = some r → s.memWaits = [] → (s.bp p).deferred = [] →
    (r.typ = 0x301 → Answers (.annexWr p f) s fun t => t = { s with bps := t.bps, live := t.live, out := t.out } ∧
      (t.bp p).reqs = (s.bp p).reqs.filter fun x => x.tag != f.tag) ∧
    (r.typ = 0x300 → Answers (.annexRd p f) s fun t => (t.bp p).reqs = (s.bp p).reqs.filter (fun x => x.tag != f.tag) ∧
      (∀ id, r.access = some id → t.accesses = s.accesses.map (answered id false)) ∧
      (∀ w pg, s.borrowed p (fld r.args 0 4) = some (w, pg) → ∀ i, i < fld r.args 8 4 →
        tget 0 t.low (memKey w (pg * pageSize) + (fld r.args 4 4 + i)) = (slice f.payload 0 (fld r.args 8 4)).getD i 0)))

/-- R191, R192, R325, R336, R448 to R452, R454: work that crosses Bruvia. -/
def Obligations.WorkCrossesBruvia : Prop :=
  (∀ (s : State) (p w : Nat) (f : Frame), Policed s p f w →
    let h := fld f.args 0 4
    let msg := tget [] (s.bp p).fanBuf f.tag ++ f.payload
    (4096 ≤ h ∨ tfind s.colls (objKey w h) = none → Answers (.fanoutFrame p f) s fun t => t.reqs = s.reqs ∧ Refuses s t p f .invalid) ∧
    (∀ c, h < 4096 → tfind s.colls (objKey w h) = some c →
      (f.last = false → Answers (.fanoutFrame p f) s fun t => tget [] (t.bp p).fanBuf f.tag = msg ∧ t.reqs = s.reqs ∧ t.colls = s.colls) ∧
      (f.last = true → ∀ raw qn n, raw = List.replicate 16 0 ++ msg.take 112 → qn = c.defn.dim * fmtBytes (fld raw 30 1) → n = fld raw 56 1 →
        searchFieldsOk false raw c.defn = true → msg.length = 112 + qn + 16 * n →
        (c.st = .building ∨ c.st = .opening ∨ c.st = .draining → Answers (.fanoutFrame p f) s fun t => t.reqs = s.reqs ∧
          ∃ a, fld a 1 1 = (if c.st = .draining then Status.invalid else Status.busy).code ∧ fld a 3 1 = 1 ∧ Replies s t p f 0x101 a []) ∧
        (c.st ≠ .building → c.st ≠ .opening → c.st ≠ .draining → allFinite (fmtVec (fld raw 30 1) c.defn.dim (slice msg 112 qn)) = true →
          filterOk c.defn.attrWords (chunks 16 n (slice msg (112 + qn) (16 * n))) = true → Answers (.fanoutFrame p f) s fun t =>
          ∃ r, t.reqs = s.reqs ++ [r] ∧ r.fid = s.nextId ∧ r.key = objKey w h ∧ r.fromPort.map (fun x => (x.1, x.2.tag)) = some (p, f.tag) ∧
            r.due = some (roundUp (s.cyc + 1500 * f.deadline) 1500) ∧ t.nextId = s.nextId + 1 ∧ t.colls = s.colls ∧ t.flights = s.flights)))) ∧
  (∀ (s : State) (p fid : Nat) (f : Frame) (q : BpReq), Heard s p f → s.reqOf p f = some q → q.typ = 0x100 → q.fid = some fid →
    Answers (.resultPart p f) s fun t => t = { s with reqs := t.reqs, bps := t.bps, live := t.live, out := t.out } ∧
      t.reqs = s.reqs.map (fun r => if r.fid = fid then { r with parts := r.parts.map (takePart p f) } else r) ∧
      ∀ r, t.reqs.find? (fun r => r.fid == fid) = some r → (t.bp p).reqs =
        if partDone p f r = true then (s.bp p).reqs.filter (fun x => x.tag != f.tag) else (s.bp p).reqs) ∧
  (∀ c ∈ [(Instr.annexRowRd, 0x310), (Instr.annexAtom, 0x311)], ∀ (s : State) (p w : Nat) (f : Frame), Policed s p f w → f.resp = false → f.typ = c.2 →
    let key := objKey w (fld f.args 0 4)
    let g := fld f.args 4 4
    (1024 ≤ fld f.args 0 4 ∨ tfind s.embs key = none → Answers (c.1 p f) s fun t => t.embs = s.embs ∧ Refuses s t p f .invalid) ∧
    (∀ e, fld f.args 0 4 < 1024 → tfind s.embs key = some e →
      let bad := e.nrows ≤ g ∨ (f.typ = 0x311 ∧ (f.payload.length ≠ 4 * e.width ∨ e.update = false))
      (bad → Answers (c.1 p f) s fun t => t.embs = s.embs ∧ Refuses s t p f .invalid) ∧
      (¬ bad → e.moving g = true → Answers (c.1 p f) s fun t => t.embs = s.embs ∧ t.embFrames.length = s.embFrames.length + 1) ∧
      (¬ bad → e.moving g = false →
        (e.slotOf g = none → Answers (c.1 p f) s fun t => ∃ q, Sends s t (e.portTo (e.nextMember g)) q ∧ q.typ = f.typ ∧ q.resp = false ∧
          q.payload = f.payload ∧ fld q.args 4 4 = g) ∧
        (∀ slot, e.slotOf g = some slot →
          (e.rowBad slot = true → Answers (c.1 p f) s fun t => t.embs = s.embs ∧ Refuses s t p f .poisoned) ∧
          (e.rowBad slot = false → Answers (c.1 p f) s fun t => ∃ e', tfind t.embs key = some e' ∧ t.flights = s.flights ∧
            (f.typ = 0x310 → e'.mem = e.mem ∧ Replies s t p f 0x310 (f.args.take 8) (e.row slot)) ∧
            (f.typ = 0x311 → let i := regionStack ((e.slotRegion slot).getD 0)
              (((s.stkQueue i).length < 1024 → e' = e ∧ ∃ o, t.stkOps = s.stkOps ++ [o] ∧ o.id = s.nextId ∧ o.opcode = 0x420 ∧ o.stack = i ∧ o.key = key ∧
                o.fid = none ∧ o.running = false ∧ o.rows = f.payload ∧ fld o.aux 0 4 = g ∧ o.ask.map (fun x => (x.1, x.2.tag)) = some (p, f.tag)) ∧
              (1024 ≤ (s.stkQueue i).length → hasModuleBricks s.prof = true → Replies s t p f 0x311 (f.args.take 8) [] ∧ e'.row slot =
                slice ((addRows e.fx e.frac ((e.row slot).take (4 * e.width)) f.payload).1.take (embStored e.fmt e.width)) 0 e.rb) ∧
              (1024 ≤ (s.stkQueue i).length → hasModuleBricks s.prof = false → e' = e ∧
                t.embFrames.length = s.embFrames.length + 1)))))))) ∧
  (∀ (s : State) (p w : Nat) (f : Frame), Policed s p f w → f.resp = false →
    let key := objKey w (fld f.args 0 4)
    let g := fld f.args 4 4
    ((∀ e, fld f.args 0 4 < 1024 → tfind s.embs key = some e → e.awaits p g = none ∨ f.payload.length ≠ e.rb) →
      Answers (.rowMigrate p f) s fun t => t.embs = s.embs ∧ Refuses s t p f .invalid) ∧
    (∀ e m, fld f.args 0 4 < 1024 → tfind s.embs key = some e → e.awaits p g = some m → f.payload.length = e.rb → s.migOf m.fid = some (key, e, m) →
      e.home g = e.index → tfind e.slots g = none → m.stale = false → e.written.contains (g / e.members) = false → s.embJobs = [] → s.embFrames = [] →
      Answers (.rowMigrate p f) s fun t =>
        Replies s t p f 0x320 (f.args.take 8) [] ∧ ∃ e', tfind t.embs key = some e' ∧ e'.slotOf g = some (g / e.members) ∧
          e'.row (g / e.members) = slice (f.payload.take (embStored e.fmt e.width)) 0 e.rb)) ∧
  (∀ (s : State) (p fid : Nat) (f : Frame) (r : BpReq), Heard s p f → f.resp = true → s.reqOf p f = some r →
    (r.typ = 0x320 → r.fid = some fid → s.embJobs = [] → s.embFrames = [] → Answers (.rowMigrate p f) s fun t =>
      (t.bp p).reqs = (s.bp p).reqs.filter fun x => x.tag != f.tag) ∧
    (∀ x, r.relay = some x → (r.typ = 0x310 → Answers (.annexRowRd p f) s fun t => t.embs = s.embs ∧
        Replies s t x.1 x.2 0x310 (r.args.take 8) f.payload) ∧
      (r.typ = 0x311 → Answers (.annexAtom p f) s fun t => t.embs = s.embs ∧ Replies s t x.1 x.2 0x311 (r.args.take 8) f.payload))) ∧
  (∀ (s : State) (p w : Nat) (f : Frame), Policed s p f w → s.ringReq p w (fld f.args 0 2) = none → Answers (.ringBlock p f) s fun t =>
    t.flights = s.flights ∧ t.sessions = s.sessions ∧ ∃ x ∈ (t.bp p).ringBuf, x.wing = w ∧ x.ringId = fld f.args 0 2 ∧ x.index = fld f.args 2 1 ∧
      x.page = fld f.args 14 4 ∧ x.whole = f.last ∧ ∀ i, i < f.payload.length → tget 0 x.bytes (fld f.args 18 4 + i) = f.payload.getD i 0) ∧
  (∀ (s : State) (p : Nat) (f : Frame), Heard s p f →
    let st := Status.ofCode (fld f.args 0 1)
    (∀ r, s.reqOf p f = some r →
      (∀ fid fl, r.relay = none → r.fid = some fid → r.typ ≠ 0x320 → s.flight? fid = some fl → fl.phase ≠ .done →
        Answers (.refuseFrame p f) s fun t => Completed t fid st 0 0) ∧
      (∀ x, r.relay = some x → r.typ ≠ 0x300 → r.typ ≠ 0x301 → Answers (.refuseFrame p f) s fun t => Refuses s t x.1 x.2 st ∧
        t.flights = s.flights)) ∧
    (∀ x fl, s.reqOf p f = none → (s.bp p).ringTags.find? (fun x => x.1 == f.tag) = some x → fld f.args 2 2 = 0x200 →
      s.flight? x.2 = some fl → fl.phase ≠ .done → Answers (.refuseFrame p f) s fun t => Completed t x.2 st 0 0))

/-- R271, R353, R354, R462, R464, R465, R470 to R472, R476, R478, R493: power, flush and module reset. -/
def Obligations.PowerComesAndGoes : Prop :=
  (∀ s : State, let p := s.power
    let ready : Power → Bool → Bool → Prop := fun q input hold => q.rails = .off ∧ input = true ∧ q.pwrEn = true ∧ hold = false
    let started : State → Prop := fun t => t = { s with power := t.power } ∧ t.power.rails = .starting ∧ t.power.startCyc = s.cyc
    Answers .inputStartThreshold s (fun t => t.power.input = true ∧ t.power.offLatch = (p.offLatch && p.input) ∧ t.power.pwrEn = p.pwrEn ∧
      (ready p true (p.offLatch && p.input) → started t) ∧
      (¬ ready p true (p.offLatch && p.input) → t = { s with power := t.power } ∧ t.power.rails = p.rails)) ∧
    (p.pwrEn = true → exec .pwrEnAssert s = .next s) ∧
    (p.pwrEn = false → Answers .pwrEnAssert s fun t => t.power.pwrEn = true ∧ t.power.input = p.input ∧
      t.power.offLatch = (p.offLatch && decide (s.cyc < p.unsetCyc + 150000000)) ∧
      (p.rails = .off → p.input = true → t.power.offLatch = false → started t) ∧
      (p.rails ≠ .off ∨ p.input = false ∨ t.power.offLatch = true → t = { s with power := t.power } ∧ t.power.rails = p.rails)) ∧
    (∀ c, p.offCyc = some c → (s.cyc < c + 150000000 → exec .powerUpDelayExpiry s = .next s) ∧
      (c + 150000000 ≤ s.cyc → (ready p p.input p.offLatch → Answers .powerUpDelayExpiry s started) ∧
        (¬ ready p p.input p.offLatch → exec .powerUpDelayExpiry s = .next s))) ∧
    (p.offCyc = none → exec .powerUpDelayExpiry s = .next s) ∧
    (∀ straps, (p.rails = .starting → Answers (.railsGood straps) s fun t => t = { s with cyc := 0, power := t.power, boot := t.boot } ∧
        t.power.rails = .good ∧ t.power.straps = straps % 4 ∧ t.boot = { s.boot with phase := 2, profile := straps % 4 }) ∧
      (p.rails ≠ .starting → exec (.railsGood straps) s = .next s))) ∧
  (∀ (s : State) (x : Sensor), ∀ e ∈ [(Instr.powerFailure, 1), (.pwrEnDeassert, 2), (.thermalTrip x, 3)],
    (s.power.rails = .good → s.power.flush = none → Answers e.1 s fun t => t.power.flush = some e.2 ∧ t.power.afterFlush = 0 ∧ t.power.flushCyc = s.cyc ∧
      t.power.rails = .good ∧ t.flights = [] ∧ t.reqs = [] ∧ t.progs = [] ∧ t.bricks = [] ∧ t.accesses = [] ∧ t.stkOps = [] ∧
      t.cellar.st = (if s.cellar.st = .mounting then .mounting else .flushing) ∧ t.regs = s.regs ∧ t.colls = s.colls ∧ t.pages = s.pages ∧
      t.frm = s.frm ∧ t.low = s.low ∧ t.ranges = s.ranges) ∧
    (∀ c, s.power.rails = .good → s.power.flush = some c → Answers e.1 s fun t => t = { s with power := t.power } ∧ t.power.afterFlush = 0 ∧
      t.power.flush = some (if e.2 = 1 ∧ c = 2 ∧ s.power.flushCyc = s.cyc then 1 else c)) ∧
    (s.power.rails = .starting → Answers e.1 s fun t => t.power.rails = .off ∧ t.regs = [] ∧ t.flights = [] ∧ t.pending = s.pending) ∧
    (s.power.rails = .off → Answers e.1 s fun t => t = { s with power := t.power } ∧ t.power.rails = .off ∧ (e.2 = 3 → t = s))) ∧
  (∀ s : State, Answers .powerFailure s (fun t => t.power.input = false) ∧ Answers .pwrEnDeassert s (fun t => t.power.pwrEn = false) ∧
    (∀ x, s.power.rails ≠ .off → Answers (.thermalTrip x) s fun t => t.power.offLatch = true)) ∧
  (∀ s : State, (s.power.flush = none → exec .flushComplete s = .next s) ∧
    (∀ cause, s.power.flush = some cause → Answers .flushComplete s fun t =>
      t.regs = [] ∧ t.colls = [] ∧ t.flights = [] ∧ t.sessions = [] ∧ t.frm = [] ∧ t.mirrors = s.mirrors ∧ t.ranges = s.durableRanges ∧
      t.pending = s.pending ∧ t.power.flush = none ∧ t.boot.bootArea = s.boot.bootArea ∧
      t.cellar.st = .mounting ∧ (s.cellar.st ≠ .mounting → t.cellar.closed = true ∧ t.cellar.cause = cause) ∧
      (s.power.afterFlush = 1 → t.cyc = 0 ∧ t.boot.phase = 2 ∧ t.power.rails = s.power.rails ∧ t.link = s.link ∧ t.logs = s.logs ∧ t.spdm = s.spdm) ∧
      (s.power.afterFlush ≠ 1 → t.link = {} ∧ t.power.rails =
        if cause = 1 ∧ s.power.input = true ∧ s.power.pwrEn = true ∧ s.power.offLatch = false then .starting else .off)))

/-- R271, R275, R353, R354, R472: durable bytes outlive the flush. -/
def Obligations.DurableBytesOutliveTheFlush : Prop :=
  ∀ (s : State) (cause w a : Nat) (r : Range), s.power.flush = some cause → s.cellar.st ≠ .mounting →
    (s.frm.map Prod.fst).Pairwise (· < ·) → (s.low.map Prod.fst).Pairwise (· < ·) → (s.pages.map Prod.fst).Pairwise (· < ·) →
    a < 2 ^ 52 → s.rangeAt w (a / pageSize) = some r → r.tier = 2 → r.durable = true → r.ready = true →
    Answers .flushComplete s fun t =>
      (∃ x ∈ t.ranges, x.wing = r.wing ∧ x.base = r.base ∧ x.pages = r.pages ∧ x.tier = 2 ∧ x.durable = true ∧ x.ready = true) ∧
      tget 0 t.low (memKey w a) = if (s.page w (a / pageSize)).dirty = true then tget 0 s.frm (memKey w a) else tget 0 s.low (memKey w a)

/-- R466 to R469, R475: the hold-up bank, the power limiter, temperatures. -/
def Obligations.BankLimiterAndTemperaturesAct : Prop :=
  (∀ s : State, let mounts : State → Prop := fun t => t.boot = if s.boot.phase = 4 ∧ s.boot.fail = false then { s.boot with phase := 5 } else s.boot
    let weak : State → Prop := fun t => t.power.bankLow = true ∧ mounts t ∧ t.regs = s.regs ∧ t.colls = s.colls ∧ t.flights = s.flights ∧
      ((tget [] s.logs 2).length < 256 → tget [] t.logs 2 = tget [] s.logs 2 ++ [{ code := 3, unit := 0 }])
    (s.power.input = true → Answers .bankCharged s fun t => t = { s with power := { s.power with bankOk := true }, boot := t.boot } ∧ mounts t) ∧
    (s.power.input = false → exec .bankCharged s = .next s) ∧
    (∀ j, (s.power.rails ≠ .good ∨ s.power.flush.isSome = true → exec (.bankMeasure j) s = .next s) ∧
      (s.power.rails = .good → s.power.flush = none →
        (j < 400 → Answers (.bankMeasure j) s fun t => weak t ∧ t.power = { s.power with bankJ := sat j 10, measured := true, bankLow := true }) ∧
        (400 ≤ j → Answers (.bankMeasure j) s fun t => t = { s with power := { s.power with
          bankJ := sat j 10, measured := true, bankLow := s.power.measured && s.power.bankLow } }))) ∧
    (let due := s.power.rails = .good ∧ s.power.bankOk = false ∧ s.power.bankLow = false ∧ 3000000000 < s.power.startBefore + s.cyc
     (due → Answers .bankOkTimeout s weak) ∧ (¬ due → exec .bankOkTimeout s = .next s))) ∧
  (∀ (s : State) (mean mean1s vin : Nat), (s.power.rails ≠ .good → exec (.powerSample mean mean1s vin) s = .next s) ∧
    (s.power.rails = .good → Answers (.powerSample mean mean1s vin) s fun t =>
      let run := if 2000 < mean then s.power.runAbove + 1 else 0
      let engage := 80 ≤ run ∨ 2150 < mean ∨ 1950 < mean1s
      t = { s with power := t.power, live := t.live, logs := t.logs, logLost := t.logLost, setAt := t.setAt } ∧ t.power.pin = sat mean 16 ∧ t.power.vin = sat vin 16 ∧
      t.power.runAbove = run ∧ t.power.rails = .good ∧ t.power.temps = s.power.temps ∧
      (engage → t.power.limit = true ∧ t.power.limitStep = if s.power.limit = true then min 3 (s.power.limitStep + 1) else 1) ∧
      (¬ engage → mean < 1900 → mean1s < 1900 → t.power.limit = false ∧ t.power.limitStep = 0) ∧
      (¬ engage → 1900 ≤ mean ∨ 1900 ≤ mean1s → t.power.limit = s.power.limit ∧ t.power.limitStep = s.power.limitStep) ∧
      t.counter 0x1048 = (if 2000 < mean ∧ s.power.runAbove = 0 then min (s.counter 0x1048 + 1) (2 ^ 64 - 1) else s.counter 0x1048))) ∧
  (∀ (s : State) (x : Sensor) (temp : Int), (s.power.rails ≠ .good → exec (.thermalThreshold x temp) s = .next s) ∧
    (s.power.rails = .good → Answers (.thermalThreshold x temp) s fun t =>
      let k := sensorKey x
      t = { s with power := t.power, logs := t.logs, logLost := t.logLost } ∧ tget 1000 t.power.temps k = (temp + 1000).toNat ∧
      t.power.limit = s.power.limit ∧ (∀ j, j ≠ k → (j ∈ t.power.throttles ↔ j ∈ s.power.throttles)) ∧
      (x ≠ .inlet → (throttleAt x ≤ temp → k ∈ t.power.throttles) ∧ (temp ≤ throttleAt x - 30 → k ∉ t.power.throttles) ∧
        (throttleAt x - 30 < temp → temp < throttleAt x → (k ∈ t.power.throttles ↔ k ∈ s.power.throttles)) ∧
        t.power.hotInlet = s.power.hotInlet ∧ t.logs = s.logs) ∧
      (x = .inlet → (420 ≤ temp → t.power.hotInlet = true) ∧ (temp ≤ 390 → t.power.hotInlet = false) ∧
        (390 < temp → temp < 420 → t.power.hotInlet = s.power.hotInlet) ∧
        ((tget [] s.logs 1).length < 256 → tget [] t.logs 1 = tget [] s.logs 1 ++
          if 420 ≤ temp ∧ s.power.hotInlet = false then [{ code := 4, unit := 0 }] else [])) ∧
      (∀ i, x = .floor i → (850 ≤ temp → k ∈ t.power.fastRefresh) ∧ (temp < 820 → k ∉ t.power.fastRefresh)))) 

/-- R49, R159, R352, R478, R479, R482, R486, R493, R516, R518, R519: start-up, set-up, resets, profiles. When firmware serviced its watchdog is free (log 119, DESIGN CHOICE). -/
def Obligations.StartUpReachesReady : Prop :=
  (∀ s : State, let up := s.power.rails = .good ∧ s.power.flush = none
    (∀ image, let im := if s.boot.stagingOk = true then s.boot.staging else image
      (up → s.boot.phase = 2 → Answers (.imageVerifyDone image) s fun t => (im = none ∨ s.mgmtWaits = [] → t = { s with boot := t.boot }) ∧
        t.boot.bootArea = image ∧
        (im.isSome = true → t.boot.phase = 3 ∧ t.boot.noImage = false ∧ t.boot.hkImage = im ∧ t.boot.hkFrom = s.cyc) ∧
        (im = none → t.boot = { s.boot with bootArea := image, noImage := true })) ∧
      (¬ up ∨ s.boot.phase ≠ 2 → exec (.imageVerifyDone image) s = .next s)) ∧
    (∀ failed, (up → s.boot.phase = 3 → s.boot.fail = false → Answers (.floorTrainDone failed) s fun t =>
        (failed.isSome = true → t = { s with boot := { s.boot with fail := true, failPhase := 3 }, logs := t.logs, logLost := t.logLost } ∧
          ((tget [] s.logs 2).length < 256 → tget [] t.logs 2 = tget [] s.logs 2 ++ [{ code := 5, unit := 3 }])) ∧
        (failed = none → t = { s with boot := { s.boot with phase := if s.power.bankOk = true ∨ s.power.bankLow = true then 5 else 4 } })) ∧
      (¬ up ∨ s.boot.phase ≠ 3 ∨ s.boot.fail = true → exec (.floorTrainDone failed) s = .next s)) ∧
    (∀ ok, (up → s.boot.phase = 5 → s.boot.fail = false →
        (ok = false → Answers (.cellarMountDone ok) s fun t =>
          t = { s with boot := { s.boot with fail := true, failPhase := 5 }, logs := t.logs, logLost := t.logLost }) ∧
        (ok = true → s.cellar.reserveFull = false → exec (.cellarMountDone ok) s = .next s) ∧
        (ok = true → s.cellar.reserveSpent = 0 → Answers (.cellarMountDone ok) s fun t =>
          t.boot = { s.boot with phase := 6, profile := s.power.straps } ∧ t.power.lastOff = (if s.cellar.closed = true then s.cellar.cause else 0) ∧
          (s.mgmtWaits = [] → t.regs = s.regs ∧ t.ranges = s.ranges ∧ t.low = s.low ∧
            t.cellar.st = (if s.cellar.spare = 0 then .readOnly else .mounted) ∧
            t.cellar.unclean = !s.cellar.closed ∧ t.cellar.closed = false ∧ t.cellar.map = s.cellar.map) ∧
          (s.mgmtWaits = [] → s.colls = [] → (s.mirrors.map Prod.fst).Pairwise (· < ·) → ∀ k m, tfind s.mirrors k = some m →
            ∃ c, tfind t.colls k = some c ∧ c.defn = m.defn ∧ c.mem = m.mem.getD []))) ∧
      (¬ up ∨ s.boot.phase ≠ 5 ∨ s.boot.fail = true → exec (.cellarMountDone ok) s = .next s))) ∧
  (∀ (s : State) (src : Nat), SetUpHeard s src →
    let asked : State → Prop := fun t =>
      (s.boot.writing = true → t = { s with boot := { s.boot with rstPending := true } }) ∧
      (s.boot.writing = false → s.power.flush = none → t.power.flush = some 4 ∧ t.power.afterFlush = 1 ∧ t.flights = [] ∧ t.power.rails = s.power.rails)
    exec (.glbSetupClose src) s = .next { s with boot := { s.boot with setupClosed := true } } ∧
    (s.boot.rstPending = true → (∀ key, exec (.rstCtrlModule src key) s = .next s) ∧ exec .mctpModuleReset s = .next s) ∧
    (s.boot.rstPending = false → (∀ key, key ≠ 0xA5 → exec (.rstCtrlModule src key) s = .next (s.lockVio src 0x28)) ∧
      Answers (.rstCtrlModule src 0xA5) s asked ∧ (s.pathOpen .mctp = true → Answers .mctpModuleReset s asked)) ∧
    (s.pathOpen .mctp = false → exec .mctpModuleReset s = .next s) ∧
    (∀ val, Answers (.profSetFirstWord src val) s fun t => t = { s with profS := t.profS } ∧ tget 0 t.profS src = val % 2 ^ 64 ∧
      ∀ q, q ≠ src → tget 0 t.profS q = tget 0 s.profS q) ∧
    (∀ val, Answers (.profSetSubmit src val) s fun t =>
      let beat := tget 0 s.profS src
      let held := (List.range 16).any fun w => s.wingSt w != .disabled
      t = { s with profS := t.profS, boot := t.boot, beat := t.beat } ∧ tget 0 t.profS src = 0 ∧ t.boot.profile = s.boot.profile ∧
      (held = true → t.boot.profStat = Status.busy.code ∧ t.beat = s.beat) ∧
      (held = false → (∀ st, s.beatRefusal beat = some st → t.boot.profStat = st.code ∧ t.beat = s.beat) ∧
        (BeatFree s beat →
          (s.boot.profTarget.isSome = true → t.boot.profStat = Status.busy.code ∧ t.beat = s.beat) ∧
          (s.boot.profTarget = none → s.profFits (val % 4) = false → t.boot.profStat = Status.noResource.code ∧ t.beat = s.beat) ∧
          (s.boot.profTarget = none → s.profFits (val % 4) = true → t.boot.profStat = Status.enablePending.code ∧
            t.boot.profTarget = some (val % 4, beat) ∧ t.beat.sched = s.beat.sched ++ [{ beat, kind := .profile (val % 4) }]))))) ∧
  (∀ s : State, (s.boot.hkImage = none → exec .hkWatchdogExpiry s = .next s) ∧
    (s.boot.hkImage.isSome = true → s.cyc ≤ roundUp (s.boot.hkFrom + 1500000 * bits (s.reg 0x2018) 15 0) 1500 →
      exec .hkWatchdogExpiry s = .next s.useFree) ∧
    (s.boot.hkImage.isSome = true → Answers .hkWatchdogExpiry s fun t =>
      (s.cyc ≤ s.hkWdogAt → t = s.useFree) ∧
      (s.hkWdogAt < s.cyc → t.boot = { s.boot with hkImage := s.boot.startImage, hkFrom := s.cyc } ∧
        t.counter 0x2068 = min (s.counter 0x2068 + 1) (2 ^ 64 - 1) ∧
        (s.mgmtWaits = [] → t = { s with boot := t.boot, live := t.live, logs := t.logs, logLost := t.logLost, fresh := t.fresh }))))

/-- R481 to R484: firmware. The return codes are the model's (PRESUMED). -/
def Obligations.FirmwareIsTransferred : Prop :=
  (∀ (s : State) (path : MPath) (action : FwAction) (slot off : Nat) (data : Bytes) (online : Bool),
    (s.fwHeard path = false → exec (.getFwInfo path) s = .next s ∧ exec (.transferFw path action slot off data) s = .next s ∧
      exec (.activateFw path online slot) s = .next s) ∧
    (s.fwHeard path = true → carriesMem 0 path = false → exec (.getFwInfo path) s = .next (s.answer path 0x200 false []) ∧
      exec (.transferFw path action slot off data) s = .next (s.answer path 0x201 false []) ∧
      exec (.activateFw path online slot) s = .next (s.answer path 0x202 false [])) ∧
    (s.fwHeard path = true → carriesMem 0 path = true →
      exec (.getFwInfo path) s = .next (s.answer path 0x200 true [1, 1, 1, imageVersion s.boot.hkImage]) ∧
      (slot ≠ 1 ∨ s.boot.startImage = none → exec (.activateFw path online slot) s = .next (s.answer path 0x202 false [fwBadSlot])) ∧
      (slot = 1 → s.boot.startImage ≠ none → Answers (.activateFw path online slot) s fun t =>
        t.boot = (if online = true ∧ s.boot.hkImage.isSome = true then { s.boot with hkImage := s.boot.startImage, hkFrom := s.cyc } else s.boot)) ∧
      (slot = 1 → s.boot.startImage ≠ none → s.mgmtWaits = [] → exec (.activateFw path online slot) s = .next
        ({ s with boot := if online = true ∧ s.boot.hkImage.isSome = true then { s.boot with hkImage := s.boot.startImage, hkFrom := s.cyc }
           else s.boot }.answer path 0x202 true [])) ∧
      (slot ≠ 1 → exec (.transferFw path action slot off data) s = .next (s.answer path 0x201 false [fwBadSlot])) ∧
      (s.boot.writing = true → exec (.transferFw path action 1 off data) s = .next (s.answer path 0x201 false [fwBusy])) ∧
      (s.boot.writing = false →
        let good : Nat → Prop := fun o => data.length % 128 = 0 ∧ o % 128 = 0 ∧ o + data.length ≤ 33554432
        let old := slice (s.boot.staging.getD []) 0 off ++ data
        let next := s.boot.xfer = true ∧ s.boot.xferOff ≤ off
        let whole : Bytes → State → Prop := fun img t => t.out = s.out ++ [.mgmt path 0x201 (imageOk img) (if imageOk img = true then [] else [fwBadImage])] ∧
          t = { s with boot := t.boot, out := t.out } ∧ t.boot.xfer = false ∧ t.boot.hkImage = s.boot.hkImage ∧ t.boot.phase = s.boot.phase ∧
          (imageOk img = true → t.boot.writing = true ∧ t.boot.stagingOk = true ∧ t.boot.staging = some img ∧ t.boot.bootArea = none) ∧
          (imageOk img = false → t.boot.writing = false ∧ t.boot.stagingOk = false ∧ t.boot.staging = none ∧ t.boot.bootArea = s.boot.bootArea)
        (good off → exec (.transferFw path .initiate 1 off data) s = .next ({ s with boot := { s.boot with
          staging := some (slice [] 0 off ++ data), xfer := true, xferOff := off + data.length, stagingOk := false } }.answer path 0x201 true [])) ∧
        (¬ good off → Answers (.transferFw path .initiate 1 off data) s fun t => t.boot.staging = none ∧
          t.out = s.out ++ [.mgmt path 0x201 false [fwInvalidInput]]) ∧
        (next → good off → exec (.transferFw path .continue 1 off data) s = .next ({ s with boot := { s.boot with
          staging := some old, xfer := true, xferOff := off + data.length, stagingOk := false } }.answer path 0x201 true [])) ∧
        (next → ¬ good off → exec (.transferFw path .continue 1 off data) s = .next (s.answer path 0x201 false [fwInvalidInput]) ∧
          exec (.transferFw path .finish 1 off data) s = .next (s.answer path 0x201 false [fwInvalidInput])) ∧
        (¬ next → exec (.transferFw path .continue 1 off data) s = .next (s.answer path 0x201 false [fwOutOfOrder]) ∧
          exec (.transferFw path .finish 1 off data) s = .next (s.answer path 0x201 false [fwOutOfOrder])) ∧
        (next → good off → Answers (.transferFw path .finish 1 off data) s (whole old)) ∧
        (good 0 → Answers (.transferFw path .full 1 off data) s (whole data)) ∧
        (s.boot.xfer = false → exec (.transferFw path .abort 1 off data) s = .next (s.answer path 0x201 false [fwOutOfOrder])) ∧
        (s.boot.xfer = true → Answers (.transferFw path .abort 1 off data) s fun t => t.boot.staging = none ∧ t.boot.xfer = false ∧
          t.out = s.out ++ [.mgmt path 0x201 true []])))) ∧
  (∀ s : State, (s.boot.writing = false → exec .bootAreaWriteDone s = .next s) ∧
    (s.boot.writing = true → Answers .bootAreaWriteDone s fun t => t.boot.writing = false ∧ t.boot.bootArea = s.boot.staging ∧
      (s.boot.rstPending = false → (s.mgmtWaits = [] → t = { s with boot := t.boot }) ∧
        (s.boot.noImage = true → s.boot.phase = 2 → t.boot.phase = 3 ∧ t.boot.hkImage = s.boot.staging ∧ t.boot.hkFrom = s.cyc) ∧
        (s.boot.noImage = false ∨ s.boot.phase ≠ 2 → t.boot.phase = s.boot.phase ∧ t.boot.hkImage = s.boot.hkImage)) ∧
      (s.boot.rstPending = true → s.power.flush = none → t.boot.rstPending = false ∧ t.power.flush = some 4 ∧ t.power.afterFlush = 1 ∧ t.flights = [])))

/-- R489 to R492: attestation. Codes and layouts are the model's (log 10). -/
def Obligations.RequestersAreAttested : Prop :=
  (∀ (s : State) (path : MPath) (slot off len index : Nat) (nonce : Bytes) (signed : Bool),
    ∀ e ∈ [(Instr.getVersion path, 0x84, 0), (.getCapabilities path, 0xE1, 1), (.negotiateAlgorithms path, 0xE3, 2), (.getDigests path, 0x81, 3),
      (.getCertificate path slot off len, 0x82, 3), (.challenge path nonce, 0x83, 3), (.getMeasurements path index signed, 0xE0, 3)],
    (s.pathOpen path = false → exec e.1 s = .next s) ∧
    (s.pathOpen path = true → spdmKey path = none → exec e.1 s = .next (s.answer path e.2.1 false [])) ∧
    (∀ k, s.pathOpen path = true → spdmKey path = some k → (tget {} s.spdm k).level < e.2.2 →
      exec e.1 s = .next (s.answer path e.2.1 false [spdmUnexpected])) ∧
    (∀ k, s.pathOpen path = true → spdmKey path = some k → e.2.2 ≤ (tget {} s.spdm k).level → Answers e.1 s fun t =>
      (∀ j, j ≠ k → tget {} t.spdm j = tget {} s.spdm j) ∧ t.regs = s.regs ∧ t.boot = s.boot ∧
      (tget {} t.spdm k).transcript = (if e.2.1 = 0x84 then [] else (tget {} s.spdm k).transcript) ++ [e.2.1])) ∧
  (∀ (s : State) (path : MPath) (k : Nat), s.pathOpen path = true → spdmKey path = some k →
    let x := tget {} s.spdm k
    let tells : State → Nat → Bool → List Nat → Prop := fun t code ok l => t.out = s.out ++ [.mgmt path code ok l] ∧ t.signings = s.signings
    Answers (.getVersion path) s (fun t => tells t 0x84 true [0x12, 0x13] ∧ tget {} t.spdm k = { version := true, transcript := [0x84] }) ∧
    (1 ≤ x.level → Answers (.getCapabilities path) s fun t => tells t 0xE1 true [1, 1, 1, 0] ∧ (tget {} t.spdm k).caps = true) ∧
    (2 ≤ x.level → Answers (.negotiateAlgorithms path) s fun t => tells t 0xE3 true [0, 1, 256] ∧ (tget {} t.spdm k).algs = true) ∧
    (x.level = 3 →
      Answers (.getDigests path) s (fun t => if Config.certChain = [] then tells t 0x81 true [0] else tells t 0x81 true [1, Config.sha3 Config.certChain]) ∧
      (∀ slot off len, Answers (.getCertificate path slot off len) s fun t =>
        if Config.certChain = [] then tells t 0x82 false [spdmUnspecified]
        else if slot ≠ 0 ∨ Config.certChain.length ≤ off then tells t 0x82 false [spdmInvalid]
        else tells t 0x82 true (((Config.certChain.drop off).take len).map fun b => b.toNat)) ∧
      (∀ nonce, Answers (.challenge path nonce) s fun t => t.signings = s.signings ++ [.spdm path 0x83 nonce []] ∧ t.out = s.out) ∧
      (∀ index signed, Answers (.getMeasurements path index signed) s fun t =>
        let fields := if index = 0 then [5] else if index = 255 then ([1, 2, 3, 4, 5].map s.measurement).flatten else s.measurement index
        (fields = [] → tells t 0xE0 false [spdmInvalid]) ∧
        (fields ≠ [] → signed = true → t.signings = s.signings ++ [.spdm path 0xE0 [] fields] ∧ t.out = s.out) ∧
        (fields ≠ [] → signed = false → tells t 0xE0 true fields)))) ∧
  (∀ s : State, (s.signings = [] → exec .spdmSignDone s = .next s) ∧
    (∀ p l, s.signings = .identProof p :: l → Answers .spdmSignDone s fun t => t.signings = l ∧
      ((s.bp p).link ∈ [LinkSt.ident, .up] → (s.bp p).nonceRx ≠ [] → Sends s t p { blankFrame with
        typ := 4, payload := slice (Config.mldsaSign (identText (s.bp p).nonceRx (natLe (s.bp p).nonceTx 32) (s.bp p).epoch)) 0 2420 }) ∧
      ((s.bp p).link ∉ [LinkSt.ident, .up] ∨ (s.bp p).nonceRx = [] → t = { s with signings := l })) ∧
    (∀ path code nonce fields l, s.signings = .spdm path code nonce fields :: l → Answers .spdmSignDone s fun t =>
      t = { s with signings := l, out := t.out } ∧ ∃ sig, t.out = s.out ++ [.mgmt path code true (fields ++ [sig])] ∧
        sig = leNat (Config.mldsaSign (signText (tget {} s.spdm ((spdmKey path).getD 0)) nonce fields))))

/-- R495, R496, R500, R505 to R508: errors and recovery. -/
def Obligations.ErrorsAreMetAndRecovered : Prop :=
  (∀ (s : State) (src stack : Nat) (hk : Bool), 
    (hk = true → s.boot.hkImage.isSome = true ∧ s.power.rails = .good ∧ s.err.fatal = false) → (hk = false → SetUpHeard s src) →
    let turned := s.err.busy.isSome = true
    (turned ∨ isCompute stack = false → exec (.stackRecover src stack hk) s = .next (if hk = true then s else s.lockVio src 0x2010)) ∧
    (¬ turned → isCompute stack = true → Answers (.stackRecover src stack hk) s fun t => t.err.lastResult = 1 ∧ t.err.busy = none ∧ t.regs = s.regs ∧
      ((∀ o ∈ s.stkQueue (stack / 3), o.opcode ≠ 0) → t.stkQueue (stack / 3) = [] ∧
        ((tget [] s.logs 1).length < 256 → { code := 0x0A, unit := stack } ∈ tget [] t.logs 1) ∧ (∀ e ∈ t.unitQ, e.1 / 64 ≠ stack / 3) ∧
        t.owedRefreshes (stack / 3) = 0 ∧ (∀ i, i ≠ stack / 3 → ∀ o ∈ t.stkQueue i, o ∈ s.stkQueue i) ∧
        ∀ o ∈ s.stkQueue (stack / 3), ∀ fid f, o.fid = some fid → s.flight? fid = some f → f.phase ≠ .done → Completed t fid .aborted 0 0))) ∧
  (∀ (s : State) (src ch : Nat) (hk : Bool), 
    (hk = true → s.boot.hkImage.isSome = true ∧ s.power.rails = .good ∧ s.err.fatal = false) → (hk = false → SetUpHeard s src) →
    (s.err.busy.isSome = true ∨ 32 ≤ ch → exec (.channelRecover src ch hk) s = .next (if hk = true then s else s.lockVio src 0x2010)) ∧
    (s.err.busy = none → ch < 32 → Answers (.channelRecover src ch hk) s fun t => t.err.busy = some (2, ch) ∧ ch ∈ t.cellar.chanDown ∧
      t.regs = s.regs ∧ t.cellar.map = s.cellar.map ∧ ∀ o ∈ t.cellar.ops, o.block.isSome = true → o.chan = ch → o.running = false)) ∧
  (∀ (s : State) (ch : Nat) (ok : Bool),
    (ch ∉ s.cellar.chanDown ∨ s.err.fatal = true → exec (.channelTrainDone ch ok) s = .next s) ∧
    (ch ∈ s.cellar.chanDown → s.err.fatal = false → Answers (.channelTrainDone ch ok) s fun t => ch ∉ t.cellar.chanDown ∧ t.err.busy = none ∧
      t.err.lastResult = (if ok = true then 1 else 2) ∧ t.regs = s.regs ∧ (∀ i, i ≠ ch → (i ∈ t.cellar.chanDown ↔ i ∈ s.cellar.chanDown)) ∧
      (ok = true → ch ∉ t.cellar.chanOff ∧ t = { s with cellar := t.cellar, err := t.err }) ∧
      (ok = false → ch ∈ t.cellar.chanOff ∧ ((tget [] s.logs 2).length < 256 → { code := 0x0C, unit := ch } ∈ tget [] t.logs 2)))) ∧
  (∀ (s : State) (src val : Nat), SetUpHeard s src →
    (s.boot.setupClosed = true → exec (.errInjectArm src val) s = .next (if val &&& 0xF03 = s.reg 0x2020 then s else s.lockVio src 0x2020)) ∧
    (s.boot.setupClosed = false → bits val 1 0 = 3 → exec (.errInjectArm src val) s = .next (s.lockVio src 0x2020)) ∧
    (s.boot.setupClosed = false → bits val 1 0 ≠ 3 → Answers (.errInjectArm src val) s fun t => t = { s with regs := t.regs, err := t.err } ∧
      t.reg 0x2020 = val &&& 0xF03 ∧ (∀ o, o ≠ 0x2020 → t.reg o = s.reg o) ∧ t.err = { s.err with armed := s.err.armed || bit val 2 })) ∧
  (∀ (s : State) (src w val : Nat), WingHeard s src w →
    let old := s.reg (wngReg w 0x3808)
    let starts := bit val 4 = true ∧ bit old 4 = false
    let ok := 6 ≤ bits val 3 0 ∧ bits val 3 0 ≤ 12 ∧ (bit old 4 = true → bits val 3 0 = bits old 3 0) ∧ (starts → s.granted (bits val 10 8) w = true)
    (¬ ok → exec (.wngErrEnable src w val) s = .next (s.lockVio src (wngReg w 0x3808))) ∧
    (ok → Answers (.wngErrEnable src w val) s fun t => t = { s with regs := t.regs, errRings := t.errRings } ∧
      t.reg (wngReg w 0x3808) = val &&& regMask (wngReg w 0x3808) ∧
      (starts → t.reg (wngReg w 0x3810) = 0 ∧ tget {} t.errRings w = {}) ∧ (¬ starts → t.errRings = s.errRings) ∧
      ∀ o, o ≠ wngReg w 0x3808 → o ≠ wngReg w 0x3810 → t.reg o = s.reg o)) ∧
  (∀ (s : State) (line : ScrubLine) (ecc : LineEcc), let runs := s.power.rails = .good ∧ s.err.fatal = false
    (¬ runs → exec (.patrolScrub line ecc) s = .next s) ∧
    (runs →
      (∀ i, line = .internal i → Answers (.patrolScrub line ecc) s fun t => t = { s with live := t.live } ∧
        (i < 12 → t.counter (stkReg i 0x50) = min (s.counter (stkReg i 0x50) + 1) (2 ^ 64 - 1))) ∧
      (∀ w a, line = .range w a → (s.page w (a / pageSize)).resident = true → (s.rangeAt w (a / pageSize)).isSome = true →
        (∀ k, s.pageRegion w (a / pageSize) = some k → (s.region k).st ≠ .opened) → Answers (.patrolScrub line ecc) s fun t =>
          t.frmBad = (if ecc = .uncorrectable then insertNew s.frmBad (lineKey w (a / 64 * 64)) else s.frmBad) ∧ t.frm = s.frm ∧ t.regs = s.regs) ∧
      (∀ w h l c, line = .coll w h l → tfind s.colls (w * 65536 + h) = some c → s.anyOpen (c.partRegions (64 * l / 2 ^ 48)) = false →
        c.defn.inCellar (64 * l / 2 ^ 48) = false → Answers (.patrolScrub line ecc) s fun t =>
          ∃ c', tfind t.colls (w * 65536 + h) = some c' ∧ c'.bad = (if ecc = .uncorrectable then insertNew c.bad l else c.bad) ∧ c'.mem = c.mem) ∧
      (∀ w h l e, line = .sess w h l → tfind s.sessions (w * 65536 + h) = some e → Answers (.patrolScrub line ecc) s fun t =>
          ∃ e', tfind t.sessions (w * 65536 + h) = some e' ∧ e'.bad = (if ecc = .uncorrectable then insertNew e.bad l else e.bad)) ∧
      (∀ w h l e, line = .emb w h l → tfind s.embs (w * 65536 + h) = some e → s.anyOpen e.regions = false → Answers (.patrolScrub line ecc) s fun t =>
          ∃ e', tfind t.embs (w * 65536 + h) = some e' ∧ e'.bad = (if ecc = .uncorrectable then insertNew e.bad l else e.bad) ∧ e'.mem = e.mem) ∧
      (∀ b a, line = .store b a → (s.brick b).st ≠ .running → Answers (.patrolScrub line ecc) s fun t =>
          (t.brick b).bad = (if ecc = .uncorrectable then insertNew (s.brick b).bad (a / 64) else (s.brick b).bad) ∧ (t.brick b).st = (s.brick b).st) ∧
      (line = .hub → Answers (.patrolScrub line ecc) s fun t => (ecc = .uncorrectable → t.err.fatal = true ∧ t.err.fatalCause = 2) ∧
        (ecc ≠ .uncorrectable → t = { s with live := t.live })))) ∧
  (∀ (s : State) (cause : Nat), let stops := s.power.rails = .good ∧ s.err.fatal = false ∧ 1 ≤ cause ∧ cause ≤ 3
    (¬ stops → exec (.fatalStop cause) s = .next s) ∧
    (stops → Answers (.fatalStop cause) s fun t => t.err.fatal = true ∧ t.err.fatalCause = cause ∧ t.reqs = [] ∧ t.stkOps = [] ∧ t.memWaits = [] ∧
      t.accesses = [] ∧ t.transit = [] ∧ (s.cellar.st ≠ .mounting → t.cellar.closed = true ∧ t.cellar.cause = 0) ∧ t.regs = s.regs ∧
      ((tget [] s.logs 3).length < 256 → { code := 0x0D, unit := 0 } ∈ tget [] t.logs 3) ∧
      ∀ fid f, s.flight? fid = some f → f.phase ≠ .done → Completed t fid .aborted 0 0))

/-- The frame of work: what no descriptor, unit, frame or host access changes. -/
def Obligations.WorkKeepsSetUp : Prop :=
  ∀ (c : Instr) (s t : State), touchesSetup c = false → exec c s = .next t →
    t.regs = s.regs ∧ t.lowHeld = s.lowHeld ∧ t.captures = s.captures ∧ t.profS = s.profS ∧ t.peek = s.peek ∧ t.regionSel = s.regionSel ∧
    t.msixTab = s.msixTab ∧ t.wings = s.wings ∧ t.power = s.power ∧ t.boot = s.boot ∧ t.link = s.link ∧ t.cyc = s.cyc ∧ t.pending = s.pending ∧
    t.beat = { s.beat with sched := t.beat.sched }
end

