-- ==== Sys2Proof/Laws/State.lean ====
section
/-!
SUPPORT. One lemma for each field under each update of the state: what the shared updates leave alone, and what `within` keeps.
-/
namespace Sys2Proof.Machine
open Sys2Proof

variable (s t : State)


@[simp] theorem State.emit_cyc (o : Out) : (s.emit o).cyc = s.cyc := rfl
@[simp] theorem State.emit_beat (o : Out) : (s.emit o).beat = s.beat := rfl
@[simp] theorem State.emit_regs (o : Out) : (s.emit o).regs = s.regs := rfl
@[simp] theorem State.emit_live (o : Out) : (s.emit o).live = s.live := rfl
@[simp] theorem State.emit_snap (o : Out) : (s.emit o).snap = s.snap := rfl
@[simp] theorem State.emit_lowHeld (o : Out) : (s.emit o).lowHeld = s.lowHeld := rfl
@[simp] theorem State.emit_captures (o : Out) : (s.emit o).captures = s.captures := rfl
@[simp] theorem State.emit_profS (o : Out) : (s.emit o).profS = s.profS := rfl
@[simp] theorem State.emit_setAt (o : Out) : (s.emit o).setAt = s.setAt := rfl
@[simp] theorem State.emit_peek (o : Out) : (s.emit o).peek = s.peek := rfl
@[simp] theorem State.emit_regionSel (o : Out) : (s.emit o).regionSel = s.regionSel := rfl
@[simp] theorem State.emit_msixTab (o : Out) : (s.emit o).msixTab = s.msixTab := rfl
@[simp] theorem State.emit_msixPend (o : Out) : (s.emit o).msixPend = s.msixPend := rfl
@[simp] theorem State.emit_wingNow (o : Out) : (s.emit o).wingNow = s.wingNow := rfl
@[simp] theorem State.emit_wingLast (o : Out) : (s.emit o).wingLast = s.wingLast := rfl
@[simp] theorem State.emit_wings (o : Out) : (s.emit o).wings = s.wings := rfl
@[simp] theorem State.emit_sqs (o : Out) : (s.emit o).sqs = s.sqs := rfl
@[simp] theorem State.emit_cqs (o : Out) : (s.emit o).cqs = s.cqs := rfl
@[simp] theorem State.emit_flights (o : Out) : (s.emit o).flights = s.flights := rfl
@[simp] theorem State.emit_nextId (o : Out) : (s.emit o).nextId = s.nextId := rfl
@[simp] theorem State.emit_stamp (o : Out) : (s.emit o).stamp = s.stamp := rfl
@[simp] theorem State.emit_rotWing (o : Out) : (s.emit o).rotWing = s.rotWing := rfl
@[simp] theorem State.emit_rotRing (o : Out) : (s.emit o).rotRing = s.rotRing := rfl
@[simp] theorem State.emit_meters (o : Out) : (s.emit o).meters = s.meters := rfl
@[simp] theorem State.emit_polTicks (o : Out) : (s.emit o).polTicks = s.polTicks := rfl
@[simp] theorem State.emit_bwTicks (o : Out) : (s.emit o).bwTicks = s.bwTicks := rfl
@[simp] theorem State.emit_errRings (o : Out) : (s.emit o).errRings = s.errRings := rfl
@[simp] theorem State.emit_colls (o : Out) : (s.emit o).colls = s.colls := rfl
@[simp] theorem State.emit_mirrors (o : Out) : (s.emit o).mirrors = s.mirrors := rfl
@[simp] theorem State.emit_reqs (o : Out) : (s.emit o).reqs = s.reqs := rfl
@[simp] theorem State.emit_sessions (o : Out) : (s.emit o).sessions = s.sessions := rfl
@[simp] theorem State.emit_bricks (o : Out) : (s.emit o).bricks = s.bricks := rfl
@[simp] theorem State.emit_progs (o : Out) : (s.emit o).progs = s.progs := rfl
@[simp] theorem State.emit_transit (o : Out) : (s.emit o).transit = s.transit := rfl
@[simp] theorem State.emit_vocabs (o : Out) : (s.emit o).vocabs = s.vocabs := rfl
@[simp] theorem State.emit_streams (o : Out) : (s.emit o).streams = s.streams := rfl
@[simp] theorem State.emit_ranges (o : Out) : (s.emit o).ranges = s.ranges := rfl
@[simp] theorem State.emit_pages (o : Out) : (s.emit o).pages = s.pages := rfl
@[simp] theorem State.emit_frm (o : Out) : (s.emit o).frm = s.frm := rfl
@[simp] theorem State.emit_low (o : Out) : (s.emit o).low = s.low := rfl
@[simp] theorem State.emit_frmBad (o : Out) : (s.emit o).frmBad = s.frmBad := rfl
@[simp] theorem State.emit_lowBad (o : Out) : (s.emit o).lowBad = s.lowBad := rfl
@[simp] theorem State.emit_intFloor (o : Out) : (s.emit o).intFloor = s.intFloor := rfl
@[simp] theorem State.emit_frames (o : Out) : (s.emit o).frames = s.frames := rfl
@[simp] theorem State.emit_intCellar (o : Out) : (s.emit o).intCellar = s.intCellar := rfl
@[simp] theorem State.emit_accesses (o : Out) : (s.emit o).accesses = s.accesses := rfl
@[simp] theorem State.emit_memWaits (o : Out) : (s.emit o).memWaits = s.memWaits := rfl
@[simp] theorem State.emit_mgmtWaits (o : Out) : (s.emit o).mgmtWaits = s.mgmtWaits := rfl
@[simp] theorem State.emit_pins (o : Out) : (s.emit o).pins = s.pins := rfl
@[simp] theorem State.emit_regions (o : Out) : (s.emit o).regions = s.regions := rfl
@[simp] theorem State.emit_stkOps (o : Out) : (s.emit o).stkOps = s.stkOps := rfl
@[simp] theorem State.emit_regionJobs (o : Out) : (s.emit o).regionJobs = s.regionJobs := rfl
@[simp] theorem State.emit_unitQ (o : Out) : (s.emit o).unitQ = s.unitQ := rfl
@[simp] theorem State.emit_debt (o : Out) : (s.emit o).debt = s.debt := rfl
@[simp] theorem State.emit_sliceEnd (o : Out) : (s.emit o).sliceEnd = s.sliceEnd := rfl
@[simp] theorem State.emit_refreshAt (o : Out) : (s.emit o).refreshAt = s.refreshAt := rfl
@[simp] theorem State.emit_refreshTill (o : Out) : (s.emit o).refreshTill = s.refreshTill := rfl
@[simp] theorem State.emit_embs (o : Out) : (s.emit o).embs = s.embs := rfl
@[simp] theorem State.emit_prefRows (o : Out) : (s.emit o).prefRows = s.prefRows := rfl
@[simp] theorem State.emit_embFrames (o : Out) : (s.emit o).embFrames = s.embFrames := rfl
@[simp] theorem State.emit_embJobs (o : Out) : (s.emit o).embJobs = s.embJobs := rfl
@[simp] theorem State.emit_cellar (o : Out) : (s.emit o).cellar = s.cellar := rfl
@[simp] theorem State.emit_link (o : Out) : (s.emit o).link = s.link := rfl
@[simp] theorem State.emit_ports (o : Out) : (s.emit o).ports = s.ports := rfl
@[simp] theorem State.emit_dir (o : Out) : (s.emit o).dir = s.dir := rfl
@[simp] theorem State.emit_dirMost (o : Out) : (s.emit o).dirMost = s.dirMost := rfl
@[simp] theorem State.emit_snoops (o : Out) : (s.emit o).snoops = s.snoops := rfl
@[simp] theorem State.emit_handovers (o : Out) : (s.emit o).handovers = s.handovers := rfl
@[simp] theorem State.emit_logs (o : Out) : (s.emit o).logs = s.logs := rfl
@[simp] theorem State.emit_logLost (o : Out) : (s.emit o).logLost = s.logLost := rfl
@[simp] theorem State.emit_bps (o : Out) : (s.emit o).bps = s.bps := rfl
@[simp] theorem State.emit_power (o : Out) : (s.emit o).power = s.power := rfl
@[simp] theorem State.emit_boot (o : Out) : (s.emit o).boot = s.boot := rfl
@[simp] theorem State.emit_spdm (o : Out) : (s.emit o).spdm = s.spdm := rfl
@[simp] theorem State.emit_signings (o : Out) : (s.emit o).signings = s.signings := rfl
@[simp] theorem State.emit_err (o : Out) : (s.emit o).err = s.err := rfl
@[simp] theorem State.emit_fresh (o : Out) : (s.emit o).fresh = s.fresh := rfl
@[simp] theorem State.emit_pending (o : Out) : (s.emit o).pending = s.pending := rfl

@[simp] theorem State.useFree_cyc : (s.useFree).cyc = s.cyc := rfl
@[simp] theorem State.useFree_beat : (s.useFree).beat = s.beat := rfl
@[simp] theorem State.useFree_regs : (s.useFree).regs = s.regs := rfl
@[simp] theorem State.useFree_live : (s.useFree).live = s.live := rfl
@[simp] theorem State.useFree_snap : (s.useFree).snap = s.snap := rfl
@[simp] theorem State.useFree_lowHeld : (s.useFree).lowHeld = s.lowHeld := rfl
@[simp] theorem State.useFree_captures : (s.useFree).captures = s.captures := rfl
@[simp] theorem State.useFree_profS : (s.useFree).profS = s.profS := rfl
@[simp] theorem State.useFree_setAt : (s.useFree).setAt = s.setAt := rfl
@[simp] theorem State.useFree_peek : (s.useFree).peek = s.peek := rfl
@[simp] theorem State.useFree_regionSel : (s.useFree).regionSel = s.regionSel := rfl
@[simp] theorem State.useFree_msixTab : (s.useFree).msixTab = s.msixTab := rfl
@[simp] theorem State.useFree_msixPend : (s.useFree).msixPend = s.msixPend := rfl
@[simp] theorem State.useFree_wingNow : (s.useFree).wingNow = s.wingNow := rfl
@[simp] theorem State.useFree_wingLast : (s.useFree).wingLast = s.wingLast := rfl
@[simp] theorem State.useFree_wings : (s.useFree).wings = s.wings := rfl
@[simp] theorem State.useFree_sqs : (s.useFree).sqs = s.sqs := rfl
@[simp] theorem State.useFree_cqs : (s.useFree).cqs = s.cqs := rfl
@[simp] theorem State.useFree_flights : (s.useFree).flights = s.flights := rfl
@[simp] theorem State.useFree_nextId : (s.useFree).nextId = s.nextId := rfl
@[simp] theorem State.useFree_stamp : (s.useFree).stamp = s.stamp := rfl
@[simp] theorem State.useFree_rotWing : (s.useFree).rotWing = s.rotWing := rfl
@[simp] theorem State.useFree_rotRing : (s.useFree).rotRing = s.rotRing := rfl
@[simp] theorem State.useFree_meters : (s.useFree).meters = s.meters := rfl
@[simp] theorem State.useFree_polTicks : (s.useFree).polTicks = s.polTicks := rfl
@[simp] theorem State.useFree_bwTicks : (s.useFree).bwTicks = s.bwTicks := rfl
@[simp] theorem State.useFree_errRings : (s.useFree).errRings = s.errRings := rfl
@[simp] theorem State.useFree_colls : (s.useFree).colls = s.colls := rfl
@[simp] theorem State.useFree_mirrors : (s.useFree).mirrors = s.mirrors := rfl
@[simp] theorem State.useFree_reqs : (s.useFree).reqs = s.reqs := rfl
@[simp] theorem State.useFree_sessions : (s.useFree).sessions = s.sessions := rfl
@[simp] theorem State.useFree_bricks : (s.useFree).bricks = s.bricks := rfl
@[simp] theorem State.useFree_progs : (s.useFree).progs = s.progs := rfl
@[simp] theorem State.useFree_transit : (s.useFree).transit = s.transit := rfl
@[simp] theorem State.useFree_vocabs : (s.useFree).vocabs = s.vocabs := rfl
@[simp] theorem State.useFree_streams : (s.useFree).streams = s.streams := rfl
@[simp] theorem State.useFree_ranges : (s.useFree).ranges = s.ranges := rfl
@[simp] theorem State.useFree_pages : (s.useFree).pages = s.pages := rfl
@[simp] theorem State.useFree_frm : (s.useFree).frm = s.frm := rfl
@[simp] theorem State.useFree_low : (s.useFree).low = s.low := rfl
@[simp] theorem State.useFree_frmBad : (s.useFree).frmBad = s.frmBad := rfl
@[simp] theorem State.useFree_lowBad : (s.useFree).lowBad = s.lowBad := rfl
@[simp] theorem State.useFree_intFloor : (s.useFree).intFloor = s.intFloor := rfl
@[simp] theorem State.useFree_frames : (s.useFree).frames = s.frames := rfl
@[simp] theorem State.useFree_intCellar : (s.useFree).intCellar = s.intCellar := rfl
@[simp] theorem State.useFree_accesses : (s.useFree).accesses = s.accesses := rfl
@[simp] theorem State.useFree_memWaits : (s.useFree).memWaits = s.memWaits := rfl
@[simp] theorem State.useFree_mgmtWaits : (s.useFree).mgmtWaits = s.mgmtWaits := rfl
@[simp] theorem State.useFree_pins : (s.useFree).pins = s.pins := rfl
@[simp] theorem State.useFree_regions : (s.useFree).regions = s.regions := rfl
@[simp] theorem State.useFree_stkOps : (s.useFree).stkOps = s.stkOps := rfl
@[simp] theorem State.useFree_regionJobs : (s.useFree).regionJobs = s.regionJobs := rfl
@[simp] theorem State.useFree_unitQ : (s.useFree).unitQ = s.unitQ := rfl
@[simp] theorem State.useFree_debt : (s.useFree).debt = s.debt := rfl
@[simp] theorem State.useFree_sliceEnd : (s.useFree).sliceEnd = s.sliceEnd := rfl
@[simp] theorem State.useFree_refreshAt : (s.useFree).refreshAt = s.refreshAt := rfl
@[simp] theorem State.useFree_refreshTill : (s.useFree).refreshTill = s.refreshTill := rfl
@[simp] theorem State.useFree_embs : (s.useFree).embs = s.embs := rfl
@[simp] theorem State.useFree_prefRows : (s.useFree).prefRows = s.prefRows := rfl
@[simp] theorem State.useFree_embFrames : (s.useFree).embFrames = s.embFrames := rfl
@[simp] theorem State.useFree_embJobs : (s.useFree).embJobs = s.embJobs := rfl
@[simp] theorem State.useFree_cellar : (s.useFree).cellar = s.cellar := rfl
@[simp] theorem State.useFree_link : (s.useFree).link = s.link := rfl
@[simp] theorem State.useFree_ports : (s.useFree).ports = s.ports := rfl
@[simp] theorem State.useFree_dir : (s.useFree).dir = s.dir := rfl
@[simp] theorem State.useFree_dirMost : (s.useFree).dirMost = s.dirMost := rfl
@[simp] theorem State.useFree_snoops : (s.useFree).snoops = s.snoops := rfl
@[simp] theorem State.useFree_handovers : (s.useFree).handovers = s.handovers := rfl
@[simp] theorem State.useFree_logs : (s.useFree).logs = s.logs := rfl
@[simp] theorem State.useFree_logLost : (s.useFree).logLost = s.logLost := rfl
@[simp] theorem State.useFree_bps : (s.useFree).bps = s.bps := rfl
@[simp] theorem State.useFree_power : (s.useFree).power = s.power := rfl
@[simp] theorem State.useFree_boot : (s.useFree).boot = s.boot := rfl
@[simp] theorem State.useFree_spdm : (s.useFree).spdm = s.spdm := rfl
@[simp] theorem State.useFree_signings : (s.useFree).signings = s.signings := rfl
@[simp] theorem State.useFree_err : (s.useFree).err = s.err := rfl
@[simp] theorem State.useFree_out : (s.useFree).out = s.out := rfl
@[simp] theorem State.useFree_pending : (s.useFree).pending = s.pending := rfl

@[simp] theorem State.setReg_cyc (a v : Nat) : (s.setReg a v).cyc = s.cyc := rfl
@[simp] theorem State.setReg_beat (a v : Nat) : (s.setReg a v).beat = s.beat := rfl
@[simp] theorem State.setReg_live (a v : Nat) : (s.setReg a v).live = s.live := rfl
@[simp] theorem State.setReg_snap (a v : Nat) : (s.setReg a v).snap = s.snap := rfl
@[simp] theorem State.setReg_lowHeld (a v : Nat) : (s.setReg a v).lowHeld = s.lowHeld := rfl
@[simp] theorem State.setReg_captures (a v : Nat) : (s.setReg a v).captures = s.captures := rfl
@[simp] theorem State.setReg_profS (a v : Nat) : (s.setReg a v).profS = s.profS := rfl
@[simp] theorem State.setReg_setAt (a v : Nat) : (s.setReg a v).setAt = s.setAt := rfl
@[simp] theorem State.setReg_peek (a v : Nat) : (s.setReg a v).peek = s.peek := rfl
@[simp] theorem State.setReg_regionSel (a v : Nat) : (s.setReg a v).regionSel = s.regionSel := rfl
@[simp] theorem State.setReg_msixTab (a v : Nat) : (s.setReg a v).msixTab = s.msixTab := rfl
@[simp] theorem State.setReg_msixPend (a v : Nat) : (s.setReg a v).msixPend = s.msixPend := rfl
@[simp] theorem State.setReg_wingNow (a v : Nat) : (s.setReg a v).wingNow = s.wingNow := rfl
@[simp] theorem State.setReg_wingLast (a v : Nat) : (s.setReg a v).wingLast = s.wingLast := rfl
@[simp] theorem State.setReg_wings (a v : Nat) : (s.setReg a v).wings = s.wings := rfl
@[simp] theorem State.setReg_sqs (a v : Nat) : (s.setReg a v).sqs = s.sqs := rfl
@[simp] theorem State.setReg_cqs (a v : Nat) : (s.setReg a v).cqs = s.cqs := rfl
@[simp] theorem State.setReg_flights (a v : Nat) : (s.setReg a v).flights = s.flights := rfl
@[simp] theorem State.setReg_nextId (a v : Nat) : (s.setReg a v).nextId = s.nextId := rfl
@[simp] theorem State.setReg_stamp (a v : Nat) : (s.setReg a v).stamp = s.stamp := rfl
@[simp] theorem State.setReg_rotWing (a v : Nat) : (s.setReg a v).rotWing = s.rotWing := rfl
@[simp] theorem State.setReg_rotRing (a v : Nat) : (s.setReg a v).rotRing = s.rotRing := rfl
@[simp] theorem State.setReg_meters (a v : Nat) : (s.setReg a v).meters = s.meters := rfl
@[simp] theorem State.setReg_polTicks (a v : Nat) : (s.setReg a v).polTicks = s.polTicks := rfl
@[simp] theorem State.setReg_bwTicks (a v : Nat) : (s.setReg a v).bwTicks = s.bwTicks := rfl
@[simp] theorem State.setReg_errRings (a v : Nat) : (s.setReg a v).errRings = s.errRings := rfl
@[simp] theorem State.setReg_colls (a v : Nat) : (s.setReg a v).colls = s.colls := rfl
@[simp] theorem State.setReg_mirrors (a v : Nat) : (s.setReg a v).mirrors = s.mirrors := rfl
@[simp] theorem State.setReg_reqs (a v : Nat) : (s.setReg a v).reqs = s.reqs := rfl
@[simp] theorem State.setReg_sessions (a v : Nat) : (s.setReg a v).sessions = s.sessions := rfl
@[simp] theorem State.setReg_bricks (a v : Nat) : (s.setReg a v).bricks = s.bricks := rfl
@[simp] theorem State.setReg_progs (a v : Nat) : (s.setReg a v).progs = s.progs := rfl
@[simp] theorem State.setReg_transit (a v : Nat) : (s.setReg a v).transit = s.transit := rfl
@[simp] theorem State.setReg_vocabs (a v : Nat) : (s.setReg a v).vocabs = s.vocabs := rfl
@[simp] theorem State.setReg_streams (a v : Nat) : (s.setReg a v).streams = s.streams := rfl
@[simp] theorem State.setReg_ranges (a v : Nat) : (s.setReg a v).ranges = s.ranges := rfl
@[simp] theorem State.setReg_pages (a v : Nat) : (s.setReg a v).pages = s.pages := rfl
@[simp] theorem State.setReg_frm (a v : Nat) : (s.setReg a v).frm = s.frm := rfl
@[simp] theorem State.setReg_low (a v : Nat) : (s.setReg a v).low = s.low := rfl
@[simp] theorem State.setReg_frmBad (a v : Nat) : (s.setReg a v).frmBad = s.frmBad := rfl
@[simp] theorem State.setReg_lowBad (a v : Nat) : (s.setReg a v).lowBad = s.lowBad := rfl
@[simp] theorem State.setReg_intFloor (a v : Nat) : (s.setReg a v).intFloor = s.intFloor := rfl
@[simp] theorem State.setReg_frames (a v : Nat) : (s.setReg a v).frames = s.frames := rfl
@[simp] theorem State.setReg_intCellar (a v : Nat) : (s.setReg a v).intCellar = s.intCellar := rfl
@[simp] theorem State.setReg_accesses (a v : Nat) : (s.setReg a v).accesses = s.accesses := rfl
@[simp] theorem State.setReg_memWaits (a v : Nat) : (s.setReg a v).memWaits = s.memWaits := rfl
@[simp] theorem State.setReg_mgmtWaits (a v : Nat) : (s.setReg a v).mgmtWaits = s.mgmtWaits := rfl
@[simp] theorem State.setReg_pins (a v : Nat) : (s.setReg a v).pins = s.pins := rfl
@[simp] theorem State.setReg_regions (a v : Nat) : (s.setReg a v).regions = s.regions := rfl
@[simp] theorem State.setReg_stkOps (a v : Nat) : (s.setReg a v).stkOps = s.stkOps := rfl
@[simp] theorem State.setReg_regionJobs (a v : Nat) : (s.setReg a v).regionJobs = s.regionJobs := rfl
@[simp] theorem State.setReg_unitQ (a v : Nat) : (s.setReg a v).unitQ = s.unitQ := rfl
@[simp] theorem State.setReg_debt (a v : Nat) : (s.setReg a v).debt = s.debt := rfl
@[simp] theorem State.setReg_sliceEnd (a v : Nat) : (s.setReg a v).sliceEnd = s.sliceEnd := rfl
@[simp] theorem State.setReg_refreshAt (a v : Nat) : (s.setReg a v).refreshAt = s.refreshAt := rfl
@[simp] theorem State.setReg_refreshTill (a v : Nat) : (s.setReg a v).refreshTill = s.refreshTill := rfl
@[simp] theorem State.setReg_embs (a v : Nat) : (s.setReg a v).embs = s.embs := rfl
@[simp] theorem State.setReg_prefRows (a v : Nat) : (s.setReg a v).prefRows = s.prefRows := rfl
@[simp] theorem State.setReg_embFrames (a v : Nat) : (s.setReg a v).embFrames = s.embFrames := rfl
@[simp] theorem State.setReg_embJobs (a v : Nat) : (s.setReg a v).embJobs = s.embJobs := rfl
@[simp] theorem State.setReg_cellar (a v : Nat) : (s.setReg a v).cellar = s.cellar := rfl
@[simp] theorem State.setReg_link (a v : Nat) : (s.setReg a v).link = s.link := rfl
@[simp] theorem State.setReg_ports (a v : Nat) : (s.setReg a v).ports = s.ports := rfl
@[simp] theorem State.setReg_dir (a v : Nat) : (s.setReg a v).dir = s.dir := rfl
@[simp] theorem State.setReg_dirMost (a v : Nat) : (s.setReg a v).dirMost = s.dirMost := rfl
@[simp] theorem State.setReg_snoops (a v : Nat) : (s.setReg a v).snoops = s.snoops := rfl
@[simp] theorem State.setReg_handovers (a v : Nat) : (s.setReg a v).handovers = s.handovers := rfl
@[simp] theorem State.setReg_logs (a v : Nat) : (s.setReg a v).logs = s.logs := rfl
@[simp] theorem State.setReg_logLost (a v : Nat) : (s.setReg a v).logLost = s.logLost := rfl
@[simp] theorem State.setReg_bps (a v : Nat) : (s.setReg a v).bps = s.bps := rfl
@[simp] theorem State.setReg_power (a v : Nat) : (s.setReg a v).power = s.power := rfl
@[simp] theorem State.setReg_boot (a v : Nat) : (s.setReg a v).boot = s.boot := rfl
@[simp] theorem State.setReg_spdm (a v : Nat) : (s.setReg a v).spdm = s.spdm := rfl
@[simp] theorem State.setReg_signings (a v : Nat) : (s.setReg a v).signings = s.signings := rfl
@[simp] theorem State.setReg_err (a v : Nat) : (s.setReg a v).err = s.err := rfl
@[simp] theorem State.setReg_out (a v : Nat) : (s.setReg a v).out = s.out := rfl
@[simp] theorem State.setReg_fresh (a v : Nat) : (s.setReg a v).fresh = s.fresh := rfl
@[simp] theorem State.setReg_pending (a v : Nat) : (s.setReg a v).pending = s.pending := rfl

@[simp] theorem State.bumpBy_cyc (a n : Nat) : (s.bumpBy a n).cyc = s.cyc := rfl
@[simp] theorem State.bumpBy_beat (a n : Nat) : (s.bumpBy a n).beat = s.beat := rfl
@[simp] theorem State.bumpBy_regs (a n : Nat) : (s.bumpBy a n).regs = s.regs := rfl
@[simp] theorem State.bumpBy_snap (a n : Nat) : (s.bumpBy a n).snap = s.snap := rfl
@[simp] theorem State.bumpBy_lowHeld (a n : Nat) : (s.bumpBy a n).lowHeld = s.lowHeld := rfl
@[simp] theorem State.bumpBy_captures (a n : Nat) : (s.bumpBy a n).captures = s.captures := rfl
@[simp] theorem State.bumpBy_profS (a n : Nat) : (s.bumpBy a n).profS = s.profS := rfl
@[simp] theorem State.bumpBy_setAt (a n : Nat) : (s.bumpBy a n).setAt = s.setAt := rfl
@[simp] theorem State.bumpBy_peek (a n : Nat) : (s.bumpBy a n).peek = s.peek := rfl
@[simp] theorem State.bumpBy_regionSel (a n : Nat) : (s.bumpBy a n).regionSel = s.regionSel := rfl
@[simp] theorem State.bumpBy_msixTab (a n : Nat) : (s.bumpBy a n).msixTab = s.msixTab := rfl
@[simp] theorem State.bumpBy_msixPend (a n : Nat) : (s.bumpBy a n).msixPend = s.msixPend := rfl
@[simp] theorem State.bumpBy_wingNow (a n : Nat) : (s.bumpBy a n).wingNow = s.wingNow := rfl
@[simp] theorem State.bumpBy_wingLast (a n : Nat) : (s.bumpBy a n).wingLast = s.wingLast := rfl
@[simp] theorem State.bumpBy_wings (a n : Nat) : (s.bumpBy a n).wings = s.wings := rfl
@[simp] theorem State.bumpBy_sqs (a n : Nat) : (s.bumpBy a n).sqs = s.sqs := rfl
@[simp] theorem State.bumpBy_cqs (a n : Nat) : (s.bumpBy a n).cqs = s.cqs := rfl
@[simp] theorem State.bumpBy_flights (a n : Nat) : (s.bumpBy a n).flights = s.flights := rfl
@[simp] theorem State.bumpBy_nextId (a n : Nat) : (s.bumpBy a n).nextId = s.nextId := rfl
@[simp] theorem State.bumpBy_stamp (a n : Nat) : (s.bumpBy a n).stamp = s.stamp := rfl
@[simp] theorem State.bumpBy_rotWing (a n : Nat) : (s.bumpBy a n).rotWing = s.rotWing := rfl
@[simp] theorem State.bumpBy_rotRing (a n : Nat) : (s.bumpBy a n).rotRing = s.rotRing := rfl
@[simp] theorem State.bumpBy_meters (a n : Nat) : (s.bumpBy a n).meters = s.meters := rfl
@[simp] theorem State.bumpBy_polTicks (a n : Nat) : (s.bumpBy a n).polTicks = s.polTicks := rfl
@[simp] theorem State.bumpBy_bwTicks (a n : Nat) : (s.bumpBy a n).bwTicks = s.bwTicks := rfl
@[simp] theorem State.bumpBy_errRings (a n : Nat) : (s.bumpBy a n).errRings = s.errRings := rfl
@[simp] theorem State.bumpBy_colls (a n : Nat) : (s.bumpBy a n).colls = s.colls := rfl
@[simp] theorem State.bumpBy_mirrors (a n : Nat) : (s.bumpBy a n).mirrors = s.mirrors := rfl
@[simp] theorem State.bumpBy_reqs (a n : Nat) : (s.bumpBy a n).reqs = s.reqs := rfl
@[simp] theorem State.bumpBy_sessions (a n : Nat) : (s.bumpBy a n).sessions = s.sessions := rfl
@[simp] theorem State.bumpBy_bricks (a n : Nat) : (s.bumpBy a n).bricks = s.bricks := rfl
@[simp] theorem State.bumpBy_progs (a n : Nat) : (s.bumpBy a n).progs = s.progs := rfl
@[simp] theorem State.bumpBy_transit (a n : Nat) : (s.bumpBy a n).transit = s.transit := rfl
@[simp] theorem State.bumpBy_vocabs (a n : Nat) : (s.bumpBy a n).vocabs = s.vocabs := rfl
@[simp] theorem State.bumpBy_streams (a n : Nat) : (s.bumpBy a n).streams = s.streams := rfl
@[simp] theorem State.bumpBy_ranges (a n : Nat) : (s.bumpBy a n).ranges = s.ranges := rfl
@[simp] theorem State.bumpBy_pages (a n : Nat) : (s.bumpBy a n).pages = s.pages := rfl
@[simp] theorem State.bumpBy_frm (a n : Nat) : (s.bumpBy a n).frm = s.frm := rfl
@[simp] theorem State.bumpBy_low (a n : Nat) : (s.bumpBy a n).low = s.low := rfl
@[simp] theorem State.bumpBy_frmBad (a n : Nat) : (s.bumpBy a n).frmBad = s.frmBad := rfl
@[simp] theorem State.bumpBy_lowBad (a n : Nat) : (s.bumpBy a n).lowBad = s.lowBad := rfl
@[simp] theorem State.bumpBy_intFloor (a n : Nat) : (s.bumpBy a n).intFloor = s.intFloor := rfl
@[simp] theorem State.bumpBy_frames (a n : Nat) : (s.bumpBy a n).frames = s.frames := rfl
@[simp] theorem State.bumpBy_intCellar (a n : Nat) : (s.bumpBy a n).intCellar = s.intCellar := rfl
@[simp] theorem State.bumpBy_accesses (a n : Nat) : (s.bumpBy a n).accesses = s.accesses := rfl
@[simp] theorem State.bumpBy_memWaits (a n : Nat) : (s.bumpBy a n).memWaits = s.memWaits := rfl
@[simp] theorem State.bumpBy_mgmtWaits (a n : Nat) : (s.bumpBy a n).mgmtWaits = s.mgmtWaits := rfl
@[simp] theorem State.bumpBy_pins (a n : Nat) : (s.bumpBy a n).pins = s.pins := rfl
@[simp] theorem State.bumpBy_regions (a n : Nat) : (s.bumpBy a n).regions = s.regions := rfl
@[simp] theorem State.bumpBy_stkOps (a n : Nat) : (s.bumpBy a n).stkOps = s.stkOps := rfl
@[simp] theorem State.bumpBy_regionJobs (a n : Nat) : (s.bumpBy a n).regionJobs = s.regionJobs := rfl
@[simp] theorem State.bumpBy_unitQ (a n : Nat) : (s.bumpBy a n).unitQ = s.unitQ := rfl
@[simp] theorem State.bumpBy_debt (a n : Nat) : (s.bumpBy a n).debt = s.debt := rfl
@[simp] theorem State.bumpBy_sliceEnd (a n : Nat) : (s.bumpBy a n).sliceEnd = s.sliceEnd := rfl
@[simp] theorem State.bumpBy_refreshAt (a n : Nat) : (s.bumpBy a n).refreshAt = s.refreshAt := rfl
@[simp] theorem State.bumpBy_refreshTill (a n : Nat) : (s.bumpBy a n).refreshTill = s.refreshTill := rfl
@[simp] theorem State.bumpBy_embs (a n : Nat) : (s.bumpBy a n).embs = s.embs := rfl
@[simp] theorem State.bumpBy_prefRows (a n : Nat) : (s.bumpBy a n).prefRows = s.prefRows := rfl
@[simp] theorem State.bumpBy_embFrames (a n : Nat) : (s.bumpBy a n).embFrames = s.embFrames := rfl
@[simp] theorem State.bumpBy_embJobs (a n : Nat) : (s.bumpBy a n).embJobs = s.embJobs := rfl
@[simp] theorem State.bumpBy_cellar (a n : Nat) : (s.bumpBy a n).cellar = s.cellar := rfl
@[simp] theorem State.bumpBy_link (a n : Nat) : (s.bumpBy a n).link = s.link := rfl
@[simp] theorem State.bumpBy_ports (a n : Nat) : (s.bumpBy a n).ports = s.ports := rfl
@[simp] theorem State.bumpBy_dir (a n : Nat) : (s.bumpBy a n).dir = s.dir := rfl
@[simp] theorem State.bumpBy_dirMost (a n : Nat) : (s.bumpBy a n).dirMost = s.dirMost := rfl
@[simp] theorem State.bumpBy_snoops (a n : Nat) : (s.bumpBy a n).snoops = s.snoops := rfl
@[simp] theorem State.bumpBy_handovers (a n : Nat) : (s.bumpBy a n).handovers = s.handovers := rfl
@[simp] theorem State.bumpBy_logs (a n : Nat) : (s.bumpBy a n).logs = s.logs := rfl
@[simp] theorem State.bumpBy_logLost (a n : Nat) : (s.bumpBy a n).logLost = s.logLost := rfl
@[simp] theorem State.bumpBy_bps (a n : Nat) : (s.bumpBy a n).bps = s.bps := rfl
@[simp] theorem State.bumpBy_power (a n : Nat) : (s.bumpBy a n).power = s.power := rfl
@[simp] theorem State.bumpBy_boot (a n : Nat) : (s.bumpBy a n).boot = s.boot := rfl
@[simp] theorem State.bumpBy_spdm (a n : Nat) : (s.bumpBy a n).spdm = s.spdm := rfl
@[simp] theorem State.bumpBy_signings (a n : Nat) : (s.bumpBy a n).signings = s.signings := rfl
@[simp] theorem State.bumpBy_err (a n : Nat) : (s.bumpBy a n).err = s.err := rfl
@[simp] theorem State.bumpBy_out (a n : Nat) : (s.bumpBy a n).out = s.out := rfl
@[simp] theorem State.bumpBy_fresh (a n : Nat) : (s.bumpBy a n).fresh = s.fresh := rfl
@[simp] theorem State.bumpBy_pending (a n : Nat) : (s.bumpBy a n).pending = s.pending := rfl

@[simp] theorem State.bump_cyc (a : Nat) : (s.bump a).cyc = s.cyc := rfl
@[simp] theorem State.bump_beat (a : Nat) : (s.bump a).beat = s.beat := rfl
@[simp] theorem State.bump_regs (a : Nat) : (s.bump a).regs = s.regs := rfl
@[simp] theorem State.bump_snap (a : Nat) : (s.bump a).snap = s.snap := rfl
@[simp] theorem State.bump_lowHeld (a : Nat) : (s.bump a).lowHeld = s.lowHeld := rfl
@[simp] theorem State.bump_captures (a : Nat) : (s.bump a).captures = s.captures := rfl
@[simp] theorem State.bump_profS (a : Nat) : (s.bump a).profS = s.profS := rfl
@[simp] theorem State.bump_setAt (a : Nat) : (s.bump a).setAt = s.setAt := rfl
@[simp] theorem State.bump_peek (a : Nat) : (s.bump a).peek = s.peek := rfl
@[simp] theorem State.bump_regionSel (a : Nat) : (s.bump a).regionSel = s.regionSel := rfl
@[simp] theorem State.bump_msixTab (a : Nat) : (s.bump a).msixTab = s.msixTab := rfl
@[simp] theorem State.bump_msixPend (a : Nat) : (s.bump a).msixPend = s.msixPend := rfl
@[simp] theorem State.bump_wingNow (a : Nat) : (s.bump a).wingNow = s.wingNow := rfl
@[simp] theorem State.bump_wingLast (a : Nat) : (s.bump a).wingLast = s.wingLast := rfl
@[simp] theorem State.bump_wings (a : Nat) : (s.bump a).wings = s.wings := rfl
@[simp] theorem State.bump_sqs (a : Nat) : (s.bump a).sqs = s.sqs := rfl
@[simp] theorem State.bump_cqs (a : Nat) : (s.bump a).cqs = s.cqs := rfl
@[simp] theorem State.bump_flights (a : Nat) : (s.bump a).flights = s.flights := rfl
@[simp] theorem State.bump_nextId (a : Nat) : (s.bump a).nextId = s.nextId := rfl
@[simp] theorem State.bump_stamp (a : Nat) : (s.bump a).stamp = s.stamp := rfl
@[simp] theorem State.bump_rotWing (a : Nat) : (s.bump a).rotWing = s.rotWing := rfl
@[simp] theorem State.bump_rotRing (a : Nat) : (s.bump a).rotRing = s.rotRing := rfl
@[simp] theorem State.bump_meters (a : Nat) : (s.bump a).meters = s.meters := rfl
@[simp] theorem State.bump_polTicks (a : Nat) : (s.bump a).polTicks = s.polTicks := rfl
@[simp] theorem State.bump_bwTicks (a : Nat) : (s.bump a).bwTicks = s.bwTicks := rfl
@[simp] theorem State.bump_errRings (a : Nat) : (s.bump a).errRings = s.errRings := rfl
@[simp] theorem State.bump_colls (a : Nat) : (s.bump a).colls = s.colls := rfl
@[simp] theorem State.bump_mirrors (a : Nat) : (s.bump a).mirrors = s.mirrors := rfl
@[simp] theorem State.bump_reqs (a : Nat) : (s.bump a).reqs = s.reqs := rfl
@[simp] theorem State.bump_sessions (a : Nat) : (s.bump a).sessions = s.sessions := rfl
@[simp] theorem State.bump_bricks (a : Nat) : (s.bump a).bricks = s.bricks := rfl
@[simp] theorem State.bump_progs (a : Nat) : (s.bump a).progs = s.progs := rfl
@[simp] theorem State.bump_transit (a : Nat) : (s.bump a).transit = s.transit := rfl
@[simp] theorem State.bump_vocabs (a : Nat) : (s.bump a).vocabs = s.vocabs := rfl
@[simp] theorem State.bump_streams (a : Nat) : (s.bump a).streams = s.streams := rfl
@[simp] theorem State.bump_ranges (a : Nat) : (s.bump a).ranges = s.ranges := rfl
@[simp] theorem State.bump_pages (a : Nat) : (s.bump a).pages = s.pages := rfl
@[simp] theorem State.bump_frm (a : Nat) : (s.bump a).frm = s.frm := rfl
@[simp] theorem State.bump_low (a : Nat) : (s.bump a).low = s.low := rfl
@[simp] theorem State.bump_frmBad (a : Nat) : (s.bump a).frmBad = s.frmBad := rfl
@[simp] theorem State.bump_lowBad (a : Nat) : (s.bump a).lowBad = s.lowBad := rfl
@[simp] theorem State.bump_intFloor (a : Nat) : (s.bump a).intFloor = s.intFloor := rfl
@[simp] theorem State.bump_frames (a : Nat) : (s.bump a).frames = s.frames := rfl
@[simp] theorem State.bump_intCellar (a : Nat) : (s.bump a).intCellar = s.intCellar := rfl
@[simp] theorem State.bump_accesses (a : Nat) : (s.bump a).accesses = s.accesses := rfl
@[simp] theorem State.bump_memWaits (a : Nat) : (s.bump a).memWaits = s.memWaits := rfl
@[simp] theorem State.bump_mgmtWaits (a : Nat) : (s.bump a).mgmtWaits = s.mgmtWaits := rfl
@[simp] theorem State.bump_pins (a : Nat) : (s.bump a).pins = s.pins := rfl
@[simp] theorem State.bump_regions (a : Nat) : (s.bump a).regions = s.regions := rfl
@[simp] theorem State.bump_stkOps (a : Nat) : (s.bump a).stkOps = s.stkOps := rfl
@[simp] theorem State.bump_regionJobs (a : Nat) : (s.bump a).regionJobs = s.regionJobs := rfl
@[simp] theorem State.bump_unitQ (a : Nat) : (s.bump a).unitQ = s.unitQ := rfl
@[simp] theorem State.bump_debt (a : Nat) : (s.bump a).debt = s.debt := rfl
@[simp] theorem State.bump_sliceEnd (a : Nat) : (s.bump a).sliceEnd = s.sliceEnd := rfl
@[simp] theorem State.bump_refreshAt (a : Nat) : (s.bump a).refreshAt = s.refreshAt := rfl
@[simp] theorem State.bump_refreshTill (a : Nat) : (s.bump a).refreshTill = s.refreshTill := rfl
@[simp] theorem State.bump_embs (a : Nat) : (s.bump a).embs = s.embs := rfl
@[simp] theorem State.bump_prefRows (a : Nat) : (s.bump a).prefRows = s.prefRows := rfl
@[simp] theorem State.bump_embFrames (a : Nat) : (s.bump a).embFrames = s.embFrames := rfl
@[simp] theorem State.bump_embJobs (a : Nat) : (s.bump a).embJobs = s.embJobs := rfl
@[simp] theorem State.bump_cellar (a : Nat) : (s.bump a).cellar = s.cellar := rfl
@[simp] theorem State.bump_link (a : Nat) : (s.bump a).link = s.link := rfl
@[simp] theorem State.bump_ports (a : Nat) : (s.bump a).ports = s.ports := rfl
@[simp] theorem State.bump_dir (a : Nat) : (s.bump a).dir = s.dir := rfl
@[simp] theorem State.bump_dirMost (a : Nat) : (s.bump a).dirMost = s.dirMost := rfl
@[simp] theorem State.bump_snoops (a : Nat) : (s.bump a).snoops = s.snoops := rfl
@[simp] theorem State.bump_handovers (a : Nat) : (s.bump a).handovers = s.handovers := rfl
@[simp] theorem State.bump_logs (a : Nat) : (s.bump a).logs = s.logs := rfl
@[simp] theorem State.bump_logLost (a : Nat) : (s.bump a).logLost = s.logLost := rfl
@[simp] theorem State.bump_bps (a : Nat) : (s.bump a).bps = s.bps := rfl
@[simp] theorem State.bump_power (a : Nat) : (s.bump a).power = s.power := rfl
@[simp] theorem State.bump_boot (a : Nat) : (s.bump a).boot = s.boot := rfl
@[simp] theorem State.bump_spdm (a : Nat) : (s.bump a).spdm = s.spdm := rfl
@[simp] theorem State.bump_signings (a : Nat) : (s.bump a).signings = s.signings := rfl
@[simp] theorem State.bump_err (a : Nat) : (s.bump a).err = s.err := rfl
@[simp] theorem State.bump_out (a : Nat) : (s.bump a).out = s.out := rfl
@[simp] theorem State.bump_fresh (a : Nat) : (s.bump a).fresh = s.fresh := rfl
@[simp] theorem State.bump_pending (a : Nat) : (s.bump a).pending = s.pending := rfl

@[simp] theorem State.setSq_cyc (w r : Nat) (x : SqSt) : (s.setSq w r x).cyc = s.cyc := rfl
@[simp] theorem State.setSq_beat (w r : Nat) (x : SqSt) : (s.setSq w r x).beat = s.beat := rfl
@[simp] theorem State.setSq_regs (w r : Nat) (x : SqSt) : (s.setSq w r x).regs = s.regs := rfl
@[simp] theorem State.setSq_live (w r : Nat) (x : SqSt) : (s.setSq w r x).live = s.live := rfl
@[simp] theorem State.setSq_snap (w r : Nat) (x : SqSt) : (s.setSq w r x).snap = s.snap := rfl
@[simp] theorem State.setSq_lowHeld (w r : Nat) (x : SqSt) : (s.setSq w r x).lowHeld = s.lowHeld := rfl
@[simp] theorem State.setSq_captures (w r : Nat) (x : SqSt) : (s.setSq w r x).captures = s.captures := rfl
@[simp] theorem State.setSq_profS (w r : Nat) (x : SqSt) : (s.setSq w r x).profS = s.profS := rfl
@[simp] theorem State.setSq_setAt (w r : Nat) (x : SqSt) : (s.setSq w r x).setAt = s.setAt := rfl
@[simp] theorem State.setSq_peek (w r : Nat) (x : SqSt) : (s.setSq w r x).peek = s.peek := rfl
@[simp] theorem State.setSq_regionSel (w r : Nat) (x : SqSt) : (s.setSq w r x).regionSel = s.regionSel := rfl
@[simp] theorem State.setSq_msixTab (w r : Nat) (x : SqSt) : (s.setSq w r x).msixTab = s.msixTab := rfl
@[simp] theorem State.setSq_msixPend (w r : Nat) (x : SqSt) : (s.setSq w r x).msixPend = s.msixPend := rfl
@[simp] theorem State.setSq_wingNow (w r : Nat) (x : SqSt) : (s.setSq w r x).wingNow = s.wingNow := rfl
@[simp] theorem State.setSq_wingLast (w r : Nat) (x : SqSt) : (s.setSq w r x).wingLast = s.wingLast := rfl
@[simp] theorem State.setSq_wings (w r : Nat) (x : SqSt) : (s.setSq w r x).wings = s.wings := rfl
@[simp] theorem State.setSq_cqs (w r : Nat) (x : SqSt) : (s.setSq w r x).cqs = s.cqs := rfl
@[simp] theorem State.setSq_flights (w r : Nat) (x : SqSt) : (s.setSq w r x).flights = s.flights := rfl
@[simp] theorem State.setSq_nextId (w r : Nat) (x : SqSt) : (s.setSq w r x).nextId = s.nextId := rfl
@[simp] theorem State.setSq_stamp (w r : Nat) (x : SqSt) : (s.setSq w r x).stamp = s.stamp := rfl
@[simp] theorem State.setSq_rotWing (w r : Nat) (x : SqSt) : (s.setSq w r x).rotWing = s.rotWing := rfl
@[simp] theorem State.setSq_rotRing (w r : Nat) (x : SqSt) : (s.setSq w r x).rotRing = s.rotRing := rfl
@[simp] theorem State.setSq_meters (w r : Nat) (x : SqSt) : (s.setSq w r x).meters = s.meters := rfl
@[simp] theorem State.setSq_polTicks (w r : Nat) (x : SqSt) : (s.setSq w r x).polTicks = s.polTicks := rfl
@[simp] theorem State.setSq_bwTicks (w r : Nat) (x : SqSt) : (s.setSq w r x).bwTicks = s.bwTicks := rfl
@[simp] theorem State.setSq_errRings (w r : Nat) (x : SqSt) : (s.setSq w r x).errRings = s.errRings := rfl
@[simp] theorem State.setSq_colls (w r : Nat) (x : SqSt) : (s.setSq w r x).colls = s.colls := rfl
@[simp] theorem State.setSq_mirrors (w r : Nat) (x : SqSt) : (s.setSq w r x).mirrors = s.mirrors := rfl
@[simp] theorem State.setSq_reqs (w r : Nat) (x : SqSt) : (s.setSq w r x).reqs = s.reqs := rfl
@[simp] theorem State.setSq_sessions (w r : Nat) (x : SqSt) : (s.setSq w r x).sessions = s.sessions := rfl
@[simp] theorem State.setSq_bricks (w r : Nat) (x : SqSt) : (s.setSq w r x).bricks = s.bricks := rfl
@[simp] theorem State.setSq_progs (w r : Nat) (x : SqSt) : (s.setSq w r x).progs = s.progs := rfl
@[simp] theorem State.setSq_transit (w r : Nat) (x : SqSt) : (s.setSq w r x).transit = s.transit := rfl
@[simp] theorem State.setSq_vocabs (w r : Nat) (x : SqSt) : (s.setSq w r x).vocabs = s.vocabs := rfl
@[simp] theorem State.setSq_streams (w r : Nat) (x : SqSt) : (s.setSq w r x).streams = s.streams := rfl
@[simp] theorem State.setSq_ranges (w r : Nat) (x : SqSt) : (s.setSq w r x).ranges = s.ranges := rfl
@[simp] theorem State.setSq_pages (w r : Nat) (x : SqSt) : (s.setSq w r x).pages = s.pages := rfl
@[simp] theorem State.setSq_frm (w r : Nat) (x : SqSt) : (s.setSq w r x).frm = s.frm := rfl
@[simp] theorem State.setSq_low (w r : Nat) (x : SqSt) : (s.setSq w r x).low = s.low := rfl
@[simp] theorem State.setSq_frmBad (w r : Nat) (x : SqSt) : (s.setSq w r x).frmBad = s.frmBad := rfl
@[simp] theorem State.setSq_lowBad (w r : Nat) (x : SqSt) : (s.setSq w r x).lowBad = s.lowBad := rfl
@[simp] theorem State.setSq_intFloor (w r : Nat) (x : SqSt) : (s.setSq w r x).intFloor = s.intFloor := rfl
@[simp] theorem State.setSq_frames (w r : Nat) (x : SqSt) : (s.setSq w r x).frames = s.frames := rfl
@[simp] theorem State.setSq_intCellar (w r : Nat) (x : SqSt) : (s.setSq w r x).intCellar = s.intCellar := rfl
@[simp] theorem State.setSq_accesses (w r : Nat) (x : SqSt) : (s.setSq w r x).accesses = s.accesses := rfl
@[simp] theorem State.setSq_memWaits (w r : Nat) (x : SqSt) : (s.setSq w r x).memWaits = s.memWaits := rfl
@[simp] theorem State.setSq_mgmtWaits (w r : Nat) (x : SqSt) : (s.setSq w r x).mgmtWaits = s.mgmtWaits := rfl
@[simp] theorem State.setSq_pins (w r : Nat) (x : SqSt) : (s.setSq w r x).pins = s.pins := rfl
@[simp] theorem State.setSq_regions (w r : Nat) (x : SqSt) : (s.setSq w r x).regions = s.regions := rfl
@[simp] theorem State.setSq_stkOps (w r : Nat) (x : SqSt) : (s.setSq w r x).stkOps = s.stkOps := rfl
@[simp] theorem State.setSq_regionJobs (w r : Nat) (x : SqSt) : (s.setSq w r x).regionJobs = s.regionJobs := rfl
@[simp] theorem State.setSq_unitQ (w r : Nat) (x : SqSt) : (s.setSq w r x).unitQ = s.unitQ := rfl
@[simp] theorem State.setSq_debt (w r : Nat) (x : SqSt) : (s.setSq w r x).debt = s.debt := rfl
@[simp] theorem State.setSq_sliceEnd (w r : Nat) (x : SqSt) : (s.setSq w r x).sliceEnd = s.sliceEnd := rfl
@[simp] theorem State.setSq_refreshAt (w r : Nat) (x : SqSt) : (s.setSq w r x).refreshAt = s.refreshAt := rfl
@[simp] theorem State.setSq_refreshTill (w r : Nat) (x : SqSt) : (s.setSq w r x).refreshTill = s.refreshTill := rfl
@[simp] theorem State.setSq_embs (w r : Nat) (x : SqSt) : (s.setSq w r x).embs = s.embs := rfl
@[simp] theorem State.setSq_prefRows (w r : Nat) (x : SqSt) : (s.setSq w r x).prefRows = s.prefRows := rfl
@[simp] theorem State.setSq_embFrames (w r : Nat) (x : SqSt) : (s.setSq w r x).embFrames = s.embFrames := rfl
@[simp] theorem State.setSq_embJobs (w r : Nat) (x : SqSt) : (s.setSq w r x).embJobs = s.embJobs := rfl
@[simp] theorem State.setSq_cellar (w r : Nat) (x : SqSt) : (s.setSq w r x).cellar = s.cellar := rfl
@[simp] theorem State.setSq_link (w r : Nat) (x : SqSt) : (s.setSq w r x).link = s.link := rfl
@[simp] theorem State.setSq_ports (w r : Nat) (x : SqSt) : (s.setSq w r x).ports = s.ports := rfl
@[simp] theorem State.setSq_dir (w r : Nat) (x : SqSt) : (s.setSq w r x).dir = s.dir := rfl
@[simp] theorem State.setSq_dirMost (w r : Nat) (x : SqSt) : (s.setSq w r x).dirMost = s.dirMost := rfl
@[simp] theorem State.setSq_snoops (w r : Nat) (x : SqSt) : (s.setSq w r x).snoops = s.snoops := rfl
@[simp] theorem State.setSq_handovers (w r : Nat) (x : SqSt) : (s.setSq w r x).handovers = s.handovers := rfl
@[simp] theorem State.setSq_logs (w r : Nat) (x : SqSt) : (s.setSq w r x).logs = s.logs := rfl
@[simp] theorem State.setSq_logLost (w r : Nat) (x : SqSt) : (s.setSq w r x).logLost = s.logLost := rfl
@[simp] theorem State.setSq_bps (w r : Nat) (x : SqSt) : (s.setSq w r x).bps = s.bps := rfl
@[simp] theorem State.setSq_power (w r : Nat) (x : SqSt) : (s.setSq w r x).power = s.power := rfl
@[simp] theorem State.setSq_boot (w r : Nat) (x : SqSt) : (s.setSq w r x).boot = s.boot := rfl
@[simp] theorem State.setSq_spdm (w r : Nat) (x : SqSt) : (s.setSq w r x).spdm = s.spdm := rfl
@[simp] theorem State.setSq_signings (w r : Nat) (x : SqSt) : (s.setSq w r x).signings = s.signings := rfl
@[simp] theorem State.setSq_err (w r : Nat) (x : SqSt) : (s.setSq w r x).err = s.err := rfl
@[simp] theorem State.setSq_out (w r : Nat) (x : SqSt) : (s.setSq w r x).out = s.out := rfl
@[simp] theorem State.setSq_fresh (w r : Nat) (x : SqSt) : (s.setSq w r x).fresh = s.fresh := rfl
@[simp] theorem State.setSq_pending (w r : Nat) (x : SqSt) : (s.setSq w r x).pending = s.pending := rfl

@[simp] theorem State.setCq_cyc (w r : Nat) (x : CqSt) : (s.setCq w r x).cyc = s.cyc := rfl
@[simp] theorem State.setCq_beat (w r : Nat) (x : CqSt) : (s.setCq w r x).beat = s.beat := rfl
@[simp] theorem State.setCq_regs (w r : Nat) (x : CqSt) : (s.setCq w r x).regs = s.regs := rfl
@[simp] theorem State.setCq_live (w r : Nat) (x : CqSt) : (s.setCq w r x).live = s.live := rfl
@[simp] theorem State.setCq_snap (w r : Nat) (x : CqSt) : (s.setCq w r x).snap = s.snap := rfl
@[simp] theorem State.setCq_lowHeld (w r : Nat) (x : CqSt) : (s.setCq w r x).lowHeld = s.lowHeld := rfl
@[simp] theorem State.setCq_captures (w r : Nat) (x : CqSt) : (s.setCq w r x).captures = s.captures := rfl
@[simp] theorem State.setCq_profS (w r : Nat) (x : CqSt) : (s.setCq w r x).profS = s.profS := rfl
@[simp] theorem State.setCq_setAt (w r : Nat) (x : CqSt) : (s.setCq w r x).setAt = s.setAt := rfl
@[simp] theorem State.setCq_peek (w r : Nat) (x : CqSt) : (s.setCq w r x).peek = s.peek := rfl
@[simp] theorem State.setCq_regionSel (w r : Nat) (x : CqSt) : (s.setCq w r x).regionSel = s.regionSel := rfl
@[simp] theorem State.setCq_msixTab (w r : Nat) (x : CqSt) : (s.setCq w r x).msixTab = s.msixTab := rfl
@[simp] theorem State.setCq_msixPend (w r : Nat) (x : CqSt) : (s.setCq w r x).msixPend = s.msixPend := rfl
@[simp] theorem State.setCq_wingNow (w r : Nat) (x : CqSt) : (s.setCq w r x).wingNow = s.wingNow := rfl
@[simp] theorem State.setCq_wingLast (w r : Nat) (x : CqSt) : (s.setCq w r x).wingLast = s.wingLast := rfl
@[simp] theorem State.setCq_wings (w r : Nat) (x : CqSt) : (s.setCq w r x).wings = s.wings := rfl
@[simp] theorem State.setCq_sqs (w r : Nat) (x : CqSt) : (s.setCq w r x).sqs = s.sqs := rfl
@[simp] theorem State.setCq_flights (w r : Nat) (x : CqSt) : (s.setCq w r x).flights = s.flights := rfl
@[simp] theorem State.setCq_nextId (w r : Nat) (x : CqSt) : (s.setCq w r x).nextId = s.nextId := rfl
@[simp] theorem State.setCq_stamp (w r : Nat) (x : CqSt) : (s.setCq w r x).stamp = s.stamp := rfl
@[simp] theorem State.setCq_rotWing (w r : Nat) (x : CqSt) : (s.setCq w r x).rotWing = s.rotWing := rfl
@[simp] theorem State.setCq_rotRing (w r : Nat) (x : CqSt) : (s.setCq w r x).rotRing = s.rotRing := rfl
@[simp] theorem State.setCq_meters (w r : Nat) (x : CqSt) : (s.setCq w r x).meters = s.meters := rfl
@[simp] theorem State.setCq_polTicks (w r : Nat) (x : CqSt) : (s.setCq w r x).polTicks = s.polTicks := rfl
@[simp] theorem State.setCq_bwTicks (w r : Nat) (x : CqSt) : (s.setCq w r x).bwTicks = s.bwTicks := rfl
@[simp] theorem State.setCq_errRings (w r : Nat) (x : CqSt) : (s.setCq w r x).errRings = s.errRings := rfl
@[simp] theorem State.setCq_colls (w r : Nat) (x : CqSt) : (s.setCq w r x).colls = s.colls := rfl
@[simp] theorem State.setCq_mirrors (w r : Nat) (x : CqSt) : (s.setCq w r x).mirrors = s.mirrors := rfl
@[simp] theorem State.setCq_reqs (w r : Nat) (x : CqSt) : (s.setCq w r x).reqs = s.reqs := rfl
@[simp] theorem State.setCq_sessions (w r : Nat) (x : CqSt) : (s.setCq w r x).sessions = s.sessions := rfl
@[simp] theorem State.setCq_bricks (w r : Nat) (x : CqSt) : (s.setCq w r x).bricks = s.bricks := rfl
@[simp] theorem State.setCq_progs (w r : Nat) (x : CqSt) : (s.setCq w r x).progs = s.progs := rfl
@[simp] theorem State.setCq_transit (w r : Nat) (x : CqSt) : (s.setCq w r x).transit = s.transit := rfl
@[simp] theorem State.setCq_vocabs (w r : Nat) (x : CqSt) : (s.setCq w r x).vocabs = s.vocabs := rfl
@[simp] theorem State.setCq_streams (w r : Nat) (x : CqSt) : (s.setCq w r x).streams = s.streams := rfl
@[simp] theorem State.setCq_ranges (w r : Nat) (x : CqSt) : (s.setCq w r x).ranges = s.ranges := rfl
@[simp] theorem State.setCq_pages (w r : Nat) (x : CqSt) : (s.setCq w r x).pages = s.pages := rfl
@[simp] theorem State.setCq_frm (w r : Nat) (x : CqSt) : (s.setCq w r x).frm = s.frm := rfl
@[simp] theorem State.setCq_low (w r : Nat) (x : CqSt) : (s.setCq w r x).low = s.low := rfl
@[simp] theorem State.setCq_frmBad (w r : Nat) (x : CqSt) : (s.setCq w r x).frmBad = s.frmBad := rfl
@[simp] theorem State.setCq_lowBad (w r : Nat) (x : CqSt) : (s.setCq w r x).lowBad = s.lowBad := rfl
@[simp] theorem State.setCq_intFloor (w r : Nat) (x : CqSt) : (s.setCq w r x).intFloor = s.intFloor := rfl
@[simp] theorem State.setCq_frames (w r : Nat) (x : CqSt) : (s.setCq w r x).frames = s.frames := rfl
@[simp] theorem State.setCq_intCellar (w r : Nat) (x : CqSt) : (s.setCq w r x).intCellar = s.intCellar := rfl
@[simp] theorem State.setCq_accesses (w r : Nat) (x : CqSt) : (s.setCq w r x).accesses = s.accesses := rfl
@[simp] theorem State.setCq_memWaits (w r : Nat) (x : CqSt) : (s.setCq w r x).memWaits = s.memWaits := rfl
@[simp] theorem State.setCq_mgmtWaits (w r : Nat) (x : CqSt) : (s.setCq w r x).mgmtWaits = s.mgmtWaits := rfl
@[simp] theorem State.setCq_pins (w r : Nat) (x : CqSt) : (s.setCq w r x).pins = s.pins := rfl
@[simp] theorem State.setCq_regions (w r : Nat) (x : CqSt) : (s.setCq w r x).regions = s.regions := rfl
@[simp] theorem State.setCq_stkOps (w r : Nat) (x : CqSt) : (s.setCq w r x).stkOps = s.stkOps := rfl
@[simp] theorem State.setCq_regionJobs (w r : Nat) (x : CqSt) : (s.setCq w r x).regionJobs = s.regionJobs := rfl
@[simp] theorem State.setCq_unitQ (w r : Nat) (x : CqSt) : (s.setCq w r x).unitQ = s.unitQ := rfl
@[simp] theorem State.setCq_debt (w r : Nat) (x : CqSt) : (s.setCq w r x).debt = s.debt := rfl
@[simp] theorem State.setCq_sliceEnd (w r : Nat) (x : CqSt) : (s.setCq w r x).sliceEnd = s.sliceEnd := rfl
@[simp] theorem State.setCq_refreshAt (w r : Nat) (x : CqSt) : (s.setCq w r x).refreshAt = s.refreshAt := rfl
@[simp] theorem State.setCq_refreshTill (w r : Nat) (x : CqSt) : (s.setCq w r x).refreshTill = s.refreshTill := rfl
@[simp] theorem State.setCq_embs (w r : Nat) (x : CqSt) : (s.setCq w r x).embs = s.embs := rfl
@[simp] theorem State.setCq_prefRows (w r : Nat) (x : CqSt) : (s.setCq w r x).prefRows = s.prefRows := rfl
@[simp] theorem State.setCq_embFrames (w r : Nat) (x : CqSt) : (s.setCq w r x).embFrames = s.embFrames := rfl
@[simp] theorem State.setCq_embJobs (w r : Nat) (x : CqSt) : (s.setCq w r x).embJobs = s.embJobs := rfl
@[simp] theorem State.setCq_cellar (w r : Nat) (x : CqSt) : (s.setCq w r x).cellar = s.cellar := rfl
@[simp] theorem State.setCq_link (w r : Nat) (x : CqSt) : (s.setCq w r x).link = s.link := rfl
@[simp] theorem State.setCq_ports (w r : Nat) (x : CqSt) : (s.setCq w r x).ports = s.ports := rfl
@[simp] theorem State.setCq_dir (w r : Nat) (x : CqSt) : (s.setCq w r x).dir = s.dir := rfl
@[simp] theorem State.setCq_dirMost (w r : Nat) (x : CqSt) : (s.setCq w r x).dirMost = s.dirMost := rfl
@[simp] theorem State.setCq_snoops (w r : Nat) (x : CqSt) : (s.setCq w r x).snoops = s.snoops := rfl
@[simp] theorem State.setCq_handovers (w r : Nat) (x : CqSt) : (s.setCq w r x).handovers = s.handovers := rfl
@[simp] theorem State.setCq_logs (w r : Nat) (x : CqSt) : (s.setCq w r x).logs = s.logs := rfl
@[simp] theorem State.setCq_logLost (w r : Nat) (x : CqSt) : (s.setCq w r x).logLost = s.logLost := rfl
@[simp] theorem State.setCq_bps (w r : Nat) (x : CqSt) : (s.setCq w r x).bps = s.bps := rfl
@[simp] theorem State.setCq_power (w r : Nat) (x : CqSt) : (s.setCq w r x).power = s.power := rfl
@[simp] theorem State.setCq_boot (w r : Nat) (x : CqSt) : (s.setCq w r x).boot = s.boot := rfl
@[simp] theorem State.setCq_spdm (w r : Nat) (x : CqSt) : (s.setCq w r x).spdm = s.spdm := rfl
@[simp] theorem State.setCq_signings (w r : Nat) (x : CqSt) : (s.setCq w r x).signings = s.signings := rfl
@[simp] theorem State.setCq_err (w r : Nat) (x : CqSt) : (s.setCq w r x).err = s.err := rfl
@[simp] theorem State.setCq_out (w r : Nat) (x : CqSt) : (s.setCq w r x).out = s.out := rfl
@[simp] theorem State.setCq_fresh (w r : Nat) (x : CqSt) : (s.setCq w r x).fresh = s.fresh := rfl
@[simp] theorem State.setCq_pending (w r : Nat) (x : CqSt) : (s.setCq w r x).pending = s.pending := rfl

@[simp] theorem State.setPort_cyc (p : Nat) (x : Port) : (s.setPort p x).cyc = s.cyc := rfl
@[simp] theorem State.setPort_beat (p : Nat) (x : Port) : (s.setPort p x).beat = s.beat := rfl
@[simp] theorem State.setPort_regs (p : Nat) (x : Port) : (s.setPort p x).regs = s.regs := rfl
@[simp] theorem State.setPort_live (p : Nat) (x : Port) : (s.setPort p x).live = s.live := rfl
@[simp] theorem State.setPort_snap (p : Nat) (x : Port) : (s.setPort p x).snap = s.snap := rfl
@[simp] theorem State.setPort_lowHeld (p : Nat) (x : Port) : (s.setPort p x).lowHeld = s.lowHeld := rfl
@[simp] theorem State.setPort_captures (p : Nat) (x : Port) : (s.setPort p x).captures = s.captures := rfl
@[simp] theorem State.setPort_profS (p : Nat) (x : Port) : (s.setPort p x).profS = s.profS := rfl
@[simp] theorem State.setPort_setAt (p : Nat) (x : Port) : (s.setPort p x).setAt = s.setAt := rfl
@[simp] theorem State.setPort_peek (p : Nat) (x : Port) : (s.setPort p x).peek = s.peek := rfl
@[simp] theorem State.setPort_regionSel (p : Nat) (x : Port) : (s.setPort p x).regionSel = s.regionSel := rfl
@[simp] theorem State.setPort_msixTab (p : Nat) (x : Port) : (s.setPort p x).msixTab = s.msixTab := rfl
@[simp] theorem State.setPort_msixPend (p : Nat) (x : Port) : (s.setPort p x).msixPend = s.msixPend := rfl
@[simp] theorem State.setPort_wingNow (p : Nat) (x : Port) : (s.setPort p x).wingNow = s.wingNow := rfl
@[simp] theorem State.setPort_wingLast (p : Nat) (x : Port) : (s.setPort p x).wingLast = s.wingLast := rfl
@[simp] theorem State.setPort_wings (p : Nat) (x : Port) : (s.setPort p x).wings = s.wings := rfl
@[simp] theorem State.setPort_sqs (p : Nat) (x : Port) : (s.setPort p x).sqs = s.sqs := rfl
@[simp] theorem State.setPort_cqs (p : Nat) (x : Port) : (s.setPort p x).cqs = s.cqs := rfl
@[simp] theorem State.setPort_flights (p : Nat) (x : Port) : (s.setPort p x).flights = s.flights := rfl
@[simp] theorem State.setPort_nextId (p : Nat) (x : Port) : (s.setPort p x).nextId = s.nextId := rfl
@[simp] theorem State.setPort_stamp (p : Nat) (x : Port) : (s.setPort p x).stamp = s.stamp := rfl
@[simp] theorem State.setPort_rotWing (p : Nat) (x : Port) : (s.setPort p x).rotWing = s.rotWing := rfl
@[simp] theorem State.setPort_rotRing (p : Nat) (x : Port) : (s.setPort p x).rotRing = s.rotRing := rfl
@[simp] theorem State.setPort_meters (p : Nat) (x : Port) : (s.setPort p x).meters = s.meters := rfl
@[simp] theorem State.setPort_polTicks (p : Nat) (x : Port) : (s.setPort p x).polTicks = s.polTicks := rfl
@[simp] theorem State.setPort_bwTicks (p : Nat) (x : Port) : (s.setPort p x).bwTicks = s.bwTicks := rfl
@[simp] theorem State.setPort_errRings (p : Nat) (x : Port) : (s.setPort p x).errRings = s.errRings := rfl
@[simp] theorem State.setPort_colls (p : Nat) (x : Port) : (s.setPort p x).colls = s.colls := rfl
@[simp] theorem State.setPort_mirrors (p : Nat) (x : Port) : (s.setPort p x).mirrors = s.mirrors := rfl
@[simp] theorem State.setPort_reqs (p : Nat) (x : Port) : (s.setPort p x).reqs = s.reqs := rfl
@[simp] theorem State.setPort_sessions (p : Nat) (x : Port) : (s.setPort p x).sessions = s.sessions := rfl
@[simp] theorem State.setPort_bricks (p : Nat) (x : Port) : (s.setPort p x).bricks = s.bricks := rfl
@[simp] theorem State.setPort_progs (p : Nat) (x : Port) : (s.setPort p x).progs = s.progs := rfl
@[simp] theorem State.setPort_transit (p : Nat) (x : Port) : (s.setPort p x).transit = s.transit := rfl
@[simp] theorem State.setPort_vocabs (p : Nat) (x : Port) : (s.setPort p x).vocabs = s.vocabs := rfl
@[simp] theorem State.setPort_streams (p : Nat) (x : Port) : (s.setPort p x).streams = s.streams := rfl
@[simp] theorem State.setPort_ranges (p : Nat) (x : Port) : (s.setPort p x).ranges = s.ranges := rfl
@[simp] theorem State.setPort_pages (p : Nat) (x : Port) : (s.setPort p x).pages = s.pages := rfl
@[simp] theorem State.setPort_frm (p : Nat) (x : Port) : (s.setPort p x).frm = s.frm := rfl
@[simp] theorem State.setPort_low (p : Nat) (x : Port) : (s.setPort p x).low = s.low := rfl
@[simp] theorem State.setPort_frmBad (p : Nat) (x : Port) : (s.setPort p x).frmBad = s.frmBad := rfl
@[simp] theorem State.setPort_lowBad (p : Nat) (x : Port) : (s.setPort p x).lowBad = s.lowBad := rfl
@[simp] theorem State.setPort_intFloor (p : Nat) (x : Port) : (s.setPort p x).intFloor = s.intFloor := rfl
@[simp] theorem State.setPort_frames (p : Nat) (x : Port) : (s.setPort p x).frames = s.frames := rfl
@[simp] theorem State.setPort_intCellar (p : Nat) (x : Port) : (s.setPort p x).intCellar = s.intCellar := rfl
@[simp] theorem State.setPort_accesses (p : Nat) (x : Port) : (s.setPort p x).accesses = s.accesses := rfl
@[simp] theorem State.setPort_memWaits (p : Nat) (x : Port) : (s.setPort p x).memWaits = s.memWaits := rfl
@[simp] theorem State.setPort_mgmtWaits (p : Nat) (x : Port) : (s.setPort p x).mgmtWaits = s.mgmtWaits := rfl
@[simp] theorem State.setPort_pins (p : Nat) (x : Port) : (s.setPort p x).pins = s.pins := rfl
@[simp] theorem State.setPort_regions (p : Nat) (x : Port) : (s.setPort p x).regions = s.regions := rfl
@[simp] theorem State.setPort_stkOps (p : Nat) (x : Port) : (s.setPort p x).stkOps = s.stkOps := rfl
@[simp] theorem State.setPort_regionJobs (p : Nat) (x : Port) : (s.setPort p x).regionJobs = s.regionJobs := rfl
@[simp] theorem State.setPort_unitQ (p : Nat) (x : Port) : (s.setPort p x).unitQ = s.unitQ := rfl
@[simp] theorem State.setPort_debt (p : Nat) (x : Port) : (s.setPort p x).debt = s.debt := rfl
@[simp] theorem State.setPort_sliceEnd (p : Nat) (x : Port) : (s.setPort p x).sliceEnd = s.sliceEnd := rfl
@[simp] theorem State.setPort_refreshAt (p : Nat) (x : Port) : (s.setPort p x).refreshAt = s.refreshAt := rfl
@[simp] theorem State.setPort_refreshTill (p : Nat) (x : Port) : (s.setPort p x).refreshTill = s.refreshTill := rfl
@[simp] theorem State.setPort_embs (p : Nat) (x : Port) : (s.setPort p x).embs = s.embs := rfl
@[simp] theorem State.setPort_prefRows (p : Nat) (x : Port) : (s.setPort p x).prefRows = s.prefRows := rfl
@[simp] theorem State.setPort_embFrames (p : Nat) (x : Port) : (s.setPort p x).embFrames = s.embFrames := rfl
@[simp] theorem State.setPort_embJobs (p : Nat) (x : Port) : (s.setPort p x).embJobs = s.embJobs := rfl
@[simp] theorem State.setPort_cellar (p : Nat) (x : Port) : (s.setPort p x).cellar = s.cellar := rfl
@[simp] theorem State.setPort_link (p : Nat) (x : Port) : (s.setPort p x).link = s.link := rfl
@[simp] theorem State.setPort_dir (p : Nat) (x : Port) : (s.setPort p x).dir = s.dir := rfl
@[simp] theorem State.setPort_dirMost (p : Nat) (x : Port) : (s.setPort p x).dirMost = s.dirMost := rfl
@[simp] theorem State.setPort_snoops (p : Nat) (x : Port) : (s.setPort p x).snoops = s.snoops := rfl
@[simp] theorem State.setPort_handovers (p : Nat) (x : Port) : (s.setPort p x).handovers = s.handovers := rfl
@[simp] theorem State.setPort_logs (p : Nat) (x : Port) : (s.setPort p x).logs = s.logs := rfl
@[simp] theorem State.setPort_logLost (p : Nat) (x : Port) : (s.setPort p x).logLost = s.logLost := rfl
@[simp] theorem State.setPort_bps (p : Nat) (x : Port) : (s.setPort p x).bps = s.bps := rfl
@[simp] theorem State.setPort_power (p : Nat) (x : Port) : (s.setPort p x).power = s.power := rfl
@[simp] theorem State.setPort_boot (p : Nat) (x : Port) : (s.setPort p x).boot = s.boot := rfl
@[simp] theorem State.setPort_spdm (p : Nat) (x : Port) : (s.setPort p x).spdm = s.spdm := rfl
@[simp] theorem State.setPort_signings (p : Nat) (x : Port) : (s.setPort p x).signings = s.signings := rfl
@[simp] theorem State.setPort_err (p : Nat) (x : Port) : (s.setPort p x).err = s.err := rfl
@[simp] theorem State.setPort_out (p : Nat) (x : Port) : (s.setPort p x).out = s.out := rfl
@[simp] theorem State.setPort_fresh (p : Nat) (x : Port) : (s.setPort p x).fresh = s.fresh := rfl
@[simp] theorem State.setPort_pending (p : Nat) (x : Port) : (s.setPort p x).pending = s.pending := rfl

@[simp] theorem State.setBp_cyc (p : Nat) (x : BpSt) : (s.setBp p x).cyc = s.cyc := rfl
@[simp] theorem State.setBp_beat (p : Nat) (x : BpSt) : (s.setBp p x).beat = s.beat := rfl
@[simp] theorem State.setBp_regs (p : Nat) (x : BpSt) : (s.setBp p x).regs = s.regs := rfl
@[simp] theorem State.setBp_live (p : Nat) (x : BpSt) : (s.setBp p x).live = s.live := rfl
@[simp] theorem State.setBp_snap (p : Nat) (x : BpSt) : (s.setBp p x).snap = s.snap := rfl
@[simp] theorem State.setBp_lowHeld (p : Nat) (x : BpSt) : (s.setBp p x).lowHeld = s.lowHeld := rfl
@[simp] theorem State.setBp_captures (p : Nat) (x : BpSt) : (s.setBp p x).captures = s.captures := rfl
@[simp] theorem State.setBp_profS (p : Nat) (x : BpSt) : (s.setBp p x).profS = s.profS := rfl
@[simp] theorem State.setBp_setAt (p : Nat) (x : BpSt) : (s.setBp p x).setAt = s.setAt := rfl
@[simp] theorem State.setBp_peek (p : Nat) (x : BpSt) : (s.setBp p x).peek = s.peek := rfl
@[simp] theorem State.setBp_regionSel (p : Nat) (x : BpSt) : (s.setBp p x).regionSel = s.regionSel := rfl
@[simp] theorem State.setBp_msixTab (p : Nat) (x : BpSt) : (s.setBp p x).msixTab = s.msixTab := rfl
@[simp] theorem State.setBp_msixPend (p : Nat) (x : BpSt) : (s.setBp p x).msixPend = s.msixPend := rfl
@[simp] theorem State.setBp_wingNow (p : Nat) (x : BpSt) : (s.setBp p x).wingNow = s.wingNow := rfl
@[simp] theorem State.setBp_wingLast (p : Nat) (x : BpSt) : (s.setBp p x).wingLast = s.wingLast := rfl
@[simp] theorem State.setBp_wings (p : Nat) (x : BpSt) : (s.setBp p x).wings = s.wings := rfl
@[simp] theorem State.setBp_sqs (p : Nat) (x : BpSt) : (s.setBp p x).sqs = s.sqs := rfl
@[simp] theorem State.setBp_cqs (p : Nat) (x : BpSt) : (s.setBp p x).cqs = s.cqs := rfl
@[simp] theorem State.setBp_flights (p : Nat) (x : BpSt) : (s.setBp p x).flights = s.flights := rfl
@[simp] theorem State.setBp_nextId (p : Nat) (x : BpSt) : (s.setBp p x).nextId = s.nextId := rfl
@[simp] theorem State.setBp_stamp (p : Nat) (x : BpSt) : (s.setBp p x).stamp = s.stamp := rfl
@[simp] theorem State.setBp_rotWing (p : Nat) (x : BpSt) : (s.setBp p x).rotWing = s.rotWing := rfl
@[simp] theorem State.setBp_rotRing (p : Nat) (x : BpSt) : (s.setBp p x).rotRing = s.rotRing := rfl
@[simp] theorem State.setBp_meters (p : Nat) (x : BpSt) : (s.setBp p x).meters = s.meters := rfl
@[simp] theorem State.setBp_polTicks (p : Nat) (x : BpSt) : (s.setBp p x).polTicks = s.polTicks := rfl
@[simp] theorem State.setBp_bwTicks (p : Nat) (x : BpSt) : (s.setBp p x).bwTicks = s.bwTicks := rfl
@[simp] theorem State.setBp_errRings (p : Nat) (x : BpSt) : (s.setBp p x).errRings = s.errRings := rfl
@[simp] theorem State.setBp_colls (p : Nat) (x : BpSt) : (s.setBp p x).colls = s.colls := rfl
@[simp] theorem State.setBp_mirrors (p : Nat) (x : BpSt) : (s.setBp p x).mirrors = s.mirrors := rfl
@[simp] theorem State.setBp_reqs (p : Nat) (x : BpSt) : (s.setBp p x).reqs = s.reqs := rfl
@[simp] theorem State.setBp_sessions (p : Nat) (x : BpSt) : (s.setBp p x).sessions = s.sessions := rfl
@[simp] theorem State.setBp_bricks (p : Nat) (x : BpSt) : (s.setBp p x).bricks = s.bricks := rfl
@[simp] theorem State.setBp_progs (p : Nat) (x : BpSt) : (s.setBp p x).progs = s.progs := rfl
@[simp] theorem State.setBp_transit (p : Nat) (x : BpSt) : (s.setBp p x).transit = s.transit := rfl
@[simp] theorem State.setBp_vocabs (p : Nat) (x : BpSt) : (s.setBp p x).vocabs = s.vocabs := rfl
@[simp] theorem State.setBp_streams (p : Nat) (x : BpSt) : (s.setBp p x).streams = s.streams := rfl
@[simp] theorem State.setBp_ranges (p : Nat) (x : BpSt) : (s.setBp p x).ranges = s.ranges := rfl
@[simp] theorem State.setBp_pages (p : Nat) (x : BpSt) : (s.setBp p x).pages = s.pages := rfl
@[simp] theorem State.setBp_frm (p : Nat) (x : BpSt) : (s.setBp p x).frm = s.frm := rfl
@[simp] theorem State.setBp_low (p : Nat) (x : BpSt) : (s.setBp p x).low = s.low := rfl
@[simp] theorem State.setBp_frmBad (p : Nat) (x : BpSt) : (s.setBp p x).frmBad = s.frmBad := rfl
@[simp] theorem State.setBp_lowBad (p : Nat) (x : BpSt) : (s.setBp p x).lowBad = s.lowBad := rfl
@[simp] theorem State.setBp_intFloor (p : Nat) (x : BpSt) : (s.setBp p x).intFloor = s.intFloor := rfl
@[simp] theorem State.setBp_frames (p : Nat) (x : BpSt) : (s.setBp p x).frames = s.frames := rfl
@[simp] theorem State.setBp_intCellar (p : Nat) (x : BpSt) : (s.setBp p x).intCellar = s.intCellar := rfl
@[simp] theorem State.setBp_accesses (p : Nat) (x : BpSt) : (s.setBp p x).accesses = s.accesses := rfl
@[simp] theorem State.setBp_memWaits (p : Nat) (x : BpSt) : (s.setBp p x).memWaits = s.memWaits := rfl
@[simp] theorem State.setBp_mgmtWaits (p : Nat) (x : BpSt) : (s.setBp p x).mgmtWaits = s.mgmtWaits := rfl
@[simp] theorem State.setBp_pins (p : Nat) (x : BpSt) : (s.setBp p x).pins = s.pins := rfl
@[simp] theorem State.setBp_regions (p : Nat) (x : BpSt) : (s.setBp p x).regions = s.regions := rfl
@[simp] theorem State.setBp_stkOps (p : Nat) (x : BpSt) : (s.setBp p x).stkOps = s.stkOps := rfl
@[simp] theorem State.setBp_regionJobs (p : Nat) (x : BpSt) : (s.setBp p x).regionJobs = s.regionJobs := rfl
@[simp] theorem State.setBp_unitQ (p : Nat) (x : BpSt) : (s.setBp p x).unitQ = s.unitQ := rfl
@[simp] theorem State.setBp_debt (p : Nat) (x : BpSt) : (s.setBp p x).debt = s.debt := rfl
@[simp] theorem State.setBp_sliceEnd (p : Nat) (x : BpSt) : (s.setBp p x).sliceEnd = s.sliceEnd := rfl
@[simp] theorem State.setBp_refreshAt (p : Nat) (x : BpSt) : (s.setBp p x).refreshAt = s.refreshAt := rfl
@[simp] theorem State.setBp_refreshTill (p : Nat) (x : BpSt) : (s.setBp p x).refreshTill = s.refreshTill := rfl
@[simp] theorem State.setBp_embs (p : Nat) (x : BpSt) : (s.setBp p x).embs = s.embs := rfl
@[simp] theorem State.setBp_prefRows (p : Nat) (x : BpSt) : (s.setBp p x).prefRows = s.prefRows := rfl
@[simp] theorem State.setBp_embFrames (p : Nat) (x : BpSt) : (s.setBp p x).embFrames = s.embFrames := rfl
@[simp] theorem State.setBp_embJobs (p : Nat) (x : BpSt) : (s.setBp p x).embJobs = s.embJobs := rfl
@[simp] theorem State.setBp_cellar (p : Nat) (x : BpSt) : (s.setBp p x).cellar = s.cellar := rfl
@[simp] theorem State.setBp_link (p : Nat) (x : BpSt) : (s.setBp p x).link = s.link := rfl
@[simp] theorem State.setBp_ports (p : Nat) (x : BpSt) : (s.setBp p x).ports = s.ports := rfl
@[simp] theorem State.setBp_dir (p : Nat) (x : BpSt) : (s.setBp p x).dir = s.dir := rfl
@[simp] theorem State.setBp_dirMost (p : Nat) (x : BpSt) : (s.setBp p x).dirMost = s.dirMost := rfl
@[simp] theorem State.setBp_snoops (p : Nat) (x : BpSt) : (s.setBp p x).snoops = s.snoops := rfl
@[simp] theorem State.setBp_handovers (p : Nat) (x : BpSt) : (s.setBp p x).handovers = s.handovers := rfl
@[simp] theorem State.setBp_logs (p : Nat) (x : BpSt) : (s.setBp p x).logs = s.logs := rfl
@[simp] theorem State.setBp_logLost (p : Nat) (x : BpSt) : (s.setBp p x).logLost = s.logLost := rfl
@[simp] theorem State.setBp_power (p : Nat) (x : BpSt) : (s.setBp p x).power = s.power := rfl
@[simp] theorem State.setBp_boot (p : Nat) (x : BpSt) : (s.setBp p x).boot = s.boot := rfl
@[simp] theorem State.setBp_spdm (p : Nat) (x : BpSt) : (s.setBp p x).spdm = s.spdm := rfl
@[simp] theorem State.setBp_signings (p : Nat) (x : BpSt) : (s.setBp p x).signings = s.signings := rfl
@[simp] theorem State.setBp_err (p : Nat) (x : BpSt) : (s.setBp p x).err = s.err := rfl
@[simp] theorem State.setBp_out (p : Nat) (x : BpSt) : (s.setBp p x).out = s.out := rfl
@[simp] theorem State.setBp_fresh (p : Nat) (x : BpSt) : (s.setBp p x).fresh = s.fresh := rfl
@[simp] theorem State.setBp_pending (p : Nat) (x : BpSt) : (s.setBp p x).pending = s.pending := rfl

@[simp] theorem State.modFlight_cyc (i : Nat) (g : Flight → Flight) : (s.modFlight i g).cyc = s.cyc := rfl
@[simp] theorem State.modFlight_beat (i : Nat) (g : Flight → Flight) : (s.modFlight i g).beat = s.beat := rfl
@[simp] theorem State.modFlight_regs (i : Nat) (g : Flight → Flight) : (s.modFlight i g).regs = s.regs := rfl
@[simp] theorem State.modFlight_live (i : Nat) (g : Flight → Flight) : (s.modFlight i g).live = s.live := rfl
@[simp] theorem State.modFlight_snap (i : Nat) (g : Flight → Flight) : (s.modFlight i g).snap = s.snap := rfl
@[simp] theorem State.modFlight_lowHeld (i : Nat) (g : Flight → Flight) : (s.modFlight i g).lowHeld = s.lowHeld := rfl
@[simp] theorem State.modFlight_captures (i : Nat) (g : Flight → Flight) : (s.modFlight i g).captures = s.captures := rfl
@[simp] theorem State.modFlight_profS (i : Nat) (g : Flight → Flight) : (s.modFlight i g).profS = s.profS := rfl
@[simp] theorem State.modFlight_setAt (i : Nat) (g : Flight → Flight) : (s.modFlight i g).setAt = s.setAt := rfl
@[simp] theorem State.modFlight_peek (i : Nat) (g : Flight → Flight) : (s.modFlight i g).peek = s.peek := rfl
@[simp] theorem State.modFlight_regionSel (i : Nat) (g : Flight → Flight) : (s.modFlight i g).regionSel = s.regionSel := rfl
@[simp] theorem State.modFlight_msixTab (i : Nat) (g : Flight → Flight) : (s.modFlight i g).msixTab = s.msixTab := rfl
@[simp] theorem State.modFlight_msixPend (i : Nat) (g : Flight → Flight) : (s.modFlight i g).msixPend = s.msixPend := rfl
@[simp] theorem State.modFlight_wingNow (i : Nat) (g : Flight → Flight) : (s.modFlight i g).wingNow = s.wingNow := rfl
@[simp] theorem State.modFlight_wingLast (i : Nat) (g : Flight → Flight) : (s.modFlight i g).wingLast = s.wingLast := rfl
@[simp] theorem State.modFlight_wings (i : Nat) (g : Flight → Flight) : (s.modFlight i g).wings = s.wings := rfl
@[simp] theorem State.modFlight_sqs (i : Nat) (g : Flight → Flight) : (s.modFlight i g).sqs = s.sqs := rfl
@[simp] theorem State.modFlight_cqs (i : Nat) (g : Flight → Flight) : (s.modFlight i g).cqs = s.cqs := rfl
@[simp] theorem State.modFlight_nextId (i : Nat) (g : Flight → Flight) : (s.modFlight i g).nextId = s.nextId := rfl
@[simp] theorem State.modFlight_stamp (i : Nat) (g : Flight → Flight) : (s.modFlight i g).stamp = s.stamp := rfl
@[simp] theorem State.modFlight_rotWing (i : Nat) (g : Flight → Flight) : (s.modFlight i g).rotWing = s.rotWing := rfl
@[simp] theorem State.modFlight_rotRing (i : Nat) (g : Flight → Flight) : (s.modFlight i g).rotRing = s.rotRing := rfl
@[simp] theorem State.modFlight_meters (i : Nat) (g : Flight → Flight) : (s.modFlight i g).meters = s.meters := rfl
@[simp] theorem State.modFlight_polTicks (i : Nat) (g : Flight → Flight) : (s.modFlight i g).polTicks = s.polTicks := rfl
@[simp] theorem State.modFlight_bwTicks (i : Nat) (g : Flight → Flight) : (s.modFlight i g).bwTicks = s.bwTicks := rfl
@[simp] theorem State.modFlight_errRings (i : Nat) (g : Flight → Flight) : (s.modFlight i g).errRings = s.errRings := rfl
@[simp] theorem State.modFlight_colls (i : Nat) (g : Flight → Flight) : (s.modFlight i g).colls = s.colls := rfl
@[simp] theorem State.modFlight_mirrors (i : Nat) (g : Flight → Flight) : (s.modFlight i g).mirrors = s.mirrors := rfl
@[simp] theorem State.modFlight_reqs (i : Nat) (g : Flight → Flight) : (s.modFlight i g).reqs = s.reqs := rfl
@[simp] theorem State.modFlight_sessions (i : Nat) (g : Flight → Flight) : (s.modFlight i g).sessions = s.sessions := rfl
@[simp] theorem State.modFlight_bricks (i : Nat) (g : Flight → Flight) : (s.modFlight i g).bricks = s.bricks := rfl
@[simp] theorem State.modFlight_progs (i : Nat) (g : Flight → Flight) : (s.modFlight i g).progs = s.progs := rfl
@[simp] theorem State.modFlight_transit (i : Nat) (g : Flight → Flight) : (s.modFlight i g).transit = s.transit := rfl
@[simp] theorem State.modFlight_vocabs (i : Nat) (g : Flight → Flight) : (s.modFlight i g).vocabs = s.vocabs := rfl
@[simp] theorem State.modFlight_streams (i : Nat) (g : Flight → Flight) : (s.modFlight i g).streams = s.streams := rfl
@[simp] theorem State.modFlight_ranges (i : Nat) (g : Flight → Flight) : (s.modFlight i g).ranges = s.ranges := rfl
@[simp] theorem State.modFlight_pages (i : Nat) (g : Flight → Flight) : (s.modFlight i g).pages = s.pages := rfl
@[simp] theorem State.modFlight_frm (i : Nat) (g : Flight → Flight) : (s.modFlight i g).frm = s.frm := rfl
@[simp] theorem State.modFlight_low (i : Nat) (g : Flight → Flight) : (s.modFlight i g).low = s.low := rfl
@[simp] theorem State.modFlight_frmBad (i : Nat) (g : Flight → Flight) : (s.modFlight i g).frmBad = s.frmBad := rfl
@[simp] theorem State.modFlight_lowBad (i : Nat) (g : Flight → Flight) : (s.modFlight i g).lowBad = s.lowBad := rfl
@[simp] theorem State.modFlight_intFloor (i : Nat) (g : Flight → Flight) : (s.modFlight i g).intFloor = s.intFloor := rfl
@[simp] theorem State.modFlight_frames (i : Nat) (g : Flight → Flight) : (s.modFlight i g).frames = s.frames := rfl
@[simp] theorem State.modFlight_intCellar (i : Nat) (g : Flight → Flight) : (s.modFlight i g).intCellar = s.intCellar := rfl
@[simp] theorem State.modFlight_accesses (i : Nat) (g : Flight → Flight) : (s.modFlight i g).accesses = s.accesses := rfl
@[simp] theorem State.modFlight_memWaits (i : Nat) (g : Flight → Flight) : (s.modFlight i g).memWaits = s.memWaits := rfl
@[simp] theorem State.modFlight_mgmtWaits (i : Nat) (g : Flight → Flight) : (s.modFlight i g).mgmtWaits = s.mgmtWaits := rfl
@[simp] theorem State.modFlight_pins (i : Nat) (g : Flight → Flight) : (s.modFlight i g).pins = s.pins := rfl
@[simp] theorem State.modFlight_regions (i : Nat) (g : Flight → Flight) : (s.modFlight i g).regions = s.regions := rfl
@[simp] theorem State.modFlight_stkOps (i : Nat) (g : Flight → Flight) : (s.modFlight i g).stkOps = s.stkOps := rfl
@[simp] theorem State.modFlight_regionJobs (i : Nat) (g : Flight → Flight) : (s.modFlight i g).regionJobs = s.regionJobs := rfl
@[simp] theorem State.modFlight_unitQ (i : Nat) (g : Flight → Flight) : (s.modFlight i g).unitQ = s.unitQ := rfl
@[simp] theorem State.modFlight_debt (i : Nat) (g : Flight → Flight) : (s.modFlight i g).debt = s.debt := rfl
@[simp] theorem State.modFlight_sliceEnd (i : Nat) (g : Flight → Flight) : (s.modFlight i g).sliceEnd = s.sliceEnd := rfl
@[simp] theorem State.modFlight_refreshAt (i : Nat) (g : Flight → Flight) : (s.modFlight i g).refreshAt = s.refreshAt := rfl
@[simp] theorem State.modFlight_refreshTill (i : Nat) (g : Flight → Flight) : (s.modFlight i g).refreshTill = s.refreshTill := rfl
@[simp] theorem State.modFlight_embs (i : Nat) (g : Flight → Flight) : (s.modFlight i g).embs = s.embs := rfl
@[simp] theorem State.modFlight_prefRows (i : Nat) (g : Flight → Flight) : (s.modFlight i g).prefRows = s.prefRows := rfl
@[simp] theorem State.modFlight_embFrames (i : Nat) (g : Flight → Flight) : (s.modFlight i g).embFrames = s.embFrames := rfl
@[simp] theorem State.modFlight_embJobs (i : Nat) (g : Flight → Flight) : (s.modFlight i g).embJobs = s.embJobs := rfl
@[simp] theorem State.modFlight_cellar (i : Nat) (g : Flight → Flight) : (s.modFlight i g).cellar = s.cellar := rfl
@[simp] theorem State.modFlight_link (i : Nat) (g : Flight → Flight) : (s.modFlight i g).link = s.link := rfl
@[simp] theorem State.modFlight_ports (i : Nat) (g : Flight → Flight) : (s.modFlight i g).ports = s.ports := rfl
@[simp] theorem State.modFlight_dir (i : Nat) (g : Flight → Flight) : (s.modFlight i g).dir = s.dir := rfl
@[simp] theorem State.modFlight_dirMost (i : Nat) (g : Flight → Flight) : (s.modFlight i g).dirMost = s.dirMost := rfl
@[simp] theorem State.modFlight_snoops (i : Nat) (g : Flight → Flight) : (s.modFlight i g).snoops = s.snoops := rfl
@[simp] theorem State.modFlight_handovers (i : Nat) (g : Flight → Flight) : (s.modFlight i g).handovers = s.handovers := rfl
@[simp] theorem State.modFlight_logs (i : Nat) (g : Flight → Flight) : (s.modFlight i g).logs = s.logs := rfl
@[simp] theorem State.modFlight_logLost (i : Nat) (g : Flight → Flight) : (s.modFlight i g).logLost = s.logLost := rfl
@[simp] theorem State.modFlight_bps (i : Nat) (g : Flight → Flight) : (s.modFlight i g).bps = s.bps := rfl
@[simp] theorem State.modFlight_power (i : Nat) (g : Flight → Flight) : (s.modFlight i g).power = s.power := rfl
@[simp] theorem State.modFlight_boot (i : Nat) (g : Flight → Flight) : (s.modFlight i g).boot = s.boot := rfl
@[simp] theorem State.modFlight_spdm (i : Nat) (g : Flight → Flight) : (s.modFlight i g).spdm = s.spdm := rfl
@[simp] theorem State.modFlight_signings (i : Nat) (g : Flight → Flight) : (s.modFlight i g).signings = s.signings := rfl
@[simp] theorem State.modFlight_err (i : Nat) (g : Flight → Flight) : (s.modFlight i g).err = s.err := rfl
@[simp] theorem State.modFlight_out (i : Nat) (g : Flight → Flight) : (s.modFlight i g).out = s.out := rfl
@[simp] theorem State.modFlight_fresh (i : Nat) (g : Flight → Flight) : (s.modFlight i g).fresh = s.fresh := rfl
@[simp] theorem State.modFlight_pending (i : Nat) (g : Flight → Flight) : (s.modFlight i g).pending = s.pending := rfl

@[simp] theorem State.modWingBeat_cyc (w : Nat) (g : WingBeat → WingBeat) : (s.modWingBeat w g).cyc = s.cyc := rfl
@[simp] theorem State.modWingBeat_beat (w : Nat) (g : WingBeat → WingBeat) : (s.modWingBeat w g).beat = s.beat := rfl
@[simp] theorem State.modWingBeat_regs (w : Nat) (g : WingBeat → WingBeat) : (s.modWingBeat w g).regs = s.regs := rfl
@[simp] theorem State.modWingBeat_live (w : Nat) (g : WingBeat → WingBeat) : (s.modWingBeat w g).live = s.live := rfl
@[simp] theorem State.modWingBeat_snap (w : Nat) (g : WingBeat → WingBeat) : (s.modWingBeat w g).snap = s.snap := rfl
@[simp] theorem State.modWingBeat_lowHeld (w : Nat) (g : WingBeat → WingBeat) : (s.modWingBeat w g).lowHeld = s.lowHeld := rfl
@[simp] theorem State.modWingBeat_captures (w : Nat) (g : WingBeat → WingBeat) : (s.modWingBeat w g).captures = s.captures := rfl
@[simp] theorem State.modWingBeat_profS (w : Nat) (g : WingBeat → WingBeat) : (s.modWingBeat w g).profS = s.profS := rfl
@[simp] theorem State.modWingBeat_setAt (w : Nat) (g : WingBeat → WingBeat) : (s.modWingBeat w g).setAt = s.setAt := rfl
@[simp] theorem State.modWingBeat_peek (w : Nat) (g : WingBeat → WingBeat) : (s.modWingBeat w g).peek = s.peek := rfl
@[simp] theorem State.modWingBeat_regionSel (w : Nat) (g : WingBeat → WingBeat) : (s.modWingBeat w g).regionSel = s.regionSel := rfl
@[simp] theorem State.modWingBeat_msixTab (w : Nat) (g : WingBeat → WingBeat) : (s.modWingBeat w g).msixTab = s.msixTab := rfl
@[simp] theorem State.modWingBeat_msixPend (w : Nat) (g : WingBeat → WingBeat) : (s.modWingBeat w g).msixPend = s.msixPend := rfl
@[simp] theorem State.modWingBeat_wingLast (w : Nat) (g : WingBeat → WingBeat) : (s.modWingBeat w g).wingLast = s.wingLast := rfl
@[simp] theorem State.modWingBeat_wings (w : Nat) (g : WingBeat → WingBeat) : (s.modWingBeat w g).wings = s.wings := rfl
@[simp] theorem State.modWingBeat_sqs (w : Nat) (g : WingBeat → WingBeat) : (s.modWingBeat w g).sqs = s.sqs := rfl
@[simp] theorem State.modWingBeat_cqs (w : Nat) (g : WingBeat → WingBeat) : (s.modWingBeat w g).cqs = s.cqs := rfl
@[simp] theorem State.modWingBeat_flights (w : Nat) (g : WingBeat → WingBeat) : (s.modWingBeat w g).flights = s.flights := rfl
@[simp] theorem State.modWingBeat_nextId (w : Nat) (g : WingBeat → WingBeat) : (s.modWingBeat w g).nextId = s.nextId := rfl
@[simp] theorem State.modWingBeat_stamp (w : Nat) (g : WingBeat → WingBeat) : (s.modWingBeat w g).stamp = s.stamp := rfl
@[simp] theorem State.modWingBeat_rotWing (w : Nat) (g : WingBeat → WingBeat) : (s.modWingBeat w g).rotWing = s.rotWing := rfl
@[simp] theorem State.modWingBeat_rotRing (w : Nat) (g : WingBeat → WingBeat) : (s.modWingBeat w g).rotRing = s.rotRing := rfl
@[simp] theorem State.modWingBeat_meters (w : Nat) (g : WingBeat → WingBeat) : (s.modWingBeat w g).meters = s.meters := rfl
@[simp] theorem State.modWingBeat_polTicks (w : Nat) (g : WingBeat → WingBeat) : (s.modWingBeat w g).polTicks = s.polTicks := rfl
@[simp] theorem State.modWingBeat_bwTicks (w : Nat) (g : WingBeat → WingBeat) : (s.modWingBeat w g).bwTicks = s.bwTicks := rfl
@[simp] theorem State.modWingBeat_errRings (w : Nat) (g : WingBeat → WingBeat) : (s.modWingBeat w g).errRings = s.errRings := rfl
@[simp] theorem State.modWingBeat_colls (w : Nat) (g : WingBeat → WingBeat) : (s.modWingBeat w g).colls = s.colls := rfl
@[simp] theorem State.modWingBeat_mirrors (w : Nat) (g : WingBeat → WingBeat) : (s.modWingBeat w g).mirrors = s.mirrors := rfl
@[simp] theorem State.modWingBeat_reqs (w : Nat) (g : WingBeat → WingBeat) : (s.modWingBeat w g).reqs = s.reqs := rfl
@[simp] theorem State.modWingBeat_sessions (w : Nat) (g : WingBeat → WingBeat) : (s.modWingBeat w g).sessions = s.sessions := rfl
@[simp] theorem State.modWingBeat_bricks (w : Nat) (g : WingBeat → WingBeat) : (s.modWingBeat w g).bricks = s.bricks := rfl
@[simp] theorem State.modWingBeat_progs (w : Nat) (g : WingBeat → WingBeat) : (s.modWingBeat w g).progs = s.progs := rfl
@[simp] theorem State.modWingBeat_transit (w : Nat) (g : WingBeat → WingBeat) : (s.modWingBeat w g).transit = s.transit := rfl
@[simp] theorem State.modWingBeat_vocabs (w : Nat) (g : WingBeat → WingBeat) : (s.modWingBeat w g).vocabs = s.vocabs := rfl
@[simp] theorem State.modWingBeat_streams (w : Nat) (g : WingBeat → WingBeat) : (s.modWingBeat w g).streams = s.streams := rfl
@[simp] theorem State.modWingBeat_ranges (w : Nat) (g : WingBeat → WingBeat) : (s.modWingBeat w g).ranges = s.ranges := rfl
@[simp] theorem State.modWingBeat_pages (w : Nat) (g : WingBeat → WingBeat) : (s.modWingBeat w g).pages = s.pages := rfl
@[simp] theorem State.modWingBeat_frm (w : Nat) (g : WingBeat → WingBeat) : (s.modWingBeat w g).frm = s.frm := rfl
@[simp] theorem State.modWingBeat_low (w : Nat) (g : WingBeat → WingBeat) : (s.modWingBeat w g).low = s.low := rfl
@[simp] theorem State.modWingBeat_frmBad (w : Nat) (g : WingBeat → WingBeat) : (s.modWingBeat w g).frmBad = s.frmBad := rfl
@[simp] theorem State.modWingBeat_lowBad (w : Nat) (g : WingBeat → WingBeat) : (s.modWingBeat w g).lowBad = s.lowBad := rfl
@[simp] theorem State.modWingBeat_intFloor (w : Nat) (g : WingBeat → WingBeat) : (s.modWingBeat w g).intFloor = s.intFloor := rfl
@[simp] theorem State.modWingBeat_frames (w : Nat) (g : WingBeat → WingBeat) : (s.modWingBeat w g).frames = s.frames := rfl
@[simp] theorem State.modWingBeat_intCellar (w : Nat) (g : WingBeat → WingBeat) : (s.modWingBeat w g).intCellar = s.intCellar := rfl
@[simp] theorem State.modWingBeat_accesses (w : Nat) (g : WingBeat → WingBeat) : (s.modWingBeat w g).accesses = s.accesses := rfl
@[simp] theorem State.modWingBeat_memWaits (w : Nat) (g : WingBeat → WingBeat) : (s.modWingBeat w g).memWaits = s.memWaits := rfl
@[simp] theorem State.modWingBeat_mgmtWaits (w : Nat) (g : WingBeat → WingBeat) : (s.modWingBeat w g).mgmtWaits = s.mgmtWaits := rfl
@[simp] theorem State.modWingBeat_pins (w : Nat) (g : WingBeat → WingBeat) : (s.modWingBeat w g).pins = s.pins := rfl
@[simp] theorem State.modWingBeat_regions (w : Nat) (g : WingBeat → WingBeat) : (s.modWingBeat w g).regions = s.regions := rfl
@[simp] theorem State.modWingBeat_stkOps (w : Nat) (g : WingBeat → WingBeat) : (s.modWingBeat w g).stkOps = s.stkOps := rfl
@[simp] theorem State.modWingBeat_regionJobs (w : Nat) (g : WingBeat → WingBeat) : (s.modWingBeat w g).regionJobs = s.regionJobs := rfl
@[simp] theorem State.modWingBeat_unitQ (w : Nat) (g : WingBeat → WingBeat) : (s.modWingBeat w g).unitQ = s.unitQ := rfl
@[simp] theorem State.modWingBeat_debt (w : Nat) (g : WingBeat → WingBeat) : (s.modWingBeat w g).debt = s.debt := rfl
@[simp] theorem State.modWingBeat_sliceEnd (w : Nat) (g : WingBeat → WingBeat) : (s.modWingBeat w g).sliceEnd = s.sliceEnd := rfl
@[simp] theorem State.modWingBeat_refreshAt (w : Nat) (g : WingBeat → WingBeat) : (s.modWingBeat w g).refreshAt = s.refreshAt := rfl
@[simp] theorem State.modWingBeat_refreshTill (w : Nat) (g : WingBeat → WingBeat) : (s.modWingBeat w g).refreshTill = s.refreshTill := rfl
@[simp] theorem State.modWingBeat_embs (w : Nat) (g : WingBeat → WingBeat) : (s.modWingBeat w g).embs = s.embs := rfl
@[simp] theorem State.modWingBeat_prefRows (w : Nat) (g : WingBeat → WingBeat) : (s.modWingBeat w g).prefRows = s.prefRows := rfl
@[simp] theorem State.modWingBeat_embFrames (w : Nat) (g : WingBeat → WingBeat) : (s.modWingBeat w g).embFrames = s.embFrames := rfl
@[simp] theorem State.modWingBeat_embJobs (w : Nat) (g : WingBeat → WingBeat) : (s.modWingBeat w g).embJobs = s.embJobs := rfl
@[simp] theorem State.modWingBeat_cellar (w : Nat) (g : WingBeat → WingBeat) : (s.modWingBeat w g).cellar = s.cellar := rfl
@[simp] theorem State.modWingBeat_link (w : Nat) (g : WingBeat → WingBeat) : (s.modWingBeat w g).link = s.link := rfl
@[simp] theorem State.modWingBeat_ports (w : Nat) (g : WingBeat → WingBeat) : (s.modWingBeat w g).ports = s.ports := rfl
@[simp] theorem State.modWingBeat_dir (w : Nat) (g : WingBeat → WingBeat) : (s.modWingBeat w g).dir = s.dir := rfl
@[simp] theorem State.modWingBeat_dirMost (w : Nat) (g : WingBeat → WingBeat) : (s.modWingBeat w g).dirMost = s.dirMost := rfl
@[simp] theorem State.modWingBeat_snoops (w : Nat) (g : WingBeat → WingBeat) : (s.modWingBeat w g).snoops = s.snoops := rfl
@[simp] theorem State.modWingBeat_handovers (w : Nat) (g : WingBeat → WingBeat) : (s.modWingBeat w g).handovers = s.handovers := rfl
@[simp] theorem State.modWingBeat_logs (w : Nat) (g : WingBeat → WingBeat) : (s.modWingBeat w g).logs = s.logs := rfl
@[simp] theorem State.modWingBeat_logLost (w : Nat) (g : WingBeat → WingBeat) : (s.modWingBeat w g).logLost = s.logLost := rfl
@[simp] theorem State.modWingBeat_bps (w : Nat) (g : WingBeat → WingBeat) : (s.modWingBeat w g).bps = s.bps := rfl
@[simp] theorem State.modWingBeat_power (w : Nat) (g : WingBeat → WingBeat) : (s.modWingBeat w g).power = s.power := rfl
@[simp] theorem State.modWingBeat_boot (w : Nat) (g : WingBeat → WingBeat) : (s.modWingBeat w g).boot = s.boot := rfl
@[simp] theorem State.modWingBeat_spdm (w : Nat) (g : WingBeat → WingBeat) : (s.modWingBeat w g).spdm = s.spdm := rfl
@[simp] theorem State.modWingBeat_signings (w : Nat) (g : WingBeat → WingBeat) : (s.modWingBeat w g).signings = s.signings := rfl
@[simp] theorem State.modWingBeat_err (w : Nat) (g : WingBeat → WingBeat) : (s.modWingBeat w g).err = s.err := rfl
@[simp] theorem State.modWingBeat_out (w : Nat) (g : WingBeat → WingBeat) : (s.modWingBeat w g).out = s.out := rfl
@[simp] theorem State.modWingBeat_fresh (w : Nat) (g : WingBeat → WingBeat) : (s.modWingBeat w g).fresh = s.fresh := rfl
@[simp] theorem State.modWingBeat_pending (w : Nat) (g : WingBeat → WingBeat) : (s.modWingBeat w g).pending = s.pending := rfl

@[simp] theorem State.modColl_cyc (k : Nat) (g : Coll → Coll) : (s.modColl k g).cyc = s.cyc := rfl
@[simp] theorem State.modColl_beat (k : Nat) (g : Coll → Coll) : (s.modColl k g).beat = s.beat := rfl
@[simp] theorem State.modColl_regs (k : Nat) (g : Coll → Coll) : (s.modColl k g).regs = s.regs := rfl
@[simp] theorem State.modColl_live (k : Nat) (g : Coll → Coll) : (s.modColl k g).live = s.live := rfl
@[simp] theorem State.modColl_snap (k : Nat) (g : Coll → Coll) : (s.modColl k g).snap = s.snap := rfl
@[simp] theorem State.modColl_lowHeld (k : Nat) (g : Coll → Coll) : (s.modColl k g).lowHeld = s.lowHeld := rfl
@[simp] theorem State.modColl_captures (k : Nat) (g : Coll → Coll) : (s.modColl k g).captures = s.captures := rfl
@[simp] theorem State.modColl_profS (k : Nat) (g : Coll → Coll) : (s.modColl k g).profS = s.profS := rfl
@[simp] theorem State.modColl_setAt (k : Nat) (g : Coll → Coll) : (s.modColl k g).setAt = s.setAt := rfl
@[simp] theorem State.modColl_peek (k : Nat) (g : Coll → Coll) : (s.modColl k g).peek = s.peek := rfl
@[simp] theorem State.modColl_regionSel (k : Nat) (g : Coll → Coll) : (s.modColl k g).regionSel = s.regionSel := rfl
@[simp] theorem State.modColl_msixTab (k : Nat) (g : Coll → Coll) : (s.modColl k g).msixTab = s.msixTab := rfl
@[simp] theorem State.modColl_msixPend (k : Nat) (g : Coll → Coll) : (s.modColl k g).msixPend = s.msixPend := rfl
@[simp] theorem State.modColl_wingNow (k : Nat) (g : Coll → Coll) : (s.modColl k g).wingNow = s.wingNow := rfl
@[simp] theorem State.modColl_wingLast (k : Nat) (g : Coll → Coll) : (s.modColl k g).wingLast = s.wingLast := rfl
@[simp] theorem State.modColl_wings (k : Nat) (g : Coll → Coll) : (s.modColl k g).wings = s.wings := rfl
@[simp] theorem State.modColl_sqs (k : Nat) (g : Coll → Coll) : (s.modColl k g).sqs = s.sqs := rfl
@[simp] theorem State.modColl_cqs (k : Nat) (g : Coll → Coll) : (s.modColl k g).cqs = s.cqs := rfl
@[simp] theorem State.modColl_flights (k : Nat) (g : Coll → Coll) : (s.modColl k g).flights = s.flights := rfl
@[simp] theorem State.modColl_nextId (k : Nat) (g : Coll → Coll) : (s.modColl k g).nextId = s.nextId := rfl
@[simp] theorem State.modColl_stamp (k : Nat) (g : Coll → Coll) : (s.modColl k g).stamp = s.stamp := rfl
@[simp] theorem State.modColl_rotWing (k : Nat) (g : Coll → Coll) : (s.modColl k g).rotWing = s.rotWing := rfl
@[simp] theorem State.modColl_rotRing (k : Nat) (g : Coll → Coll) : (s.modColl k g).rotRing = s.rotRing := rfl
@[simp] theorem State.modColl_meters (k : Nat) (g : Coll → Coll) : (s.modColl k g).meters = s.meters := rfl
@[simp] theorem State.modColl_polTicks (k : Nat) (g : Coll → Coll) : (s.modColl k g).polTicks = s.polTicks := rfl
@[simp] theorem State.modColl_bwTicks (k : Nat) (g : Coll → Coll) : (s.modColl k g).bwTicks = s.bwTicks := rfl
@[simp] theorem State.modColl_errRings (k : Nat) (g : Coll → Coll) : (s.modColl k g).errRings = s.errRings := rfl
@[simp] theorem State.modColl_mirrors (k : Nat) (g : Coll → Coll) : (s.modColl k g).mirrors = s.mirrors := rfl
@[simp] theorem State.modColl_reqs (k : Nat) (g : Coll → Coll) : (s.modColl k g).reqs = s.reqs := rfl
@[simp] theorem State.modColl_sessions (k : Nat) (g : Coll → Coll) : (s.modColl k g).sessions = s.sessions := rfl
@[simp] theorem State.modColl_bricks (k : Nat) (g : Coll → Coll) : (s.modColl k g).bricks = s.bricks := rfl
@[simp] theorem State.modColl_progs (k : Nat) (g : Coll → Coll) : (s.modColl k g).progs = s.progs := rfl
@[simp] theorem State.modColl_transit (k : Nat) (g : Coll → Coll) : (s.modColl k g).transit = s.transit := rfl
@[simp] theorem State.modColl_vocabs (k : Nat) (g : Coll → Coll) : (s.modColl k g).vocabs = s.vocabs := rfl
@[simp] theorem State.modColl_streams (k : Nat) (g : Coll → Coll) : (s.modColl k g).streams = s.streams := rfl
@[simp] theorem State.modColl_ranges (k : Nat) (g : Coll → Coll) : (s.modColl k g).ranges = s.ranges := rfl
@[simp] theorem State.modColl_pages (k : Nat) (g : Coll → Coll) : (s.modColl k g).pages = s.pages := rfl
@[simp] theorem State.modColl_frm (k : Nat) (g : Coll → Coll) : (s.modColl k g).frm = s.frm := rfl
@[simp] theorem State.modColl_low (k : Nat) (g : Coll → Coll) : (s.modColl k g).low = s.low := rfl
@[simp] theorem State.modColl_frmBad (k : Nat) (g : Coll → Coll) : (s.modColl k g).frmBad = s.frmBad := rfl
@[simp] theorem State.modColl_lowBad (k : Nat) (g : Coll → Coll) : (s.modColl k g).lowBad = s.lowBad := rfl
@[simp] theorem State.modColl_intFloor (k : Nat) (g : Coll → Coll) : (s.modColl k g).intFloor = s.intFloor := rfl
@[simp] theorem State.modColl_frames (k : Nat) (g : Coll → Coll) : (s.modColl k g).frames = s.frames := rfl
@[simp] theorem State.modColl_intCellar (k : Nat) (g : Coll → Coll) : (s.modColl k g).intCellar = s.intCellar := rfl
@[simp] theorem State.modColl_accesses (k : Nat) (g : Coll → Coll) : (s.modColl k g).accesses = s.accesses := rfl
@[simp] theorem State.modColl_memWaits (k : Nat) (g : Coll → Coll) : (s.modColl k g).memWaits = s.memWaits := rfl
@[simp] theorem State.modColl_mgmtWaits (k : Nat) (g : Coll → Coll) : (s.modColl k g).mgmtWaits = s.mgmtWaits := rfl
@[simp] theorem State.modColl_pins (k : Nat) (g : Coll → Coll) : (s.modColl k g).pins = s.pins := rfl
@[simp] theorem State.modColl_regions (k : Nat) (g : Coll → Coll) : (s.modColl k g).regions = s.regions := rfl
@[simp] theorem State.modColl_stkOps (k : Nat) (g : Coll → Coll) : (s.modColl k g).stkOps = s.stkOps := rfl
@[simp] theorem State.modColl_regionJobs (k : Nat) (g : Coll → Coll) : (s.modColl k g).regionJobs = s.regionJobs := rfl
@[simp] theorem State.modColl_unitQ (k : Nat) (g : Coll → Coll) : (s.modColl k g).unitQ = s.unitQ := rfl
@[simp] theorem State.modColl_debt (k : Nat) (g : Coll → Coll) : (s.modColl k g).debt = s.debt := rfl
@[simp] theorem State.modColl_sliceEnd (k : Nat) (g : Coll → Coll) : (s.modColl k g).sliceEnd = s.sliceEnd := rfl
@[simp] theorem State.modColl_refreshAt (k : Nat) (g : Coll → Coll) : (s.modColl k g).refreshAt = s.refreshAt := rfl
@[simp] theorem State.modColl_refreshTill (k : Nat) (g : Coll → Coll) : (s.modColl k g).refreshTill = s.refreshTill := rfl
@[simp] theorem State.modColl_embs (k : Nat) (g : Coll → Coll) : (s.modColl k g).embs = s.embs := rfl
@[simp] theorem State.modColl_prefRows (k : Nat) (g : Coll → Coll) : (s.modColl k g).prefRows = s.prefRows := rfl
@[simp] theorem State.modColl_embFrames (k : Nat) (g : Coll → Coll) : (s.modColl k g).embFrames = s.embFrames := rfl
@[simp] theorem State.modColl_embJobs (k : Nat) (g : Coll → Coll) : (s.modColl k g).embJobs = s.embJobs := rfl
@[simp] theorem State.modColl_cellar (k : Nat) (g : Coll → Coll) : (s.modColl k g).cellar = s.cellar := rfl
@[simp] theorem State.modColl_link (k : Nat) (g : Coll → Coll) : (s.modColl k g).link = s.link := rfl
@[simp] theorem State.modColl_ports (k : Nat) (g : Coll → Coll) : (s.modColl k g).ports = s.ports := rfl
@[simp] theorem State.modColl_dir (k : Nat) (g : Coll → Coll) : (s.modColl k g).dir = s.dir := rfl
@[simp] theorem State.modColl_dirMost (k : Nat) (g : Coll → Coll) : (s.modColl k g).dirMost = s.dirMost := rfl
@[simp] theorem State.modColl_snoops (k : Nat) (g : Coll → Coll) : (s.modColl k g).snoops = s.snoops := rfl
@[simp] theorem State.modColl_handovers (k : Nat) (g : Coll → Coll) : (s.modColl k g).handovers = s.handovers := rfl
@[simp] theorem State.modColl_logs (k : Nat) (g : Coll → Coll) : (s.modColl k g).logs = s.logs := rfl
@[simp] theorem State.modColl_logLost (k : Nat) (g : Coll → Coll) : (s.modColl k g).logLost = s.logLost := rfl
@[simp] theorem State.modColl_bps (k : Nat) (g : Coll → Coll) : (s.modColl k g).bps = s.bps := rfl
@[simp] theorem State.modColl_power (k : Nat) (g : Coll → Coll) : (s.modColl k g).power = s.power := rfl
@[simp] theorem State.modColl_boot (k : Nat) (g : Coll → Coll) : (s.modColl k g).boot = s.boot := rfl
@[simp] theorem State.modColl_spdm (k : Nat) (g : Coll → Coll) : (s.modColl k g).spdm = s.spdm := rfl
@[simp] theorem State.modColl_signings (k : Nat) (g : Coll → Coll) : (s.modColl k g).signings = s.signings := rfl
@[simp] theorem State.modColl_err (k : Nat) (g : Coll → Coll) : (s.modColl k g).err = s.err := rfl
@[simp] theorem State.modColl_out (k : Nat) (g : Coll → Coll) : (s.modColl k g).out = s.out := rfl
@[simp] theorem State.modColl_fresh (k : Nat) (g : Coll → Coll) : (s.modColl k g).fresh = s.fresh := rfl
@[simp] theorem State.modColl_pending (k : Nat) (g : Coll → Coll) : (s.modColl k g).pending = s.pending := rfl

@[simp] theorem State.modReq_cyc (i : Nat) (g : Req → Req) : (s.modReq i g).cyc = s.cyc := rfl
@[simp] theorem State.modReq_beat (i : Nat) (g : Req → Req) : (s.modReq i g).beat = s.beat := rfl
@[simp] theorem State.modReq_regs (i : Nat) (g : Req → Req) : (s.modReq i g).regs = s.regs := rfl
@[simp] theorem State.modReq_live (i : Nat) (g : Req → Req) : (s.modReq i g).live = s.live := rfl
@[simp] theorem State.modReq_snap (i : Nat) (g : Req → Req) : (s.modReq i g).snap = s.snap := rfl
@[simp] theorem State.modReq_lowHeld (i : Nat) (g : Req → Req) : (s.modReq i g).lowHeld = s.lowHeld := rfl
@[simp] theorem State.modReq_captures (i : Nat) (g : Req → Req) : (s.modReq i g).captures = s.captures := rfl
@[simp] theorem State.modReq_profS (i : Nat) (g : Req → Req) : (s.modReq i g).profS = s.profS := rfl
@[simp] theorem State.modReq_setAt (i : Nat) (g : Req → Req) : (s.modReq i g).setAt = s.setAt := rfl
@[simp] theorem State.modReq_peek (i : Nat) (g : Req → Req) : (s.modReq i g).peek = s.peek := rfl
@[simp] theorem State.modReq_regionSel (i : Nat) (g : Req → Req) : (s.modReq i g).regionSel = s.regionSel := rfl
@[simp] theorem State.modReq_msixTab (i : Nat) (g : Req → Req) : (s.modReq i g).msixTab = s.msixTab := rfl
@[simp] theorem State.modReq_msixPend (i : Nat) (g : Req → Req) : (s.modReq i g).msixPend = s.msixPend := rfl
@[simp] theorem State.modReq_wingNow (i : Nat) (g : Req → Req) : (s.modReq i g).wingNow = s.wingNow := rfl
@[simp] theorem State.modReq_wingLast (i : Nat) (g : Req → Req) : (s.modReq i g).wingLast = s.wingLast := rfl
@[simp] theorem State.modReq_wings (i : Nat) (g : Req → Req) : (s.modReq i g).wings = s.wings := rfl
@[simp] theorem State.modReq_sqs (i : Nat) (g : Req → Req) : (s.modReq i g).sqs = s.sqs := rfl
@[simp] theorem State.modReq_cqs (i : Nat) (g : Req → Req) : (s.modReq i g).cqs = s.cqs := rfl
@[simp] theorem State.modReq_flights (i : Nat) (g : Req → Req) : (s.modReq i g).flights = s.flights := rfl
@[simp] theorem State.modReq_nextId (i : Nat) (g : Req → Req) : (s.modReq i g).nextId = s.nextId := rfl
@[simp] theorem State.modReq_stamp (i : Nat) (g : Req → Req) : (s.modReq i g).stamp = s.stamp := rfl
@[simp] theorem State.modReq_rotWing (i : Nat) (g : Req → Req) : (s.modReq i g).rotWing = s.rotWing := rfl
@[simp] theorem State.modReq_rotRing (i : Nat) (g : Req → Req) : (s.modReq i g).rotRing = s.rotRing := rfl
@[simp] theorem State.modReq_meters (i : Nat) (g : Req → Req) : (s.modReq i g).meters = s.meters := rfl
@[simp] theorem State.modReq_polTicks (i : Nat) (g : Req → Req) : (s.modReq i g).polTicks = s.polTicks := rfl
@[simp] theorem State.modReq_bwTicks (i : Nat) (g : Req → Req) : (s.modReq i g).bwTicks = s.bwTicks := rfl
@[simp] theorem State.modReq_errRings (i : Nat) (g : Req → Req) : (s.modReq i g).errRings = s.errRings := rfl
@[simp] theorem State.modReq_colls (i : Nat) (g : Req → Req) : (s.modReq i g).colls = s.colls := rfl
@[simp] theorem State.modReq_mirrors (i : Nat) (g : Req → Req) : (s.modReq i g).mirrors = s.mirrors := rfl
@[simp] theorem State.modReq_sessions (i : Nat) (g : Req → Req) : (s.modReq i g).sessions = s.sessions := rfl
@[simp] theorem State.modReq_bricks (i : Nat) (g : Req → Req) : (s.modReq i g).bricks = s.bricks := rfl
@[simp] theorem State.modReq_progs (i : Nat) (g : Req → Req) : (s.modReq i g).progs = s.progs := rfl
@[simp] theorem State.modReq_transit (i : Nat) (g : Req → Req) : (s.modReq i g).transit = s.transit := rfl
@[simp] theorem State.modReq_vocabs (i : Nat) (g : Req → Req) : (s.modReq i g).vocabs = s.vocabs := rfl
@[simp] theorem State.modReq_streams (i : Nat) (g : Req → Req) : (s.modReq i g).streams = s.streams := rfl
@[simp] theorem State.modReq_ranges (i : Nat) (g : Req → Req) : (s.modReq i g).ranges = s.ranges := rfl
@[simp] theorem State.modReq_pages (i : Nat) (g : Req → Req) : (s.modReq i g).pages = s.pages := rfl
@[simp] theorem State.modReq_frm (i : Nat) (g : Req → Req) : (s.modReq i g).frm = s.frm := rfl
@[simp] theorem State.modReq_low (i : Nat) (g : Req → Req) : (s.modReq i g).low = s.low := rfl
@[simp] theorem State.modReq_frmBad (i : Nat) (g : Req → Req) : (s.modReq i g).frmBad = s.frmBad := rfl
@[simp] theorem State.modReq_lowBad (i : Nat) (g : Req → Req) : (s.modReq i g).lowBad = s.lowBad := rfl
@[simp] theorem State.modReq_intFloor (i : Nat) (g : Req → Req) : (s.modReq i g).intFloor = s.intFloor := rfl
@[simp] theorem State.modReq_frames (i : Nat) (g : Req → Req) : (s.modReq i g).frames = s.frames := rfl
@[simp] theorem State.modReq_intCellar (i : Nat) (g : Req → Req) : (s.modReq i g).intCellar = s.intCellar := rfl
@[simp] theorem State.modReq_accesses (i : Nat) (g : Req → Req) : (s.modReq i g).accesses = s.accesses := rfl
@[simp] theorem State.modReq_memWaits (i : Nat) (g : Req → Req) : (s.modReq i g).memWaits = s.memWaits := rfl
@[simp] theorem State.modReq_mgmtWaits (i : Nat) (g : Req → Req) : (s.modReq i g).mgmtWaits = s.mgmtWaits := rfl
@[simp] theorem State.modReq_pins (i : Nat) (g : Req → Req) : (s.modReq i g).pins = s.pins := rfl
@[simp] theorem State.modReq_regions (i : Nat) (g : Req → Req) : (s.modReq i g).regions = s.regions := rfl
@[simp] theorem State.modReq_stkOps (i : Nat) (g : Req → Req) : (s.modReq i g).stkOps = s.stkOps := rfl
@[simp] theorem State.modReq_regionJobs (i : Nat) (g : Req → Req) : (s.modReq i g).regionJobs = s.regionJobs := rfl
@[simp] theorem State.modReq_unitQ (i : Nat) (g : Req → Req) : (s.modReq i g).unitQ = s.unitQ := rfl
@[simp] theorem State.modReq_debt (i : Nat) (g : Req → Req) : (s.modReq i g).debt = s.debt := rfl
@[simp] theorem State.modReq_sliceEnd (i : Nat) (g : Req → Req) : (s.modReq i g).sliceEnd = s.sliceEnd := rfl
@[simp] theorem State.modReq_refreshAt (i : Nat) (g : Req → Req) : (s.modReq i g).refreshAt = s.refreshAt := rfl
@[simp] theorem State.modReq_refreshTill (i : Nat) (g : Req → Req) : (s.modReq i g).refreshTill = s.refreshTill := rfl
@[simp] theorem State.modReq_embs (i : Nat) (g : Req → Req) : (s.modReq i g).embs = s.embs := rfl
@[simp] theorem State.modReq_prefRows (i : Nat) (g : Req → Req) : (s.modReq i g).prefRows = s.prefRows := rfl
@[simp] theorem State.modReq_embFrames (i : Nat) (g : Req → Req) : (s.modReq i g).embFrames = s.embFrames := rfl
@[simp] theorem State.modReq_embJobs (i : Nat) (g : Req → Req) : (s.modReq i g).embJobs = s.embJobs := rfl
@[simp] theorem State.modReq_cellar (i : Nat) (g : Req → Req) : (s.modReq i g).cellar = s.cellar := rfl
@[simp] theorem State.modReq_link (i : Nat) (g : Req → Req) : (s.modReq i g).link = s.link := rfl
@[simp] theorem State.modReq_ports (i : Nat) (g : Req → Req) : (s.modReq i g).ports = s.ports := rfl
@[simp] theorem State.modReq_dir (i : Nat) (g : Req → Req) : (s.modReq i g).dir = s.dir := rfl
@[simp] theorem State.modReq_dirMost (i : Nat) (g : Req → Req) : (s.modReq i g).dirMost = s.dirMost := rfl
@[simp] theorem State.modReq_snoops (i : Nat) (g : Req → Req) : (s.modReq i g).snoops = s.snoops := rfl
@[simp] theorem State.modReq_handovers (i : Nat) (g : Req → Req) : (s.modReq i g).handovers = s.handovers := rfl
@[simp] theorem State.modReq_logs (i : Nat) (g : Req → Req) : (s.modReq i g).logs = s.logs := rfl
@[simp] theorem State.modReq_logLost (i : Nat) (g : Req → Req) : (s.modReq i g).logLost = s.logLost := rfl
@[simp] theorem State.modReq_bps (i : Nat) (g : Req → Req) : (s.modReq i g).bps = s.bps := rfl
@[simp] theorem State.modReq_power (i : Nat) (g : Req → Req) : (s.modReq i g).power = s.power := rfl
@[simp] theorem State.modReq_boot (i : Nat) (g : Req → Req) : (s.modReq i g).boot = s.boot := rfl
@[simp] theorem State.modReq_spdm (i : Nat) (g : Req → Req) : (s.modReq i g).spdm = s.spdm := rfl
@[simp] theorem State.modReq_signings (i : Nat) (g : Req → Req) : (s.modReq i g).signings = s.signings := rfl
@[simp] theorem State.modReq_err (i : Nat) (g : Req → Req) : (s.modReq i g).err = s.err := rfl
@[simp] theorem State.modReq_out (i : Nat) (g : Req → Req) : (s.modReq i g).out = s.out := rfl
@[simp] theorem State.modReq_fresh (i : Nat) (g : Req → Req) : (s.modReq i g).fresh = s.fresh := rfl
@[simp] theorem State.modReq_pending (i : Nat) (g : Req → Req) : (s.modReq i g).pending = s.pending := rfl

@[simp] theorem State.setPage_cyc (w p : Nat) (e : PageEnt) : (s.setPage w p e).cyc = s.cyc := rfl
@[simp] theorem State.setPage_beat (w p : Nat) (e : PageEnt) : (s.setPage w p e).beat = s.beat := rfl
@[simp] theorem State.setPage_regs (w p : Nat) (e : PageEnt) : (s.setPage w p e).regs = s.regs := rfl
@[simp] theorem State.setPage_live (w p : Nat) (e : PageEnt) : (s.setPage w p e).live = s.live := rfl
@[simp] theorem State.setPage_snap (w p : Nat) (e : PageEnt) : (s.setPage w p e).snap = s.snap := rfl
@[simp] theorem State.setPage_lowHeld (w p : Nat) (e : PageEnt) : (s.setPage w p e).lowHeld = s.lowHeld := rfl
@[simp] theorem State.setPage_captures (w p : Nat) (e : PageEnt) : (s.setPage w p e).captures = s.captures := rfl
@[simp] theorem State.setPage_profS (w p : Nat) (e : PageEnt) : (s.setPage w p e).profS = s.profS := rfl
@[simp] theorem State.setPage_setAt (w p : Nat) (e : PageEnt) : (s.setPage w p e).setAt = s.setAt := rfl
@[simp] theorem State.setPage_peek (w p : Nat) (e : PageEnt) : (s.setPage w p e).peek = s.peek := rfl
@[simp] theorem State.setPage_regionSel (w p : Nat) (e : PageEnt) : (s.setPage w p e).regionSel = s.regionSel := rfl
@[simp] theorem State.setPage_msixTab (w p : Nat) (e : PageEnt) : (s.setPage w p e).msixTab = s.msixTab := rfl
@[simp] theorem State.setPage_msixPend (w p : Nat) (e : PageEnt) : (s.setPage w p e).msixPend = s.msixPend := rfl
@[simp] theorem State.setPage_wingNow (w p : Nat) (e : PageEnt) : (s.setPage w p e).wingNow = s.wingNow := rfl
@[simp] theorem State.setPage_wingLast (w p : Nat) (e : PageEnt) : (s.setPage w p e).wingLast = s.wingLast := rfl
@[simp] theorem State.setPage_wings (w p : Nat) (e : PageEnt) : (s.setPage w p e).wings = s.wings := rfl
@[simp] theorem State.setPage_sqs (w p : Nat) (e : PageEnt) : (s.setPage w p e).sqs = s.sqs := rfl
@[simp] theorem State.setPage_cqs (w p : Nat) (e : PageEnt) : (s.setPage w p e).cqs = s.cqs := rfl
@[simp] theorem State.setPage_flights (w p : Nat) (e : PageEnt) : (s.setPage w p e).flights = s.flights := rfl
@[simp] theorem State.setPage_nextId (w p : Nat) (e : PageEnt) : (s.setPage w p e).nextId = s.nextId := rfl
@[simp] theorem State.setPage_stamp (w p : Nat) (e : PageEnt) : (s.setPage w p e).stamp = s.stamp := rfl
@[simp] theorem State.setPage_rotWing (w p : Nat) (e : PageEnt) : (s.setPage w p e).rotWing = s.rotWing := rfl
@[simp] theorem State.setPage_rotRing (w p : Nat) (e : PageEnt) : (s.setPage w p e).rotRing = s.rotRing := rfl
@[simp] theorem State.setPage_meters (w p : Nat) (e : PageEnt) : (s.setPage w p e).meters = s.meters := rfl
@[simp] theorem State.setPage_polTicks (w p : Nat) (e : PageEnt) : (s.setPage w p e).polTicks = s.polTicks := rfl
@[simp] theorem State.setPage_bwTicks (w p : Nat) (e : PageEnt) : (s.setPage w p e).bwTicks = s.bwTicks := rfl
@[simp] theorem State.setPage_errRings (w p : Nat) (e : PageEnt) : (s.setPage w p e).errRings = s.errRings := rfl
@[simp] theorem State.setPage_colls (w p : Nat) (e : PageEnt) : (s.setPage w p e).colls = s.colls := rfl
@[simp] theorem State.setPage_mirrors (w p : Nat) (e : PageEnt) : (s.setPage w p e).mirrors = s.mirrors := rfl
@[simp] theorem State.setPage_reqs (w p : Nat) (e : PageEnt) : (s.setPage w p e).reqs = s.reqs := rfl
@[simp] theorem State.setPage_sessions (w p : Nat) (e : PageEnt) : (s.setPage w p e).sessions = s.sessions := rfl
@[simp] theorem State.setPage_bricks (w p : Nat) (e : PageEnt) : (s.setPage w p e).bricks = s.bricks := rfl
@[simp] theorem State.setPage_progs (w p : Nat) (e : PageEnt) : (s.setPage w p e).progs = s.progs := rfl
@[simp] theorem State.setPage_transit (w p : Nat) (e : PageEnt) : (s.setPage w p e).transit = s.transit := rfl
@[simp] theorem State.setPage_vocabs (w p : Nat) (e : PageEnt) : (s.setPage w p e).vocabs = s.vocabs := rfl
@[simp] theorem State.setPage_streams (w p : Nat) (e : PageEnt) : (s.setPage w p e).streams = s.streams := rfl
@[simp] theorem State.setPage_ranges (w p : Nat) (e : PageEnt) : (s.setPage w p e).ranges = s.ranges := rfl
@[simp] theorem State.setPage_frm (w p : Nat) (e : PageEnt) : (s.setPage w p e).frm = s.frm := rfl
@[simp] theorem State.setPage_low (w p : Nat) (e : PageEnt) : (s.setPage w p e).low = s.low := rfl
@[simp] theorem State.setPage_frmBad (w p : Nat) (e : PageEnt) : (s.setPage w p e).frmBad = s.frmBad := rfl
@[simp] theorem State.setPage_lowBad (w p : Nat) (e : PageEnt) : (s.setPage w p e).lowBad = s.lowBad := rfl
@[simp] theorem State.setPage_intFloor (w p : Nat) (e : PageEnt) : (s.setPage w p e).intFloor = s.intFloor := rfl
@[simp] theorem State.setPage_frames (w p : Nat) (e : PageEnt) : (s.setPage w p e).frames = s.frames := rfl
@[simp] theorem State.setPage_intCellar (w p : Nat) (e : PageEnt) : (s.setPage w p e).intCellar = s.intCellar := rfl
@[simp] theorem State.setPage_accesses (w p : Nat) (e : PageEnt) : (s.setPage w p e).accesses = s.accesses := rfl
@[simp] theorem State.setPage_memWaits (w p : Nat) (e : PageEnt) : (s.setPage w p e).memWaits = s.memWaits := rfl
@[simp] theorem State.setPage_mgmtWaits (w p : Nat) (e : PageEnt) : (s.setPage w p e).mgmtWaits = s.mgmtWaits := rfl
@[simp] theorem State.setPage_pins (w p : Nat) (e : PageEnt) : (s.setPage w p e).pins = s.pins := rfl
@[simp] theorem State.setPage_regions (w p : Nat) (e : PageEnt) : (s.setPage w p e).regions = s.regions := rfl
@[simp] theorem State.setPage_stkOps (w p : Nat) (e : PageEnt) : (s.setPage w p e).stkOps = s.stkOps := rfl
@[simp] theorem State.setPage_regionJobs (w p : Nat) (e : PageEnt) : (s.setPage w p e).regionJobs = s.regionJobs := rfl
@[simp] theorem State.setPage_unitQ (w p : Nat) (e : PageEnt) : (s.setPage w p e).unitQ = s.unitQ := rfl
@[simp] theorem State.setPage_debt (w p : Nat) (e : PageEnt) : (s.setPage w p e).debt = s.debt := rfl
@[simp] theorem State.setPage_sliceEnd (w p : Nat) (e : PageEnt) : (s.setPage w p e).sliceEnd = s.sliceEnd := rfl
@[simp] theorem State.setPage_refreshAt (w p : Nat) (e : PageEnt) : (s.setPage w p e).refreshAt = s.refreshAt := rfl
@[simp] theorem State.setPage_refreshTill (w p : Nat) (e : PageEnt) : (s.setPage w p e).refreshTill = s.refreshTill := rfl
@[simp] theorem State.setPage_embs (w p : Nat) (e : PageEnt) : (s.setPage w p e).embs = s.embs := rfl
@[simp] theorem State.setPage_prefRows (w p : Nat) (e : PageEnt) : (s.setPage w p e).prefRows = s.prefRows := rfl
@[simp] theorem State.setPage_embFrames (w p : Nat) (e : PageEnt) : (s.setPage w p e).embFrames = s.embFrames := rfl
@[simp] theorem State.setPage_embJobs (w p : Nat) (e : PageEnt) : (s.setPage w p e).embJobs = s.embJobs := rfl
@[simp] theorem State.setPage_cellar (w p : Nat) (e : PageEnt) : (s.setPage w p e).cellar = s.cellar := rfl
@[simp] theorem State.setPage_link (w p : Nat) (e : PageEnt) : (s.setPage w p e).link = s.link := rfl
@[simp] theorem State.setPage_ports (w p : Nat) (e : PageEnt) : (s.setPage w p e).ports = s.ports := rfl
@[simp] theorem State.setPage_dir (w p : Nat) (e : PageEnt) : (s.setPage w p e).dir = s.dir := rfl
@[simp] theorem State.setPage_dirMost (w p : Nat) (e : PageEnt) : (s.setPage w p e).dirMost = s.dirMost := rfl
@[simp] theorem State.setPage_snoops (w p : Nat) (e : PageEnt) : (s.setPage w p e).snoops = s.snoops := rfl
@[simp] theorem State.setPage_handovers (w p : Nat) (e : PageEnt) : (s.setPage w p e).handovers = s.handovers := rfl
@[simp] theorem State.setPage_logs (w p : Nat) (e : PageEnt) : (s.setPage w p e).logs = s.logs := rfl
@[simp] theorem State.setPage_logLost (w p : Nat) (e : PageEnt) : (s.setPage w p e).logLost = s.logLost := rfl
@[simp] theorem State.setPage_bps (w p : Nat) (e : PageEnt) : (s.setPage w p e).bps = s.bps := rfl
@[simp] theorem State.setPage_power (w p : Nat) (e : PageEnt) : (s.setPage w p e).power = s.power := rfl
@[simp] theorem State.setPage_boot (w p : Nat) (e : PageEnt) : (s.setPage w p e).boot = s.boot := rfl
@[simp] theorem State.setPage_spdm (w p : Nat) (e : PageEnt) : (s.setPage w p e).spdm = s.spdm := rfl
@[simp] theorem State.setPage_signings (w p : Nat) (e : PageEnt) : (s.setPage w p e).signings = s.signings := rfl
@[simp] theorem State.setPage_err (w p : Nat) (e : PageEnt) : (s.setPage w p e).err = s.err := rfl
@[simp] theorem State.setPage_out (w p : Nat) (e : PageEnt) : (s.setPage w p e).out = s.out := rfl
@[simp] theorem State.setPage_fresh (w p : Nat) (e : PageEnt) : (s.setPage w p e).fresh = s.fresh := rfl
@[simp] theorem State.setPage_pending (w p : Nat) (e : PageEnt) : (s.setPage w p e).pending = s.pending := rfl

@[simp] theorem State.cel_cyc (g : Cellar → Cellar) : (s.cel g).cyc = s.cyc := rfl
@[simp] theorem State.cel_beat (g : Cellar → Cellar) : (s.cel g).beat = s.beat := rfl
@[simp] theorem State.cel_regs (g : Cellar → Cellar) : (s.cel g).regs = s.regs := rfl
@[simp] theorem State.cel_live (g : Cellar → Cellar) : (s.cel g).live = s.live := rfl
@[simp] theorem State.cel_snap (g : Cellar → Cellar) : (s.cel g).snap = s.snap := rfl
@[simp] theorem State.cel_lowHeld (g : Cellar → Cellar) : (s.cel g).lowHeld = s.lowHeld := rfl
@[simp] theorem State.cel_captures (g : Cellar → Cellar) : (s.cel g).captures = s.captures := rfl
@[simp] theorem State.cel_profS (g : Cellar → Cellar) : (s.cel g).profS = s.profS := rfl
@[simp] theorem State.cel_setAt (g : Cellar → Cellar) : (s.cel g).setAt = s.setAt := rfl
@[simp] theorem State.cel_peek (g : Cellar → Cellar) : (s.cel g).peek = s.peek := rfl
@[simp] theorem State.cel_regionSel (g : Cellar → Cellar) : (s.cel g).regionSel = s.regionSel := rfl
@[simp] theorem State.cel_msixTab (g : Cellar → Cellar) : (s.cel g).msixTab = s.msixTab := rfl
@[simp] theorem State.cel_msixPend (g : Cellar → Cellar) : (s.cel g).msixPend = s.msixPend := rfl
@[simp] theorem State.cel_wingNow (g : Cellar → Cellar) : (s.cel g).wingNow = s.wingNow := rfl
@[simp] theorem State.cel_wingLast (g : Cellar → Cellar) : (s.cel g).wingLast = s.wingLast := rfl
@[simp] theorem State.cel_wings (g : Cellar → Cellar) : (s.cel g).wings = s.wings := rfl
@[simp] theorem State.cel_sqs (g : Cellar → Cellar) : (s.cel g).sqs = s.sqs := rfl
@[simp] theorem State.cel_cqs (g : Cellar → Cellar) : (s.cel g).cqs = s.cqs := rfl
@[simp] theorem State.cel_flights (g : Cellar → Cellar) : (s.cel g).flights = s.flights := rfl
@[simp] theorem State.cel_nextId (g : Cellar → Cellar) : (s.cel g).nextId = s.nextId := rfl
@[simp] theorem State.cel_stamp (g : Cellar → Cellar) : (s.cel g).stamp = s.stamp := rfl
@[simp] theorem State.cel_rotWing (g : Cellar → Cellar) : (s.cel g).rotWing = s.rotWing := rfl
@[simp] theorem State.cel_rotRing (g : Cellar → Cellar) : (s.cel g).rotRing = s.rotRing := rfl
@[simp] theorem State.cel_meters (g : Cellar → Cellar) : (s.cel g).meters = s.meters := rfl
@[simp] theorem State.cel_polTicks (g : Cellar → Cellar) : (s.cel g).polTicks = s.polTicks := rfl
@[simp] theorem State.cel_bwTicks (g : Cellar → Cellar) : (s.cel g).bwTicks = s.bwTicks := rfl
@[simp] theorem State.cel_errRings (g : Cellar → Cellar) : (s.cel g).errRings = s.errRings := rfl
@[simp] theorem State.cel_colls (g : Cellar → Cellar) : (s.cel g).colls = s.colls := rfl
@[simp] theorem State.cel_mirrors (g : Cellar → Cellar) : (s.cel g).mirrors = s.mirrors := rfl
@[simp] theorem State.cel_reqs (g : Cellar → Cellar) : (s.cel g).reqs = s.reqs := rfl
@[simp] theorem State.cel_sessions (g : Cellar → Cellar) : (s.cel g).sessions = s.sessions := rfl
@[simp] theorem State.cel_bricks (g : Cellar → Cellar) : (s.cel g).bricks = s.bricks := rfl
@[simp] theorem State.cel_progs (g : Cellar → Cellar) : (s.cel g).progs = s.progs := rfl
@[simp] theorem State.cel_transit (g : Cellar → Cellar) : (s.cel g).transit = s.transit := rfl
@[simp] theorem State.cel_vocabs (g : Cellar → Cellar) : (s.cel g).vocabs = s.vocabs := rfl
@[simp] theorem State.cel_streams (g : Cellar → Cellar) : (s.cel g).streams = s.streams := rfl
@[simp] theorem State.cel_ranges (g : Cellar → Cellar) : (s.cel g).ranges = s.ranges := rfl
@[simp] theorem State.cel_pages (g : Cellar → Cellar) : (s.cel g).pages = s.pages := rfl
@[simp] theorem State.cel_frm (g : Cellar → Cellar) : (s.cel g).frm = s.frm := rfl
@[simp] theorem State.cel_low (g : Cellar → Cellar) : (s.cel g).low = s.low := rfl
@[simp] theorem State.cel_frmBad (g : Cellar → Cellar) : (s.cel g).frmBad = s.frmBad := rfl
@[simp] theorem State.cel_lowBad (g : Cellar → Cellar) : (s.cel g).lowBad = s.lowBad := rfl
@[simp] theorem State.cel_intFloor (g : Cellar → Cellar) : (s.cel g).intFloor = s.intFloor := rfl
@[simp] theorem State.cel_frames (g : Cellar → Cellar) : (s.cel g).frames = s.frames := rfl
@[simp] theorem State.cel_intCellar (g : Cellar → Cellar) : (s.cel g).intCellar = s.intCellar := rfl
@[simp] theorem State.cel_accesses (g : Cellar → Cellar) : (s.cel g).accesses = s.accesses := rfl
@[simp] theorem State.cel_memWaits (g : Cellar → Cellar) : (s.cel g).memWaits = s.memWaits := rfl
@[simp] theorem State.cel_mgmtWaits (g : Cellar → Cellar) : (s.cel g).mgmtWaits = s.mgmtWaits := rfl
@[simp] theorem State.cel_pins (g : Cellar → Cellar) : (s.cel g).pins = s.pins := rfl
@[simp] theorem State.cel_regions (g : Cellar → Cellar) : (s.cel g).regions = s.regions := rfl
@[simp] theorem State.cel_stkOps (g : Cellar → Cellar) : (s.cel g).stkOps = s.stkOps := rfl
@[simp] theorem State.cel_regionJobs (g : Cellar → Cellar) : (s.cel g).regionJobs = s.regionJobs := rfl
@[simp] theorem State.cel_unitQ (g : Cellar → Cellar) : (s.cel g).unitQ = s.unitQ := rfl
@[simp] theorem State.cel_debt (g : Cellar → Cellar) : (s.cel g).debt = s.debt := rfl
@[simp] theorem State.cel_sliceEnd (g : Cellar → Cellar) : (s.cel g).sliceEnd = s.sliceEnd := rfl
@[simp] theorem State.cel_refreshAt (g : Cellar → Cellar) : (s.cel g).refreshAt = s.refreshAt := rfl
@[simp] theorem State.cel_refreshTill (g : Cellar → Cellar) : (s.cel g).refreshTill = s.refreshTill := rfl
@[simp] theorem State.cel_embs (g : Cellar → Cellar) : (s.cel g).embs = s.embs := rfl
@[simp] theorem State.cel_prefRows (g : Cellar → Cellar) : (s.cel g).prefRows = s.prefRows := rfl
@[simp] theorem State.cel_embFrames (g : Cellar → Cellar) : (s.cel g).embFrames = s.embFrames := rfl
@[simp] theorem State.cel_embJobs (g : Cellar → Cellar) : (s.cel g).embJobs = s.embJobs := rfl
@[simp] theorem State.cel_link (g : Cellar → Cellar) : (s.cel g).link = s.link := rfl
@[simp] theorem State.cel_ports (g : Cellar → Cellar) : (s.cel g).ports = s.ports := rfl
@[simp] theorem State.cel_dir (g : Cellar → Cellar) : (s.cel g).dir = s.dir := rfl
@[simp] theorem State.cel_dirMost (g : Cellar → Cellar) : (s.cel g).dirMost = s.dirMost := rfl
@[simp] theorem State.cel_snoops (g : Cellar → Cellar) : (s.cel g).snoops = s.snoops := rfl
@[simp] theorem State.cel_handovers (g : Cellar → Cellar) : (s.cel g).handovers = s.handovers := rfl
@[simp] theorem State.cel_logs (g : Cellar → Cellar) : (s.cel g).logs = s.logs := rfl
@[simp] theorem State.cel_logLost (g : Cellar → Cellar) : (s.cel g).logLost = s.logLost := rfl
@[simp] theorem State.cel_bps (g : Cellar → Cellar) : (s.cel g).bps = s.bps := rfl
@[simp] theorem State.cel_power (g : Cellar → Cellar) : (s.cel g).power = s.power := rfl
@[simp] theorem State.cel_boot (g : Cellar → Cellar) : (s.cel g).boot = s.boot := rfl
@[simp] theorem State.cel_spdm (g : Cellar → Cellar) : (s.cel g).spdm = s.spdm := rfl
@[simp] theorem State.cel_signings (g : Cellar → Cellar) : (s.cel g).signings = s.signings := rfl
@[simp] theorem State.cel_err (g : Cellar → Cellar) : (s.cel g).err = s.err := rfl
@[simp] theorem State.cel_out (g : Cellar → Cellar) : (s.cel g).out = s.out := rfl
@[simp] theorem State.cel_fresh (g : Cellar → Cellar) : (s.cel g).fresh = s.fresh := rfl
@[simp] theorem State.cel_pending (g : Cellar → Cellar) : (s.cel g).pending = s.pending := rfl

@[simp] theorem State.within_cyc : (s.within t).cyc = s.cyc := rfl
@[simp] theorem State.within_beat : (s.within t).beat = { s.beat with sched := t.beat.sched } := rfl
@[simp] theorem State.within_regs : (s.within t).regs = s.regs := rfl
@[simp] theorem State.within_live : (s.within t).live = t.live := rfl
@[simp] theorem State.within_snap : (s.within t).snap = t.snap := rfl
@[simp] theorem State.within_lowHeld : (s.within t).lowHeld = s.lowHeld := rfl
@[simp] theorem State.within_captures : (s.within t).captures = s.captures := rfl
@[simp] theorem State.within_profS : (s.within t).profS = s.profS := rfl
@[simp] theorem State.within_setAt : (s.within t).setAt = t.setAt := rfl
@[simp] theorem State.within_peek : (s.within t).peek = s.peek := rfl
@[simp] theorem State.within_regionSel : (s.within t).regionSel = s.regionSel := rfl
@[simp] theorem State.within_msixTab : (s.within t).msixTab = s.msixTab := rfl
@[simp] theorem State.within_msixPend : (s.within t).msixPend = t.msixPend := rfl
@[simp] theorem State.within_wingNow : (s.within t).wingNow = t.wingNow := rfl
@[simp] theorem State.within_wingLast : (s.within t).wingLast = t.wingLast := rfl
@[simp] theorem State.within_wings : (s.within t).wings = s.wings := rfl
@[simp] theorem State.within_sqs : (s.within t).sqs = t.sqs := rfl
@[simp] theorem State.within_cqs : (s.within t).cqs = t.cqs := rfl
@[simp] theorem State.within_flights : (s.within t).flights = t.flights := rfl
@[simp] theorem State.within_nextId : (s.within t).nextId = t.nextId := rfl
@[simp] theorem State.within_stamp : (s.within t).stamp = t.stamp := rfl
@[simp] theorem State.within_rotWing : (s.within t).rotWing = t.rotWing := rfl
@[simp] theorem State.within_rotRing : (s.within t).rotRing = t.rotRing := rfl
@[simp] theorem State.within_meters : (s.within t).meters = t.meters := rfl
@[simp] theorem State.within_polTicks : (s.within t).polTicks = t.polTicks := rfl
@[simp] theorem State.within_bwTicks : (s.within t).bwTicks = t.bwTicks := rfl
@[simp] theorem State.within_errRings : (s.within t).errRings = t.errRings := rfl
@[simp] theorem State.within_colls : (s.within t).colls = t.colls := rfl
@[simp] theorem State.within_mirrors : (s.within t).mirrors = t.mirrors := rfl
@[simp] theorem State.within_reqs : (s.within t).reqs = t.reqs := rfl
@[simp] theorem State.within_sessions : (s.within t).sessions = t.sessions := rfl
@[simp] theorem State.within_bricks : (s.within t).bricks = t.bricks := rfl
@[simp] theorem State.within_progs : (s.within t).progs = t.progs := rfl
@[simp] theorem State.within_transit : (s.within t).transit = t.transit := rfl
@[simp] theorem State.within_vocabs : (s.within t).vocabs = t.vocabs := rfl
@[simp] theorem State.within_streams : (s.within t).streams = t.streams := rfl
@[simp] theorem State.within_ranges : (s.within t).ranges = t.ranges := rfl
@[simp] theorem State.within_pages : (s.within t).pages = t.pages := rfl
@[simp] theorem State.within_frm : (s.within t).frm = t.frm := rfl
@[simp] theorem State.within_low : (s.within t).low = t.low := rfl
@[simp] theorem State.within_frmBad : (s.within t).frmBad = t.frmBad := rfl
@[simp] theorem State.within_lowBad : (s.within t).lowBad = t.lowBad := rfl
@[simp] theorem State.within_intFloor : (s.within t).intFloor = t.intFloor := rfl
@[simp] theorem State.within_frames : (s.within t).frames = t.frames := rfl
@[simp] theorem State.within_intCellar : (s.within t).intCellar = t.intCellar := rfl
@[simp] theorem State.within_accesses : (s.within t).accesses = t.accesses := rfl
@[simp] theorem State.within_memWaits : (s.within t).memWaits = t.memWaits := rfl
@[simp] theorem State.within_mgmtWaits : (s.within t).mgmtWaits = t.mgmtWaits := rfl
@[simp] theorem State.within_pins : (s.within t).pins = t.pins := rfl
@[simp] theorem State.within_regions : (s.within t).regions = t.regions := rfl
@[simp] theorem State.within_stkOps : (s.within t).stkOps = t.stkOps := rfl
@[simp] theorem State.within_regionJobs : (s.within t).regionJobs = t.regionJobs := rfl
@[simp] theorem State.within_unitQ : (s.within t).unitQ = t.unitQ := rfl
@[simp] theorem State.within_debt : (s.within t).debt = t.debt := rfl
@[simp] theorem State.within_sliceEnd : (s.within t).sliceEnd = t.sliceEnd := rfl
@[simp] theorem State.within_refreshAt : (s.within t).refreshAt = t.refreshAt := rfl
@[simp] theorem State.within_refreshTill : (s.within t).refreshTill = t.refreshTill := rfl
@[simp] theorem State.within_embs : (s.within t).embs = t.embs := rfl
@[simp] theorem State.within_prefRows : (s.within t).prefRows = t.prefRows := rfl
@[simp] theorem State.within_embFrames : (s.within t).embFrames = t.embFrames := rfl
@[simp] theorem State.within_embJobs : (s.within t).embJobs = t.embJobs := rfl
@[simp] theorem State.within_cellar : (s.within t).cellar = t.cellar := rfl
@[simp] theorem State.within_link : (s.within t).link = s.link := rfl
@[simp] theorem State.within_ports : (s.within t).ports = t.ports := rfl
@[simp] theorem State.within_dir : (s.within t).dir = t.dir := rfl
@[simp] theorem State.within_dirMost : (s.within t).dirMost = t.dirMost := rfl
@[simp] theorem State.within_snoops : (s.within t).snoops = t.snoops := rfl
@[simp] theorem State.within_handovers : (s.within t).handovers = t.handovers := rfl
@[simp] theorem State.within_logs : (s.within t).logs = t.logs := rfl
@[simp] theorem State.within_logLost : (s.within t).logLost = t.logLost := rfl
@[simp] theorem State.within_bps : (s.within t).bps = t.bps := rfl
@[simp] theorem State.within_power : (s.within t).power = s.power := rfl
@[simp] theorem State.within_boot : (s.within t).boot = s.boot := rfl
@[simp] theorem State.within_spdm : (s.within t).spdm = t.spdm := rfl
@[simp] theorem State.within_signings : (s.within t).signings = t.signings := rfl
@[simp] theorem State.within_err : (s.within t).err = t.err := rfl
@[simp] theorem State.within_out : (s.within t).out = t.out := rfl
@[simp] theorem State.within_fresh : (s.within t).fresh = t.fresh := rfl
@[simp] theorem State.within_pending : (s.within t).pending = s.pending := rfl

end Sys2Proof.Machine
end

