-- ==== Sys2Proof/Laws/Flights.lean ====
section
/-!
SUPPORT. Laws of descriptors in flight: finding one after an update, and what fixing a completion leaves of it.
-/
namespace Sys2Proof.Machine
open Sys2Proof

theorem find_map_fid (l : List Flight) (g : Flight → Flight) (fid : Nat) (hg : ∀ f, (g f).fid = f.fid) :
    (l.map g).find? (fun f => f.fid == fid) = (l.find? fun f => f.fid == fid).map g := by
  induction l with
  | nil => rfl
  | cons f l ih =>
    simp only [List.map_cons, List.find?_cons, hg]
    split
    · rfl
    · exact ih

theorem fid_of_find {l : List Flight} {fid : Nat} {f : Flight} (h : l.find? (fun f => f.fid == fid) = some f) : f.fid = fid := by
  simpa using List.find?_some h

/-- The descriptor changed by `modFlight`. -/
theorem flight_modFlight {s : State} {fid : Nat} {g : Flight → Flight} {f : Flight} (hg : ∀ f, (g f).fid = f.fid)
    (h : s.flight? fid = some f) : (s.modFlight fid g).flight? fid = some (g f) := by
  unfold State.flight? State.modFlight at *
  rw [find_map_fid _ _ _ (by intro f; split <;> simp [hg]), h]
  simp [fid_of_find h]

/-- Other descriptors are as before. -/
theorem flight_modFlight_other {s : State} {fid k : Nat} {g : Flight → Flight} (hg : ∀ f, (g f).fid = f.fid) (hk : k ≠ fid) :
    (s.modFlight fid g).flight? k = s.flight? k := by
  unfold State.flight? State.modFlight
  rw [find_map_fid _ _ _ (by intro f; split <;> simp [hg])]
  cases h : s.flights.find? (fun f => f.fid == k) with
  | none => rfl
  | some f => simp [fid_of_find h, hk]

@[simp] theorem emit_flight (s : State) (o : Out) (k : Nat) : (s.emit o).flight? k = s.flight? k := rfl
@[simp] theorem bump_flight (s : State) (o k : Nat) : (s.bump o).flight? k = s.flight? k := rfl
@[simp] theorem within_flight (s t : State) (k : Nat) : (s.within t).flight? k = t.flight? k := rfl
@[simp] theorem modWingBeat_flight (s : State) (w : Nat) (g : WingBeat → WingBeat) (k : Nat) :
    (s.modWingBeat w g).flight? k = s.flight? k := rfl

@[simp] theorem runRefresh_flights (s : State) (key n : Nat) : (s.runRefresh key n).flights = s.flights := by
  unfold State.runRefresh
  split <;> rfl

@[simp] theorem startSlice_flights (s : State) (key : Nat) (l : List Nat) : (s.startSlice key l).flights = s.flights := by
  unfold State.startSlice
  split <;> rfl

@[simp] theorem endSlice_flights (s : State) (key : Nat) (l : List Nat) : (s.endSlice key l).flights = s.flights := by
  simp [State.endSlice]

/-- A fold of steps that keep the descriptors keeps them. -/
theorem foldl_flights {α : Type} (g : State → α → State) (hg : ∀ s x, (g s x).flights = s.flights) (l : List α) (s : State) :
    (l.foldl g s).flights = s.flights := by
  induction l generalizing s with
  | nil => rfl
  | cons x t ih => rw [List.foldl_cons, ih, hg]

@[simp] theorem dropOps_flights (s : State) (gone : StkOp → Bool) : (s.dropOps gone).flights = s.flights := by
  unfold State.dropOps
  exact foldl_flights _ (by intro s e; dsimp only; split <;> simp) _ _

@[simp] theorem dropWork_flights (s : State) (fid : Nat) : (s.dropWork fid).flights = s.flights :=
  dropOps_flights s _

@[simp] theorem hostUnspecified_flights (s : State) (p a n : Nat) : (s.hostUnspecified p a n).flights = s.flights := by
  unfold State.hostUnspecified
  split <;> rfl

@[simp] theorem hostWrite_flights (s : State) (p a : Nat) (b : Bytes) : (s.hostWrite p a b).flights = s.flights := by
  unfold State.hostWrite
  split <;> rfl

@[simp] theorem countCpl_flights (s : State) (f : Flight) (c : Cpl) : (s.countCpl f c).flights = s.flights := by
  simp only [State.countCpl, apply_ite State.flights, State.bump_flights, ite_self]

/-- A descriptor whose entry arrives at its completion ring keeps everything but when it arrived. -/
def sameButDue (f g : Flight) : Prop := g = { f with due := g.due }

theorem sameButDue_refl (f : Flight) : sameButDue f f := rfl

theorem makeDue_flight {s : State} {k fid : Nat} {f : Flight} (h : s.flight? fid = some f) :
    ∃ g, (s.makeDue k).flight? fid = some g ∧ sameButDue f g := by
  have e : (s.makeDue k).flight? fid = (s.modFlight k fun f => { f with due := f.due <|> some s.stamp }).flight? fid := rfl
  by_cases hk : fid = k
  · subst hk
    rw [e, flight_modFlight (by intro f; rfl) h]
    exact ⟨_, rfl, rfl⟩
  · rw [e, flight_modFlight_other (by intro f; rfl) hk]
    exact ⟨f, h, rfl⟩

theorem foldl_makeDue_flight (l : List Nat) {s : State} {fid : Nat} {f : Flight} (h : s.flight? fid = some f) :
    ∃ g, (l.foldl State.makeDue s).flight? fid = some g ∧ sameButDue f g := by
  induction l generalizing s f with
  | nil => exact ⟨f, h, rfl⟩
  | cons k l ih =>
    obtain ⟨g, hg, e⟩ := makeDue_flight (k := k) h
    obtain ⟨x, hx, e'⟩ := ih hg
    refine ⟨x, hx, ?_⟩
    unfold sameButDue at *
    rw [e', e]

/-- Entries that arrive change nothing else of a descriptor. -/
theorem refreshDue_flight {s : State} {w q fid : Nat} {f : Flight} (h : s.flight? fid = some f) :
    ∃ g, (s.refreshDue w q).flight? fid = some g ∧ sameButDue f g := foldl_makeDue_flight _ h

/-- Counting an emitted completion leaves the descriptors alone. -/
@[simp] theorem countEmit_flights (s : State) (fid : Nat) : (s.countEmit fid).flights = s.flights := by
  unfold State.countEmit
  split <;> rfl

/-- Fixing a completion: the descriptor is done, with the status, flags, count and result of the completion as finished. -/
theorem fix_flight {s : State} {fid : Nat} {c : Cpl} {f : Flight} (h : s.flight? fid = some f) (hp : f.phase ≠ .done) :
    ∃ g, (s.fix fid c).flight? fid = some g ∧ g.phase = .done ∧ g.cpl = some (f.finalCpl c) := by
  unfold State.fix
  rw [h]
  simp only [hp, if_false]
  generalize hs : (if f.phase = .active ∧ (f.finalCpl c).status.zeroCount = true then
      ((s.countEmit fid).dropWork fid).hostUnspecified (((s.countEmit fid).dropWork fid).flightPort f) f.resultArea.1 f.resultArea.2
      else (s.countEmit fid).dropWork fid) = u
  have hu : u.flight? fid = some f := by
    subst hs
    unfold State.flight? at h ⊢
    split <;> simpa using h
  have hm := flight_modFlight (g := fun g => { g with phase := .done, cpl := some (f.finalCpl c), sqHead := (u.sq g.wing g.sq).head })
    (by intro f; rfl) hu
  generalize hv : u.modFlight fid (fun g => { g with phase := .done, cpl := some (f.finalCpl c), sqHead := (u.sq g.wing g.sq).head }) = v at hm
  have hw : ((v.modWingBeat f.wing (WingBeat.completed v.beatPos)).countCpl f (f.finalCpl c)).flight? fid
      = some { f with phase := .done, cpl := some (f.finalCpl c), sqHead := (u.sq f.wing f.sq).head } := by
    rw [← hm]
    unfold State.flight?
    rw [countCpl_flights]
    rfl
  obtain ⟨g, hg, e⟩ := refreshDue_flight (w := f.wing) (q := f.sq) hw
  refine ⟨g, hg, ?_, ?_⟩ <;> rw [e]

/-- Nothing changes a completion that is fixed. -/
theorem fix_done {s : State} {fid : Nat} {c : Cpl} {f : Flight} (h : s.flight? fid = some f) (hp : f.phase = .done) : s.fix fid c = s := by
  unfold State.fix
  rw [h]
  simp [hp]

/-- An admitted descriptor is active; its timeout runs from this cycle. -/
theorem admitNow_flight {s : State} {fid : Nat} {f : Flight} (h : s.flight? fid = some f) :
    (s.admitNow fid).flight? fid = some { f with phase := .active, admitCyc := some s.cyc } := by
  unfold State.admitNow
  rw [h]
  exact flight_modFlight (s := s.modWingBeat f.wing (WingBeat.admitted s.beatPos))
    (g := fun g => { g with phase := .active, admitCyc := some (s.modWingBeat f.wing (WingBeat.admitted s.beatPos)).cyc }) (by intro f; rfl) h

theorem ready_flight {s : State} {fid op : Nat} {f : Flight} (h : s.ready? fid op = some f) :
    s.flight? fid = some f ∧ f.phase = .ready ∧ hOpcode f.raw = op := by
  unfold State.ready? at h
  cases hf : s.flight? fid with
  | none => simp [hf] at h
  | some g =>
    simp only [hf] at h
    split at h
    · simp only [Option.some.injEq] at h
      subst h
      exact ⟨rfl, ‹_›⟩
    · simp at h

end Sys2Proof.Machine
end

