-- ==== Sys2Proof/Laws/Tables.lean ====
section
/-!
SUPPORT. Laws of sparse tables: reads after writes, and every operation keeps the canonical form.
-/
namespace Sys2Proof.Machine
open Sys2Proof

variable {α : Type}

theorem Tab.rises_le {lo hi : Nat} {t : Tab α} (h : lo ≤ hi) (ht : Tab.risesFrom hi t = true) : Tab.risesFrom lo t = true := by
  cases t with
  | nil => rfl
  | cons e t =>
    simp only [Tab.risesFrom, Bool.and_eq_true, decide_eq_true_eq] at ht ⊢
    exact ⟨by omega, ht.2⟩

/-- Below the first key of a rising table nothing is found. -/
theorem tfind_below {lo k : Nat} {t : Tab α} (ht : Tab.risesFrom lo t = true) (h : k < lo) : tfind t k = none := by
  cases t with
  | nil => rfl
  | cons e t =>
    simp only [Tab.risesFrom, Bool.and_eq_true, decide_eq_true_eq] at ht
    simp only [tfind]
    rw [if_neg (by omega), if_neg (by omega)]

@[simp] theorem tfind_nil (k : Nat) : tfind ([] : Tab α) k = none := rfl

@[simp] theorem tfind_tput_same (t : Tab α) (k : Nat) (v : α) : tfind (tput t k v) k = some v := by
  induction t with
  | nil => simp [tput, tfind]
  | cons e t ih =>
    simp only [tput]
    split
    · simp [tfind]
    · split
      · simp only [tfind]
        rw [if_neg ‹_›, if_pos ‹_›]
        exact ih
      · simp [tfind]

theorem tfind_tput_other (t : Tab α) {k j : Nat} (v : α) (h : j ≠ k) : tfind (tput t k v) j = tfind t j := by
  induction t with
  | nil =>
    simp only [tput, tfind]
    rw [if_neg (Ne.symm h)]
    split <;> rfl
  | cons e t ih =>
    simp only [tput]
    split
    · rename_i he
      simp only [tfind, he]
      rw [if_neg (Ne.symm h), if_neg (Ne.symm h)]
    · split
      · simp only [tfind, ih]
      · rename_i h1 h2
        simp only [tfind]
        rw [if_neg (Ne.symm h)]
        split
        · rfl
        · rw [if_neg (by omega), if_neg (by omega)]

theorem rises_tput {lo k : Nat} {t : Tab α} (v : α) (hk : lo ≤ k) (ht : Tab.risesFrom lo t = true) : Tab.risesFrom lo (tput t k v) = true := by
  induction t generalizing lo with
  | nil => simp [tput, Tab.risesFrom, hk]
  | cons e t ih =>
    simp only [Tab.risesFrom, Bool.and_eq_true, decide_eq_true_eq] at ht
    simp only [tput]
    split
    · rename_i he
      subst he
      simp [Tab.risesFrom, hk, ht.2]
    · split
      · simp only [Tab.risesFrom, Bool.and_eq_true, decide_eq_true_eq]
        exact ⟨ht.1, ih (by omega) ht.2⟩
      · simp only [Tab.risesFrom, Bool.and_eq_true, decide_eq_true_eq]
        exact ⟨hk, by omega, ht.2⟩

theorem rises_dropWhile {lo : Nat} {t : Tab α} (p : Nat × α → Bool) (ht : Tab.risesFrom lo t = true) : Tab.risesFrom lo (t.dropWhile p) = true := by
  induction t generalizing lo with
  | nil => rfl
  | cons e t ih =>
    simp only [List.dropWhile_cons]
    split
    · simp only [Tab.risesFrom, Bool.and_eq_true, decide_eq_true_eq] at ht
      exact Tab.rises_le (by omega) (ih ht.2)
    · exact ht

/-- Nothing is found behind entries that were dropped for their low keys. -/
theorem tfind_dropWhile {k j : Nat} (t : Tab α) (h : j ≤ k) : tfind (t.dropWhile fun e => decide (e.1 ≤ k)) j = none := by
  induction t with
  | nil => rfl
  | cons e t ih =>
    simp only [List.dropWhile_cons, decide_eq_true_eq]
    split
    · exact ih
    · simp only [tfind]
      rw [if_neg (by omega), if_neg (by omega)]

theorem tfind_dropWhile_above {k j : Nat} (t : Tab α) (h : k < j) : tfind (t.dropWhile fun e => decide (e.1 ≤ k)) j = tfind t j := by
  induction t with
  | nil => rfl
  | cons e t ih =>
    simp only [List.dropWhile_cons, decide_eq_true_eq]
    split
    · rw [ih]
      simp only [tfind]
      rw [if_neg (by omega), if_pos (by omega)]
    · rfl

theorem rises_tdel {lo k : Nat} {t : Tab α} (ht : Tab.risesFrom lo t = true) : Tab.risesFrom lo (tdel t k) = true := by
  induction t generalizing lo with
  | nil => rfl
  | cons e t ih =>
    simp only [Tab.risesFrom, Bool.and_eq_true, decide_eq_true_eq] at ht
    simp only [tdel]
    split
    · exact Tab.rises_le (by omega) (rises_dropWhile _ ht.2)
    · split
      · simp only [Tab.risesFrom, Bool.and_eq_true, decide_eq_true_eq]
        exact ⟨ht.1, ih ht.2⟩
      · simp [Tab.risesFrom, ht]

theorem rises_filter {lo : Nat} {t : Tab α} (p : Nat × α → Bool) (ht : Tab.risesFrom lo t = true) : Tab.risesFrom lo (t.filter p) = true := by
  induction t generalizing lo with
  | nil => rfl
  | cons e t ih =>
    simp only [Tab.risesFrom, Bool.and_eq_true, decide_eq_true_eq] at ht
    simp only [List.filter]
    split
    · simp only [Tab.risesFrom, Bool.and_eq_true, decide_eq_true_eq]
      exact ⟨ht.1, ih ht.2⟩
    · exact ih (Tab.rises_le (by omega) ht.2)

/-- Entries put under a key lie at it or in the table. -/
theorem all_tput {t : Tab α} {k : Nat} {v : α} {p : Nat × α → Bool} (hv : p (k, v) = true) (ht : t.all p = true) :
    (tput t k v).all p = true := by
  induction t with
  | nil => simp [tput, hv]
  | cons e t ih =>
    simp only [List.all_cons, Bool.and_eq_true] at ht
    simp only [tput]
    split
    · simp [hv, ht.2]
    · split
      · simp [ht.1, ih ht.2]
      · simp [hv, ht.1, ht.2]

theorem all_tdel {t : Tab α} {k : Nat} {p : Nat × α → Bool} (ht : t.all p = true) : (tdel t k).all p = true := by
  induction t with
  | nil => rfl
  | cons e t ih =>
    simp only [List.all_cons, Bool.and_eq_true] at ht
    simp only [tdel]
    split
    · simp only [List.all_eq_true] at ht ⊢
      exact fun x hx => ht.2 x (List.dropWhile_sublist _ |>.subset hx)
    · split
      · simp [ht.1, ih ht.2]
      · simp [ht.1, ht.2]

theorem all_filter {t : Tab α} {p q : Nat × α → Bool} (ht : t.all p = true) : (t.filter q).all p = true := by
  simp only [List.all_eq_true, List.mem_filter] at ht ⊢
  exact fun x hx => ht x hx.1

@[simp] theorem tfind_tdel_same (t : Tab α) (k : Nat) : tfind (tdel t k) k = none := by
  induction t with
  | nil => rfl
  | cons e t ih =>
    simp only [tdel]
    split
    · exact tfind_dropWhile t (Nat.le_refl k)
    · split
      · simp only [tfind]
        rw [if_neg ‹_›, if_pos ‹_›]
        exact ih
      · simp only [tfind]
        rw [if_neg ‹_›, if_neg ‹_›]

theorem tfind_tdel_other (t : Tab α) {k j : Nat} (h : j ≠ k) : tfind (tdel t k) j = tfind t j := by
  induction t with
  | nil => rfl
  | cons e t ih =>
    simp only [tdel]
    split
    · rename_i he
      simp only [tfind, he]
      rw [if_neg (Ne.symm h)]
      split
      · exact tfind_dropWhile_above t ‹_›
      · exact tfind_dropWhile t (by omega)
    · split
      · simp only [tfind, ih]
      · rfl

section
variable [DecidableEq α]

/-- A write keeps the canonical form. -/
theorem wf_tset {d : α} {t : Tab α} {k : Nat} {v : α} (h : Tab.wf d t = true) : Tab.wf d (tset d t k v) = true := by
  simp only [Tab.wf, Bool.and_eq_true] at h ⊢
  unfold tset
  split
  · exact ⟨rises_tdel h.1, all_tdel h.2⟩
  · exact ⟨rises_tput v (by omega) h.1, all_tput (by simpa using ‹_›) h.2⟩

theorem wf_tkeep {d : α} {t : Tab α} {p : Nat → Bool} (h : Tab.wf d t = true) : Tab.wf d (tkeep t p) = true := by
  simp only [Tab.wf, Bool.and_eq_true] at h ⊢
  exact ⟨rises_filter _ h.1, all_filter h.2⟩

/-- A read after a write to the same key gives the value written. -/
@[simp] theorem tget_tset_same (d : α) (t : Tab α) (k : Nat) (v : α) : tget d (tset d t k v) k = v := by
  unfold tget tset
  split
  · rename_i hv
    rw [tfind_tdel_same, hv]; rfl
  · rw [tfind_tput_same]; rfl

/-- A write leaves every other key alone. -/
theorem tget_tset_other (d : α) (t : Tab α) {k j : Nat} (v : α) (hj : j ≠ k) :
    tget d (tset d t k v) j = tget d t j := by
  unfold tget tset
  split
  · rw [tfind_tdel_other t hj]
  · rw [tfind_tput_other t v hj]

end

/-! ## Byte tables -/

theorem rises_byteEnts (k : Nat) (bs : Bytes) : Tab.risesFrom k (byteEnts k bs) = true := by
  induction bs generalizing k with
  | nil => rfl
  | cons b bs ih =>
    simp only [byteEnts]
    split
    · exact Tab.rises_le (by omega) (ih (k + 1))
    · simp [Tab.risesFrom, ih (k + 1)]

theorem byteEnts_lt (k : Nat) (bs : Bytes) : ∀ e ∈ byteEnts k bs, e.1 < k + bs.length ∧ e.2 ≠ 0 := by
  induction bs generalizing k with
  | nil => simp [byteEnts]
  | cons b bs ih =>
    intro e he
    simp only [byteEnts] at he
    split at he
    · have := ih (k + 1) e he
      simp only [List.length_cons]
      exact ⟨by omega, this.2⟩
    · simp only [List.mem_cons] at he
      rcases he with rfl | he
      · simp only [List.length_cons]
        exact ⟨by omega, ‹_›⟩
      · have := ih (k + 1) e he
        simp only [List.length_cons]
        exact ⟨by omega, this.2⟩

/-- Two rising tables, the second beyond the first, make a rising table. -/
theorem rises_append {lo hi : Nat} {a b : Tab α} (ha : Tab.risesFrom lo a = true) (hb : Tab.risesFrom hi b = true) (hlo : lo ≤ hi)
    (h : ∀ e ∈ a, e.1 < hi) : Tab.risesFrom lo (a ++ b) = true := by
  induction a generalizing lo with
  | nil => exact Tab.rises_le hlo hb
  | cons e a ih =>
    simp only [Tab.risesFrom, Bool.and_eq_true, decide_eq_true_eq] at ha
    simp only [List.cons_append, Tab.risesFrom, Bool.and_eq_true, decide_eq_true_eq]
    have he := h e (by simp)
    exact ⟨ha.1, ih ha.2 (by omega) (fun x hx => h x (by simp [hx]))⟩

theorem rises_tkeep_from {lo k : Nat} {t : Tab α} (ht : Tab.risesFrom lo t = true) :
    Tab.risesFrom k (tkeep t fun j => decide (k ≤ j)) = true := by
  induction t generalizing lo with
  | nil => rfl
  | cons e t ih =>
    simp only [Tab.risesFrom, Bool.and_eq_true, decide_eq_true_eq] at ht
    simp only [tkeep, List.filter]
    split
    · rename_i hk
      simp only [Tab.risesFrom, Bool.and_eq_true]
      refine ⟨hk, ?_⟩
      exact rises_filter _ ht.2
    · exact ih ht.2

/-- Writing consecutive bytes keeps the canonical form. -/
theorem wf_putBytes {t : Tab Byte} {k : Nat} {bs : Bytes} (h : Tab.wf 0 t = true) : Tab.wf 0 (putBytes t k bs) = true := by
  simp only [Tab.wf, Bool.and_eq_true] at h ⊢
  unfold putBytes
  constructor
  · refine rises_append (hi := k + bs.length) ?_ (rises_tkeep_from h.1) (by omega) ?_
    · refine rises_append (hi := k) (rises_filter _ h.1) (rises_byteEnts k bs) (by omega) ?_
      intro e he
      simp only [tkeep, List.mem_filter, decide_eq_true_eq] at he
      exact he.2
    · intro e he
      simp only [List.mem_append] at he
      rcases he with he | he
      · simp only [tkeep, List.mem_filter, decide_eq_true_eq] at he
        omega
      · exact (byteEnts_lt k bs e he).1
  · simp only [List.all_append, Bool.and_eq_true]
    refine ⟨⟨all_filter h.2, ?_⟩, all_filter h.2⟩
    simp only [List.all_eq_true, decide_eq_true_eq]
    exact fun e he => (byteEnts_lt k bs e he).2

theorem shiftRange_rises {t : Tab Byte} {lo k n dest : Nat} (h : Tab.risesFrom lo t = true) : Tab.risesFrom dest (shiftRange t k n dest) = true := by
  suffices ∀ (t : Tab Byte) (lo : Nat), Tab.risesFrom lo t = true → Tab.risesFrom (dest + (lo - k)) (shiftRange t k n dest) = true from
    Tab.rises_le (by omega) (this t lo h)
  intro t
  induction t with
  | nil => intros; rfl
  | cons e t ih =>
    intro lo h
    simp only [Tab.risesFrom, Bool.and_eq_true, decide_eq_true_eq] at h
    have rest := ih (e.1 + 1) h.2
    simp only [shiftRange, tkeep, List.filter] at rest ⊢
    split
    · rename_i hk
      simp only [Bool.and_eq_true, decide_eq_true_eq] at hk
      simp only [List.map_cons, Tab.risesFrom, Bool.and_eq_true, decide_eq_true_eq]
      exact ⟨by omega, Tab.rises_le (by omega) rest⟩
    · exact Tab.rises_le (by omega) rest

theorem shiftRange_lt {t : Tab Byte} {k n dest : Nat} : ∀ e ∈ shiftRange t k n dest, dest ≤ e.1 ∧ e.1 < dest + n := by
  intro e he
  simp only [shiftRange, tkeep, List.mem_map, List.mem_filter, Bool.and_eq_true, decide_eq_true_eq] at he
  obtain ⟨x, ⟨_, hx⟩, rfl⟩ := he
  simp only
  omega

/-- Copying a run of bytes keeps the canonical form. -/
theorem wf_copyRange {src dst : Tab Byte} {k n dest : Nat} (hs : Tab.wf 0 src = true) (hd : Tab.wf 0 dst = true) :
    Tab.wf 0 (copyRange src dst k n dest) = true := by
  simp only [Tab.wf, Bool.and_eq_true] at hs hd ⊢
  unfold copyRange
  constructor
  · refine rises_append (hi := dest + n) ?_ (rises_tkeep_from hd.1) (by omega) (fun e he => ?_)
    · refine rises_append (hi := dest) (rises_filter _ hd.1) (shiftRange_rises hs.1) (by omega) (fun e he => ?_)
      simp only [tkeep, List.mem_filter, decide_eq_true_eq] at he
      exact he.2
    · simp only [List.mem_append] at he
      rcases he with he | he
      · simp only [tkeep, List.mem_filter, decide_eq_true_eq] at he
        omega
      · exact (shiftRange_lt e he).2
  · simp only [List.all_append, Bool.and_eq_true]
    refine ⟨⟨all_filter hd.2, ?_⟩, all_filter hd.2⟩
    simp only [List.all_eq_true, shiftRange, List.mem_map, tkeep, List.mem_filter] at hs ⊢
    rintro e ⟨x, ⟨hx, _⟩, rfl⟩
    exact hs.2 x hx

/-- Clearing a run of bytes keeps the canonical form. -/
theorem wf_clearBytes {t : Tab Byte} {k n : Nat} (h : Tab.wf 0 t = true) : Tab.wf 0 (clearBytes t k n) = true := wf_tkeep h

/-- The memory of the module right after reset is in canonical form. -/
theorem wf_reset : Tab.wf 0 State.reset.frm = true ∧ Tab.wf 0 State.reset.low = true := ⟨rfl, rfl⟩

end Sys2Proof.Machine
end

