-- ==== Sys2Proof/Laws/Regs.lean ====
section
/-!
SUPPORT. Laws of the stored registers: a write stores the bits that the register keeps, leaves the others alone, and keeps the canonical
form of the register file.
-/
namespace Sys2Proof.Machine
open Sys2Proof

theorem and_mask_idem (v m : Nat) : (v &&& m) &&& m = v &&& m := by rw [Nat.and_assoc, Nat.and_self]

/-- Storing a value under its mask keeps the canonical form of the registers. -/
theorem regsWf_tset {t : Tab Nat} {off v : Nat} (h : regsWf t = true) :
    regsWf (tset (regReset off) t off (v &&& regMask off)) = true := by
  simp only [regsWf, Bool.and_eq_true] at h ⊢
  unfold tset
  split
  · exact ⟨rises_tdel h.1, all_tdel h.2⟩
  · exact ⟨rises_tput _ (by omega) h.1, all_tput (by simp [‹_›]) h.2⟩

/-- Every write of a register keeps the canonical form. -/
theorem setReg_wf {s : State} {off v : Nat} (h : regsWf s.regs = true) : regsWf (s.setReg off v).regs = true := regsWf_tset h

theorem regsWf_rises {t : Tab Nat} (h : regsWf t = true) : Tab.risesFrom 0 t = true := by
  simp only [regsWf, Bool.and_eq_true] at h
  exact h.1

/-- A register written reads as the bits it keeps (R10). -/
@[simp] theorem reg_setReg_same (s : State) (off v : Nat) : (s.setReg off v).reg off = v &&& regMask off := tget_tset_same _ _ _ _

/-- Every other register reads as before. -/
theorem reg_setReg_other (s : State) {off k : Nat} (v : Nat) (hk : k ≠ off) : (s.setReg off v).reg k = s.reg k := by
  unfold State.reg
  show tget (regReset k) (tset (regReset off) s.regs off (v &&& regMask off)) k = _
  unfold tget tset
  split
  · rw [tfind_tdel_other _ hk]
  · rw [tfind_tput_other _ _ hk]

end Sys2Proof.Machine
end

