-- ==== Sys2Proof/WellFormed.lean ====
section
/-! DEFINITION. Which commands are well formed: every operand that names a unit, a port or an offset lies in the range the spec
gives it, and bytes read for a descriptor are whole entries. A meaning is total all the same. -/
namespace Sys2Proof

/-- Bytes read from host memory: exactly `n` of them where `n` is not 0. -/
def Dma.wf (n : Nat) : Dma → Bool
  | .ok bytes => decide (n = 0) || decide (bytes.length = n)
  | _ => true

/-- A management path names one of the eight logical devices (Table 15-5). -/
def MPath.wf : MPath → Bool
  | .mailbox ld => decide (ld < 8)
  | .doe ld => decide (ld < 8)
  | _ => true

/-- Field widths of a frame header (Table 18-2). -/
def Frame.wf (f : Frame) : Bool :=
  decide (f.typ < 65536) && decide (f.chan < 16) && decide (f.colour < 4) && decide (f.hdrVer < 256) && decide (f.wing < 16)
    && decide (f.epoch < 4294967296) && decide (f.seq < 4294967296) && decide (f.tag < 4294967296)
    && decide (f.deadline < 4294967296) && decide (f.args.length = 40) && decide (f.payload.length ≤ 4096)

/-- A CXL.mem write carries one 64-byte line (R280). -/
def LineWrite.wf (l : LineWrite) : Bool := decide (l.data.length = 64)

/-- Sensors that exist (Table 19-9): four Hall dies, four Gate and Cellar dies, twelve stacks, 64 NAND packages at most. -/
def Sensor.wf : Sensor → Bool
  | .hall i => decide (i < 4)
  | .gateCellar i => decide (i < 4)
  | .floor i => decide (i < 12)
  | .nand i => decide (i < 64)
  | .inlet => true

/-- Lines that patrol scrub reads (R495). -/
def ScrubLine.wf : ScrubLine → Bool
  | .range wing addr => decide (wing < 16) && decide (addr < 4503599627370496)
  | .coll wing handle _ => decide (wing < 16) && decide (handle < 4096)
  | .sess wing handle _ => decide (wing < 16) && decide (handle < 16384)
  | .emb wing handle _ => decide (wing < 16) && decide (handle < 65536)
  | .internal stack => decide (stack < 12)
  | .store brick addr => decide (brick < 256) && decide (addr < 4718592)
  | .hub => true

/-- Well-formed commands. -/
def Instr.wf : Instr → Bool
  | .regWrite src bar off _ val => decide (src < 9) && (decide (bar = 0) || decide (bar = 2) || decide (bar = 4)) && decide (off < 8388608) && decide (val < 18446744073709551616)
  | .regWriteLowHalfHold src off val => decide (src < 9) && decide (off < 8388608) && decide (val < 18446744073709551616)
  | .regReadLowHalfCapture src off => decide (src < 9) && decide (off < 8388608)
  | .mctpRegisterAccess _ off _ val => decide (off < 8388608) && decide (val < 18446744073709551616)
  | .counterSnap src off _ => decide (src < 9) && decide (off < 8388608)
  | .counterClear src off => decide (src < 9) && decide (off < 8388608)
  | .beatEdge => true
  | .beatWindowClose => true
  | .beatGeneratedBoundary => true
  | .beatBoundary => true
  | .beatNextWrite src val => decide (src < 9) && decide (val < 18446744073709551616)
  | .beatCfgWrite src val => decide (src < 9) && decide (val < 18446744073709551616)
  | .beatAnnounceSend => true
  | .sliceResume wing _ => decide (wing < 16)
  | .policerTickRefill => true
  | .hpBwWindowEnd port => decide (port < 8)
  | .descriptorTimeout _ => true
  | .brickWatchdogExpiry brick => decide (brick < 256)
  | .hkWatchdogExpiry => true
  | .cellarBackgroundSchedule => true
  | .tempHistoryHour _ => true
  | .descriptorFetch raw cont => raw.wf 128 && decide (cont.length % 128 = 0)
  | .descriptorAdmit _ => true
  | .nopDescriptor _ => true
  | .cqEntrySend wing cq => decide (wing < 16) && decide (cq < 64)
  | .msixCoalesceExpiry wing cq => decide (wing < 16) && decide (cq < 64)
  | .sqDoorbell port wing ring val => decide (port < 8) && decide (wing < 16) && decide (ring < 64) && decide (val < 18446744073709551616)
  | .cqDoorbell port wing ring val => decide (port < 8) && decide (wing < 16) && decide (ring < 64) && decide (val < 18446744073709551616)
  | .enableWriteOn src _ wing ring => decide (src < 9) && decide (wing < 16) && decide (ring < 64)
  | .enableWriteOff src _ wing ring => decide (src < 9) && decide (wing < 16) && decide (ring < 64)
  | .enableDrainEnd _ wing ring => decide (wing < 16) && decide (ring < 64)
  | .sqAbort src wing ring => decide (src < 9) && decide (wing < 16) && decide (ring < 64)
  | .wngAbort src wing => decide (src < 9) && decide (wing < 16)
  | .collCreate _ => true
  | .collLoad _ src => src.wf 0
  | .collOpen _ => true
  | .collValidationDone _ => true
  | .collDescribe _ => true
  | .collDestroy _ => true
  | .collDrainDone wing _ => decide (wing < 16)
  | .graphSearch _ query filt => query.wf 0 && filt.wf 0
  | .flatScan _ query filt ranges => query.wf 0 && filt.wf 0 && ranges.wf 0
  | .slotGrant _ => true
  | .seedShard _ _ shard => decide (shard < 16)
  | .expandStep _ _ shard => decide (shard < 16)
  | .flatScanPage _ _ shard => decide (shard < 16)
  | .stackHandoffResult _ _ shard => decide (shard < 16)
  | .mantelMergePass _ _ shard => decide (shard < 16)
  | .refineReadReturn _ _ shard _ _ => decide (shard < 16)
  | .joinLists _ => true
  | .vecInsert _ src => src.wf 0
  | .vecDelete _ src => src.wf 0
  | .stagingSweep wing _ => decide (wing < 16)
  | .versionPublish _ => true
  | .csetDiscard _ => true
  | .versionRetire _ => true
  | .mortarMerge wing _ _ => decide (wing < 16)
  | .mortarTombApply wing _ _ => decide (wing < 16)
  | .mortarRepairSweep wing _ shard => decide (wing < 16) && decide (shard < 16)
  | .mortarPause src die _ => decide (src < 9) && decide (die < 4)
  | .memAttend _ query loc => query.wf 0 && loc.wf 0
  | .kvCreate _ => true
  | .kvAppend _ src => src.wf 0
  | .kvAttend _ query loc => query.wf 0 && loc.wf 0
  | .kvPrefetch _ => true
  | .kvTruncate _ => true
  | .kvDestroy _ => true
  | .ringAttend _ query => query.wf 0
  | .kvSpill wing _ _ shard => decide (wing < 16) && decide (shard < 16)
  | .kvPrefetchHoldExpiry wing _ _ shard _ => decide (wing < 16) && decide (shard < 16)
  | .opAdd brick => decide (brick < 256)
  | .opSub brick => decide (brick < 256)
  | .opAnd brick => decide (brick < 256)
  | .opOr brick => decide (brick < 256)
  | .opXor brick => decide (brick < 256)
  | .opShl brick => decide (brick < 256)
  | .opShr brick => decide (brick < 256)
  | .opSar brick => decide (brick < 256)
  | .opMul brick => decide (brick < 256)
  | .opAddi brick => decide (brick < 256)
  | .opMovhi brick => decide (brick < 256)
  | .opSlt brick => decide (brick < 256)
  | .opSltu brick => decide (brick < 256)
  | .opSeq brick => decide (brick < 256)
  | .opLd brick => decide (brick < 256)
  | .opSt brick => decide (brick < 256)
  | .opLdw brick => decide (brick < 256)
  | .opStw brick => decide (brick < 256)
  | .opBeqz brick => decide (brick < 256)
  | .opBnez brick => decide (brick < 256)
  | .opJal brick => decide (brick < 256)
  | .opJr brick => decide (brick < 256)
  | .opHalt brick => decide (brick < 256)
  | .opWdog brick => decide (brick < 256)
  | .opRdcyc brick => decide (brick < 256)
  | .opRdbeat brick => decide (brick < 256)
  | .opFence brick => decide (brick < 256)
  | .opClrsat brick => decide (brick < 256)
  | .opSig brick => decide (brick < 256)
  | .opWait brick => decide (brick < 256)
  | .opTry brick => decide (brick < 256)
  | .opRdl brick => decide (brick < 256)
  | .opSetl brick => decide (brick < 256)
  | .opMma8 brick => decide (brick < 256)
  | .opMmaf8 brick => decide (brick < 256)
  | .opMmab brick => decide (brick < 256)
  | .opAzero brick => decide (brick < 256)
  | .opAst brick => decide (brick < 256)
  | .opCbset brick => decide (brick < 256)
  | .opLdot brick => decide (brick < 256)
  | .opDeq brick => decide (brick < 256)
  | .opQuant brick => decide (brick < 256)
  | .opQpriv brick => decide (brick < 256)
  | .opRescale brick => decide (brick < 256)
  | .opVld brick => decide (brick < 256)
  | .opVst brick => decide (brick < 256)
  | .opVop brick => decide (brick < 256)
  | .opVred brick => decide (brick < 256)
  | .opMget brick => decide (brick < 256)
  | .opMput brick => decide (brick < 256)
  | .opMgather brick => decide (brick < 256)
  | .opMfill brick => decide (brick < 256)
  | .opPsend brick => decide (brick < 256)
  | .opPhead brick => decide (brick < 256)
  | .opPtake brick => decide (brick < 256)
  | .opPdrop brick => decide (brick < 256)
  | .opPbind brick => decide (brick < 256)
  | .postPacketDeliver _ => true
  | .progLoad _ src => src.wf 0
  | .progStart _ => true
  | .progWait _ => true
  | .progStop _ => true
  | .progPost _ src => src.wf 0
  | .progUnload _ => true
  | .textCut _ src => src.wf 0
  | .vocabLoad _ src => src.wf 0
  | .vocabDrop _ => true
  | .streamOpen _ src => src.wf 0
  | .streamFeed _ src => src.wf 0
  | .streamClose _ => true
  | .draftSource _ src => src.wf 0
  | .draftPropose _ => true
  | .tierAlloc _ => true
  | .tierAllocZeroDone _ => true
  | .tierFree _ => true
  | .tierFreeRelease _ => true
  | .tierPin _ => true
  | .tierPinRetry _ => true
  | .cxlMemRead port dpa tag _ _ => decide (port < 8) && decide (dpa < 35184372088832) && decide (tag < 65536)
  | .cxlMemWrite port dpa tag line _ => decide (port < 8) && decide (dpa < 35184372088832) && decide (tag < 65536) && line.wf
  | .pageFillDone wing _ => decide (wing < 16)
  | .writeBackDone wing _ => decide (wing < 16)
  | .backgroundClean wing _ => decide (wing < 16)
  | .tierAccessLate _ => true
  | .tptPeekAddrWrite src val => decide (src < 9) && decide (val < 18446744073709551616)
  | .stkOpen _ => true
  | .stkOpenCheckDone _ _ => true
  | .stkSeal _ => true
  | .stkSealDone stack _ => decide (stack < 12)
  | .stkScan _ aux => aux.wf 0
  | .stkBitmap _ aux => aux.wf 0
  | .stkAdd _ rows aux => rows.wf 0 && aux.wf 0
  | .stkReduce _ => true
  | .stkCopy _ => true
  | .stkFill _ => true
  | .stkOpDispatch stack => decide (stack < 12)
  | .bankSliceEnd stack _ => decide (stack < 12)
  | .refreshDue stack _ => decide (stack < 12)
  | .stkOpComplete stack _ => decide (stack < 12)
  | .wngFlushDoneWrite src wing val => decide (src < 9) && decide (wing < 16) && decide (val < 18446744073709551616)
  | .stkRegionSelWrite src stack val => decide (src < 9) && decide (stack < 12) && decide (val < 18446744073709551616)
  | .embCreate _ => true
  | .embWrite _ src => src.wf 0
  | .embDestroy _ => true
  | .embGather _ idx next => idx.wf 0 && next.wf 0
  | .embUpdate _ src => src.wf 0
  | .pantrySet _ src => src.wf 0
  | .embMigrate _ src => src.wf 0
  | .embStats _ => true
  | .celDiscard _ => true
  | .celSync _ => true
  | .celCommitDone _ => true
  | .celHealth _ => true
  | .celShutdown src => decide (src < 9)
  | .celShutdownComplete => true
  | .flashOpIssue _ => true
  | .flashReadDone _ _ _ => true
  | .flashProgramDone _ _ => true
  | .garbageCollect _ => true
  | .readRelocate _ => true
  | .mapSegmentWrite => true
  | .journalWrite => true
  | .journalFlushTimer => true
  | .cellarMountDone _ => true
  | .linkTrainDone _ _ _ => true
  | .bisnpResponse _ _ => true
  | .biSnoopTimeout _ => true
  | .hpCtrlFail src port => decide (src < 9) && decide (port < 8)
  | .hpEnWrite src port _ => decide (src < 9) && decide (port < 8)
  | .hpDrainEnd port => decide (port < 8)
  | .hpGrantWrite src port val => decide (src < 9) && decide (port < 8) && decide (val < 18446744073709551616)
  | .hpWinValidSet src port win val => decide (src < 9) && decide (port < 8) && decide (win < 16) && decide (val < 18446744073709551616)
  | .hpWinValidClear src port win val => decide (src < 9) && decide (port < 8) && decide (win < 16) && decide (val < 18446744073709551616)
  | .hostHandover _ => true
  | .linkDown => true
  | .perstAssert => true
  | .perstRelease => true
  | .ldReset port => decide (port < 8)
  | .getLdInfo path => path.wf
  | .getLdAllocations path => path.wf
  | .getQosControl path => path.wf
  | .getQosStatus path => path.wf
  | .getQosAllocatedBw path => path.wf
  | .getQosBwLimit path port => path.wf && decide (port < 8)
  | .setQosBwLimit path port _ den => path.wf && decide (port < 8) && decide (0 < den)
  | .setLdAllocations path => path.wf
  | .setQosControl path => path.wf
  | .setQosAllocatedBw path => path.wf
  | .unsupportedCommand path _ => path.wf
  | .identify path ld => path.wf && decide (ld < 8)
  | .getHealthInfo path ld => path.wf && decide (ld < 8)
  | .getEventRecords path ld log => path.wf && decide (ld < 8) && decide (log < 4)
  | .clearEventRecords path ld log _ => path.wf && decide (ld < 8) && decide (log < 4)
  | .setEventInterruptPolicy path _ => path.wf
  | .policerConfigWrite src off val => decide (src < 9) && decide (off < 8388608) && decide (val < 18446744073709551616)
  | .wngBrickWrite src wing n val => decide (src < 9) && decide (wing < 16) && decide (n < 4) && decide (val < 18446744073709551616)
  | .bpEnWrite src port _ => decide (src < 9) && decide (port < 6)
  | .bpDrainEnd port => decide (port < 6)
  | .bpRetrain src port => decide (src < 9) && decide (port < 6)
  | .bruviaLinkDown port => decide (port < 6)
  | .bruviaTrainDone port => decide (port < 6)
  | .flitCrcFail port _ => decide (port < 6)
  | .bruviaAckTimeout port => decide (port < 6)
  | .linkCtlSendTimer port => decide (port < 6)
  | .bruviaLostTimeout port => decide (port < 6)
  | .idleFrame port frame => decide (port < 6) && frame.wf
  | .linkCtl port frame => decide (port < 6) && frame.wf
  | .epochFrame port frame => decide (port < 6) && frame.wf
  | .identHello port frame => decide (port < 6) && frame.wf
  | .identProof port frame => decide (port < 6) && frame.wf
  | .identVerifyDone port _ => decide (port < 6)
  | .beatAnnounce port frame => decide (port < 6) && frame.wf
  | .healthFrame port frame => decide (port < 6) && frame.wf
  | .healthSend port => decide (port < 6)
  | .annexGrantReq port frame => decide (port < 6) && frame.wf
  | .annexGrant port frame => decide (port < 6) && frame.wf
  | .annexRelease port frame => decide (port < 6) && frame.wf
  | .refuseFrame port frame => decide (port < 6) && frame.wf
  | .fanoutFrame port frame => decide (port < 6) && frame.wf
  | .resultPart port frame => decide (port < 6) && frame.wf
  | .ringBlock port frame => decide (port < 6) && frame.wf
  | .annexRd port frame => decide (port < 6) && frame.wf
  | .annexWr port frame => decide (port < 6) && frame.wf
  | .annexRowRd port frame => decide (port < 6) && frame.wf
  | .annexAtom port frame => decide (port < 6) && frame.wf
  | .rowMigrate port frame => decide (port < 6) && frame.wf
  | .inputStartThreshold => true
  | .pwrEnAssert => true
  | .pwrEnDeassert => true
  | .powerUpDelayExpiry => true
  | .railsGood straps => decide (straps < 4)
  | .powerFailure => true
  | .flushComplete => true
  | .bankCharged => true
  | .bankMeasure _ => true
  | .bankOkTimeout => true
  | .powerSample _ _ _ => true
  | .thermalThreshold sensor _ => sensor.wf
  | .thermalTrip sensor => sensor.wf
  | .imageVerifyDone _ => true
  | .floorTrainDone _ => true
  | .getFwInfo path => path.wf
  | .transferFw path _ _ _ _ => path.wf
  | .bootAreaWriteDone => true
  | .activateFw path _ _ => path.wf
  | .profSetFirstWord src val => decide (src < 9) && decide (val < 18446744073709551616)
  | .profSetSubmit src val => decide (src < 9) && decide (val < 18446744073709551616)
  | .rstCtrlModule src key => decide (src < 9) && decide (key < 256)
  | .mctpModuleReset => true
  | .glbSetupClose src => decide (src < 9)
  | .getVersion path => path.wf
  | .getCapabilities path => path.wf
  | .negotiateAlgorithms path => path.wf
  | .getDigests path => path.wf
  | .getCertificate path _ _ _ => path.wf
  | .challenge path _ => path.wf
  | .getMeasurements path _ _ => path.wf
  | .spdmSignDone => true
  | .stackRecover src stack _ => decide (src < 9) && decide (stack < 12)
  | .channelRecover src channel _ => decide (src < 9) && decide (channel < 32)
  | .channelTrainDone channel _ => decide (channel < 32)
  | .errInjectArm src val => decide (src < 9) && decide (val < 18446744073709551616)
  | .patrolScrub line _ => line.wf
  | .fatalStop _ => true
  | .wngErrEnable src wing val => decide (src < 9) && decide (wing < 16) && decide (val < 18446744073709551616)
  | .bruviaSignalDetect port => decide (port < 6)

end Sys2Proof
end

