-- ==== Sys2Proof/Tests/Slice0.lean ====
section
/-!
SUPPORT. Checks of the author's work: one ill-formed term for each check of well-formed commands, a few steps with results that the spec
gives, and for each statement with hypotheses a concrete state and operands that meet them.
-/
namespace Sys2Proof.Tests
set_option Elab.async false
open Sys2Proof Sys2Proof.Machine

/-! ## Small states and descriptors -/

/-- A module that is READY, its host link up, wing 0 granted to host port 0. -/
def up : State :=
  { State.reset with
    cyc := 2000000, regs := [(hpReg 0 0x10, 1)], link := { trained := true, everTrained := true, width := 16, rate := 3, cxl := true }
    power := { input := true, pwrEn := true, rails := .good, perst := false, bankOk := true }, boot := { phase := 6, hkImage := some [] } }

/-- 128 bytes with fields at offsets, as (offset, bytes, value). -/
def raw (l : List (Nat × Nat × Nat)) : Bytes :=
  l.foldl (fun bs x => bs.take x.1 ++ natLe x.2.2 x.2.1 ++ bs.drop (x.1 + x.2.1)) (List.replicate 128 0)

/-- A descriptor of wing 0 and ring 0 with an opcode and fields, ready for its checks. -/
def fl (op : Nat) (l : List (Nat × Nat × Nat)) : Flight :=
  { fid := 1, wing := 0, sq := 0, seq := 0, raw := raw ((0, 2, op) :: l), cls := 1, timeoutUs := 1000 }

/-- The same descriptor, admitted in cycle 5. -/
def act (op : Nat) (l : List (Nat × Nat × Nat)) : Flight := { fl op l with phase := .active, admitCyc := some 5 }

/-- A state in which one descriptor is in flight. -/
def holding (s : State) (f : Flight) : State := { s with flights := [f], nextId := 2 }

/-! ## Concrete states that meet the hypotheses of the statements -/

theorem witness_IdleStepPassesOneCycle : State.reset.pending = [] ∧ State.reset.power.rails ≠ .good ∧ up.pending = [] ∧ up.power.rails = .good ∧
    up.sliceEnd = [] ∧ up.refreshTill = [] ∧ up.progs = [] := by decide +kernel

theorem witness_ExecKeepsQueue : ∃ t, exec .perstRelease { up with pending := [.perstAssert] } = .next t := ⟨_, rfl⟩

theorem witness_StepKeepsRegisterForm : Safe up ∧ ∃ t, step up = .next t := ⟨by unfold Safe; decide +kernel, _, rfl⟩

theorem up_hears : Hearing up 0 ∧ Hearing up 8 := by unfold Hearing; decide +kernel

theorem up_setup : SetUpHeard up 0 := ⟨up_hears.1, .inl rfl⟩

theorem up_port : PortHeard up 0 := ⟨up_setup, rfl⟩

theorem up_wing (w : Nat) : WingHeard up 0 w := ⟨up_hears.1, .inl rfl, rfl⟩

theorem up_reg (s : State) (off : Nat) (h0 : Hearing s 0 ∧ Hearing s 8) (hr : s.boot.phase = 6) (h : (match (locate off).1 with
    | .none => false
    | _ => true) = true) : RegHeard s 0 off ∧ RegHeard s 8 off := by
  unfold RegHeard RegSeen Reaches
  cases hl : (locate off).1 <;> simp_all

theorem witness_RegisterWriteStoresKeptBits : HasWidth (wngReg 15 0x3810) 32 ∧ RegHeard up 0 (wngReg 15 0x3810) ∧
    Stores up (wngReg 15 0x3810) (2 ^ 32 - 1) ∧ HasWidth (sqReg 15 63 0) 64 ∧ sqReg 15 63 0 % 8 = 0 ∧ RegHeard up 0 (sqReg 15 63 0) ∧
    Stores up (sqReg 15 63 0) (2 ^ 64 - 1) ∧ SetUpHeard up 0 ∧ bit 1 0 = true :=
  ⟨by unfold HasWidth; decide +kernel, (up_reg _ _ up_hears rfl (by decide +kernel)).1, by
    unfold Stores; iterate 9 right
    exact ⟨15, by decide, by decide +kernel⟩, by unfold HasWidth; decide +kernel, by decide +kernel, (up_reg _ _ up_hears rfl (by decide +kernel)).1, by
    unfold Stores; iterate 7 right
    left; exact ⟨15, 63, by decide +kernel⟩, up_setup, rfl⟩

theorem witness_ReadCapturesOtherHalf : RegSeen up 0 (sqReg 0 0 0) ∧ HasWidth (sqReg 0 0 0) 64 ∧ sqReg 0 0 0 % 4 = 0 ∧
    RegSeen up 8 (sqReg 0 0 0) ∧ RegHeard up 8 (wngReg 15 0x3810) ∧ Stores up (wngReg 15 0x3810) 5 :=
  ⟨(up_reg _ _ up_hears rfl (by decide +kernel)).1.1, by unfold HasWidth; decide +kernel, by decide +kernel, (up_reg _ _ up_hears rfl (by decide +kernel)).2.1,
   (up_reg _ _ up_hears rfl (by decide +kernel)).2, by
    unfold Stores; iterate 9 right
    exact ⟨15, by decide, by decide +kernel⟩⟩

/-- A module that counted one frame on Bruvia port 0. -/
def counted : State := { up with live := [(bpReg 0 0x48, 1)] }

theorem witness_SnapTakesAndClearZeroesCounters : RegHeard counted 0 (bpReg 0 0) ∧ isCtrl (bpReg 0 0) = true ∧
    coversAt (bpReg 0 0) (bpReg 0 0x48) = true ∧ (tfind counted.live (bpReg 0 0x48)).isSome = true ∧
    coversAt (bpReg 0 0) (bpReg 0 0x40) = true ∧ tfind counted.live (bpReg 0 0x40) = none ∧
    coversAt (bpReg 0 0) 0xC0 = false := ⟨(up_reg counted _ up_hears rfl (by decide +kernel)).1, by decide +kernel⟩

theorem witness_WingWriteBeforeReadyIsViolation : let s := { up with boot := { phase := 5 } }
    Hearing s 0 ∧ Reaches s 0 15 ∧ s.boot.phase ≠ 6 := by unfold Hearing Reaches; decide +kernel

theorem witness_MeterAndBrickSettings : WingHeard up 0 15 ∧
    (up.setReg (wngReg 15 0x27D0) 0).meterOk 15 (meterSet 0x27D0) (meterClass 0x27D0) = true ∧
    (up.setReg (wngReg 0 0x2400) 5).meterOk 0 (meterSet 0x2400) (meterClass 0x2400) = false ∧ up.wingSt 0 = .disabled ∧ up.wingLoaded 0 = false ∧
    (∀ i, i < 64 → bit (2 ^ 40) i = true → up.mayAllot 0 (64 * 0 + i) = true) ∧ up.polTicks * 1500 ≤ up.cyc := ⟨up_wing 15, by decide +kernel⟩

/-- A module whose beat receiver and references are given. -/
def beatAt (rx : RxState) (prev refT qual : Nat) : State := { up with beat := { rx, prevEdge := prev, refT, qual } }

theorem witness_BeatEdgesQualifyAndLock : up.power.rails = .good ∧ up.beat.rx = .free ∧
    ((beatAt .reacq 0 0 0).beat.prevEdge + 24 * 1000000 ≤ 16 * up.cyc + 3 * 1000000 ∧
      ¬ 16 * up.cyc ≤ (beatAt .reacq 0 0 0).beat.prevEdge + 24 * 1000000 + 3 * 1000000) ∧
    ((beatAt .reacq 8000000 0 4).beat.prevEdge + 24 * 1000000 ≤ 16 * up.cyc + 3 * 1000000 ∧
      16 * up.cyc ≤ (beatAt .reacq 8000000 0 4).beat.prevEdge + 24 * 1000000 + 3 * 1000000) ∧
    ((beatAt .locked 0 8000000 0).beat.refT + 24 * 1000000 ≤ 16 * up.cyc + 3 * 1000000 ∧
      16 * up.cyc ≤ (beatAt .locked 0 8000000 0).beat.refT + 24 * 1000000 + 3 * 1000000) ∧
    (16 * up.cyc + 3 * 1000000 < (beatAt .locked 0 11000001 0).beat.refT + 24 * 1000000) ∧
    ((beatAt .locked 0 4999999 0).beat.refT + 27 * 1000000 < 16 * up.cyc) ∧
    ((beatAt .free 0 8000000 0).beat.refT + 24 * 1000000 = 16 * up.cyc) := by decide +kernel

/-- A module with a referenced boundary that is due, at beat 7, with an offer of beat 9 heard on port 0 before it. -/
def atBoundary : State :=
  { up with beat := { up.beat with rx := .locked, number := some 7, pend := [{ due := 1000, relock := true }], offers := [{ cyc := 10, n := 9, port := 0 }] } }

theorem witness_BoundarySetsBeatNumber : atBoundary.beat.pend = { due := 1000, relock := true } :: [] ∧ atBoundary.power.rails = .good ∧
    (1000 : Nat) ≤ atBoundary.cyc ∧ atBoundary.beat.offered 1000 = some { cyc := 10, n := 9, port := 0 } ∧ atBoundary.beat.number = some 7 ∧
    (let b := { atBoundary.beat with offers := [], held := 1 }
     b.offered 1000 = none ∧ b.number = some 7 ∧ 0 < b.held) ∧
    (let b := { atBoundary.beat with offers := [], number := none }
     b.offered 1000 = none ∧ b.number = none) ∧ atBoundary.beat.unconf = false := by decide +kernel

theorem witness_BeatNumberNeverDecreases : atBoundary.beat.number = some 7 ∧ ∃ t, exec (.beatNextWrite 0 3) atBoundary = .next t :=
  ⟨rfl, _, rfl⟩

theorem witness_BeatPeriodWrite : SetUpHeard up 0 ∧ 10000 ≤ bits 10000000 23 0 ∧ bits 10000000 23 0 ≤ 10000000 ∧
    bits 9999 23 0 < 10000 ∧ 10000000 < bits 10000001 23 0 ∧ atBoundary.beat.pend = { due := 1000, relock := true } :: [] ∧
    atBoundary.power.rails = .good ∧ (1000 : Nat) ≤ atBoundary.cyc := ⟨up_setup, by decide +kernel⟩

theorem witness_OffersAndAnnounces : SetUpHeard up 0 ∧ atBoundary.beat.number = some 7 ∧ atBoundary.beat.kept = false ∧
    atBoundary.beat.announced = false ∧ atBoundary.err.fatal = false ∧ 24 * atBoundary.beat.periodNs ≤ 32 * atBoundary.beatPos ∧
    ∀ p, p < 6 → bit (atBoundary.reg 0x80) (32 + p) = true → (atBoundary.bp p).link ≠ .up := ⟨up_setup, by decide +kernel⟩

/-- A READY module whose wing 0, ring 0 and completion ring 0 are ENABLED, with one entry to fetch. -/
def fetching : State :=
  { up with
    wings := [(0, .enabled)], sqs := [(0, { en := .enabled, tail := 1 })], cqs := [(0, { en := .enabled })], ports := [(0, { st := .enabled })] }

/-- A NOP descriptor of class 7. -/
def nopRaw : Bytes := raw [(0, 2, 0x900), (2, 1, 7), (3, 1, 1)]

theorem witness_FetchTakesNextDescriptor : fetching.nextFetch = some (0, 0) ∧ 0 < fetching.sqAvail 0 0 ∧
    fetching.contCount 0 (slice nopRaw 0 128) = some 0 ∧ headerOk (fetching.sqCfg 0 0) (slice nopRaw 0 128) = true ∧
    (fetching.police 0 0 (hTc (slice nopRaw 0 128)) 128 (hColour (slice nopRaw 0 128))).2.drop = false ∧
    (∀ g ∈ fetching.flights, g.fid ≠ fetching.nextId) ∧ headerOk (fetching.sqCfg 0 0) (slice (raw [(0, 2, 0x900)]) 0 128) = false ∧
    fetching.contCount 0 (slice (raw [(0, 2, 0x900)]) 0 128) = some 0 ∧
    (let f := { fl 0x900 [] with phase := .held }
     let s := holding fetching f
     s.flight? 1 = some f ∧ f.phase = .held ∧ s.isHeld f = false ∧ s.chainNow f.wing f.sq f.chain ≠ .failed) ∧
    (let f := { fl 0x900 [] with phase := .held, chain := .failed }
     (holding fetching f).flight? 1 = some f ∧ (holding fetching f).chainNow f.wing f.sq f.chain = .failed) := by decide +kernel

/-- A module whose ring 0 alone may be fetched from, of wing 0 or of wing 15. -/
theorem turn_is_possible : MayFetch fetching 0 0 := by unfold MayFetch; decide +kernel

theorem no_other_turn : ∀ x y, x < 16 → y < 64 → MayFetch fetching x y → (x = 0 ∧ y = 0) ∨ sqTc (fetching.sqCfg 0 0) < sqTc (fetching.sqCfg x y) := by
  intro x y _ _ h
  have hw : fetching.wingSt x = .enabled := h.2.1
  have hq : (fetching.sq x y).en = .enabled := h.1
  have hx : ∀ x : Fin 16, fetching.wingSt x = .enabled → x = 0 := by decide +kernel
  have hy : ∀ y : Fin 64, (fetching.sq 0 y).en = .enabled → y = 0 := by decide +kernel
  have h1 := hx ⟨x, by assumption⟩ hw
  have h2 : x = 0 := congrArg Fin.val h1
  subst h2
  exact .inl ⟨rfl, congrArg Fin.val (hy ⟨y, by assumption⟩ hq)⟩

theorem witness_TurnOf : TurnOf fetching 0 0 := ⟨rfl, rfl, by decide, by decide, turn_is_possible, no_other_turn⟩

theorem witness_NopCompletesWithOk : (holding up (fl 0x900 [])).ready? 1 0x900 = some (fl 0x900 []) ∧ (fl 0x900 []).zero [(12, 116)] = true ∧
    (holding up (fl 0x900 [(127, 1, 1)])).ready? 1 0x900 = some (fl 0x900 [(127, 1, 1)]) ∧ (fl 0x900 [(127, 1, 1)]).zero [(12, 116)] = false ∧
    (let f := { fl 0x900 [] with phase := .held, fence := true }
     let g := { act 0x900 [] with fid := 0 }
     let s := { up with flights := [g, f] }
     s.flight? 1 = some f ∧ f.phase = .held ∧ f.fence = true ∧ s.chainNow f.wing f.sq f.chain ≠ .failed ∧ g ∈ s.ringFlights f.wing f.sq ∧
       g.fid < f.fid ∧ g.phase ≠ .done) := by decide +kernel

theorem witness_DoorbellAcceptance : let s := { fetching with cqs := [(0, { en := .enabled, tail := 1 })] }
    let S := sqSize (s.sqCfg 0 0)
    let C := sqSize (s.cqCfg 0 0)
    Hearing s 0 ∧ bit (s.reg (hpReg 0 0x10)) 0 = true ∧ (s.sq 0 0).en = .enabled ∧
    (S < 2 * S ∧ ringDist S (s.sq 0 0).head S ≤ S ∧ ringDist S (s.sq 0 0).head (s.sq 0 0).tail ≤ ringDist S (s.sq 0 0).head S) ∧
    ¬ ringDist S (s.sq 0 0).head (S + 1) ≤ S ∧ (s.cq 0 0).en = .enabled ∧
    (1 < 2 * C ∧ ringDist C 1 (s.cq 0 0).tail ≤ ringDist C (s.cq 0 0).head (s.cq 0 0).tail) ∧
    ¬ ringDist C 2 (s.cq 0 0).tail ≤ ringDist C (s.cq 0 0).head (s.cq 0 0).tail ∧ Hearing s 1 ∧ bit (s.reg (hpReg 1 0x10)) 0 = false := by
  unfold Hearing; decide +kernel

theorem witness_EntriesAreSentInOrder : let f := { fl 0x900 [] with phase := .done, cpl := some {}, due := some 0 }
    let s := holding fetching f
    s.dueFlight 0 0 = some f ∧ f.cpl = some {} ∧ (s.port (cqPort (s.cqCfg 0 0))).st ≠ .failed ∧
    (let s := { fetching with cqs := [(0, { en := .enabled, coalEnd := some 2000000 })] }
     (s.cq 0 0).coalEnd = some 2000000 ∧ 2000000 ≤ s.cyc ∧ (s.cq 0 0).owed = false) ∧
    (let s := { fetching with cqs := [(0, { en := .enabled, coalEnd := some 5, owed := true })] }
     (s.cq 0 0).coalEnd = some 5 ∧ 5 ≤ s.cyc ∧ (s.cq 0 0).owed = true) := by decide +kernel

theorem witness_EnableStates : WingHeard up 0 0 ∧ (bit (up.reg (hpReg (sqPort (up.sqCfg 0 63)) 0x10)) 0 = true ∧ sqPort (up.sqCfg 0 63) = cqPort (up.cqCfg 0 (sqCq (up.sqCfg 0 63)))) ∧ (up.sq 0 63).en = .disabled ∧
    (let s := { up with sqs := [(0, { en := .draining })] }
     WingHeard s 0 0 ∧ bit (s.reg (hpReg (sqPort (s.sqCfg 0 0)) 0x10)) 0 = true ∧ (s.sq 0 0).en = .draining ∧ s.ringFlights 0 0 = []) ∧
    (WingHeard up 0 1 ∧ bit (up.reg (hpReg (sqPort (up.sqCfg 1 0)) 0x10)) 1 = false) ∧ (fetching.sq 0 0).en = .enabled ∧ WingHeard fetching 0 0 := by unfold WingHeard Hearing Reaches; decide +kernel

theorem witness_EnableStates_more : WingHeard up 0 0 ∧
    (WingHeard up 0 0 ∧ bit (up.reg (hpReg (cqPort (up.cqCfg 0 0)) 0x10)) 0 = true ∧ (up.cq 0 0).en = .disabled) ∧
    (WingHeard up 0 0 ∧ up.wingSt 0 = .disabled) ∧ (WingHeard fetching 0 0 ∧ fetching.wingSt 0 = .enabled) := by unfold WingHeard Hearing Reaches; decide +kernel

theorem witness_EnableStates_drained : (let s := { up with sqs := [(0, { en := .enablePending })], wings := [(0, .draining)] }
     s.ringFlights 0 0 = [] ∧ (s.sq 0 0).en = .enablePending ∧ s.wingFlights 0 = [] ∧ s.wingSt 0 = .draining) ∧
    (∀ q, q < 64 → sqCq (up.sqCfg 0 q) = 0 → (up.sq 0 q).en = .disabled) := by decide +kernel

theorem witness_AbortsAndTimeouts : let s := holding fetching (act 0x100 [])
    WingHeard s 0 0 ∧ s.flights.Pairwise (fun a b => a.fid ≠ b.fid) ∧ (s.sq 0 0).en ≠ .disabled ∧
    act 0x100 [] ∈ s.ringFlights 0 0 ∧ (act 0x100 []).phase ≠ .done ∧
    (WingHeard (holding up (act 0x100 [])) 0 0 ∧ ((holding up (act 0x100 [])).sq 0 0).en = .disabled) ∧
    WingHeard s 0 0 ∧ act 0x100 [] ∈ s.wingFlights 0 ∧ (act 0x100 []).sq < 64 ∧
    s.flight? 1 = some (act 0x100 []) ∧ (act 0x100 []).phase = .active ∧ (act 0x100 []).admitCyc = some 5 ∧
    roundUp (5 + 1500 * (act 0x100 []).timeoutUs) 1500 < s.cyc := by unfold WingHeard Hearing Reaches; decide +kernel

/-- The fields of a COLL_CREATE: 64 elements, degree code 1, BF16 copies, one shard, 64 vectors. -/
def createFields : List (Nat × Nat × Nat) := [(16, 2, 64), (19, 1, 1), (20, 1, 2), (23, 1, 1), (24, 4, 64)]

/-- The collection that it makes, in BUILDING. -/
def coll0 : Coll := { defn := collDefOf (fl 0x280 createFields), dies := [0] }

/-- A state with a collection at handle 0 of wing 0 and a descriptor for it. -/
def withColl (c : Coll) (f : Flight) : State := { holding up f with colls := [(0, c)] }

theorem pick_one (x : Nat) : ∃ d, d < 4 ∧ pickDies x 1 = [d] := by
  refine ⟨[0, 1, 2, 3].getD (x % 4) 0, ?_, by simp [pickDies]⟩
  have : x % 4 < 4 := Nat.mod_lt _ (by omega)
  match h : x % 4 with
  | 0 | 1 | 2 | 3 => decide
  | n + 4 => omega

/-- A Floor quota of 4,096 pages for wing 0. -/
def quota : State := { up with regs := up.regs ++ [(wngReg 0 0x2008, 4096)] }

/-- The same collection with its scale table and entry list loaded, and one that is ACTIVE at version 1. -/
def collV : Coll := { coll0 with loaded := [{ part := 1, shard := 0, first := 0, count := 64 }, { part := 8, shard := 0, first := 0, count := 0 }] }
def collA : Coll := { coll0 with st := .active, version := 1, latest := 1, nodes := 0 }

/-- The fields of a COLL_LOAD of one entry, and of a COLL_OPEN at beat 20. -/
def loadF : Flight := fl 0x281 [(16, 1, 8), (24, 4, 1), (40, 8, 4)]
def openF : Flight := fl 0x282 [(24, 8, 20)]

/-- A module whose beat number is 10. -/
def atBeat (s : State) : State := { s with beat := { s.beat with number := some 10 } }


/-- Host memory is a source, and so is nothing at all. -/
theorem host_source (s : State) (f : Flight) (a n off : Nat) (b : Bytes) (hn : 0 < n) (h : (s.port (s.flightPort f)).st ≠ .failed) :
    Source s s f 0 a n (.ok b) off (slice b 0 n) := .inr (.inl ⟨rfl, rfl, hn, h, b, rfl, rfl⟩)

theorem no_source (s : State) (f : Flight) (k a off : Nat) (d : Dma) : Source s s f k a 0 d off [] := .inl ⟨rfl, rfl, rfl⟩

/-- A state with a create descriptor and a Floor quota. -/
def creating : State := holding quota (fl 0x280 createFields)

theorem witness_CollectionsComeAndGo_create :
    (creating.ready? 1 0x280 = some (fl 0x280 createFields) ∧ (fl 0x280 createFields).zero [(31, 97)] = true ∧
      (collDefOf (fl 0x280 createFields)).ok = true ∧ hHandle (fl 0x280 createFields).raw < 4096 ∧ tfind creating.colls 0 = none ∧
      creating.colls.length < 4096) ∧
    Room creating 0 ((collDefOf (fl 0x280 createFields)).shards * (collDefOf (fl 0x280 createFields)).shardPages + 1)
      (collDefOf (fl 0x280 createFields)).cellarPages ∧
    (let s := holding up (fl 0x280 createFields)
     s.floorQuota 0 < s.floorUse 0 + (collDefOf (fl 0x280 createFields)).shards * (collDefOf (fl 0x280 createFields)).shardPages + 1) ∧
    ((holding up (fl 0x280 [])).ready? 1 0x280 = some (fl 0x280 []) ∧ (collDefOf (fl 0x280 [])).ok = false) := by
  unfold Room; decide +kernel

theorem witness_CollectionsComeAndGo_load :
    ((withColl coll0 loadF).ready? 1 0x281 = some loadF ∧ (withColl coll0 loadF).collOf loadF = some coll0 ∧ loadFieldsOk loadF coll0.defn = true ∧
      coll0.st = .building ∧ coll0.defn.inCellar (loadF.u 16 1) = false ∧ NoMerge (withColl coll0 loadF) 1 ∧
      (withColl coll0 loadF).flight? 1 = some loadF ∧ ¬ (loadF.u 16 1 = 1 ∨ loadF.u 16 1 = 2)) ∧
    Source (withColl coll0 loadF) (withColl coll0 loadF) loadF (loadF.u 17 1) (loadF.u 32 8) (loadF.u 40 8) (.ok [1, 2, 3, 4]) 0
      (slice [1, 2, 3, 4] 0 4) :=
  ⟨by unfold NoMerge; decide +kernel, host_source (withColl coll0 loadF) loadF 0 4 0 [1, 2, 3, 4] (by decide) (by decide +kernel)⟩

theorem beat_free (s : State) (h : s.beat.number = some 10) (h2 : s.beat.sched = []) : BeatFree s 20 := ⟨10, h, by decide, by rw [h2]; decide⟩

theorem witness_CollectionsComeAndGo :
    ((withColl coll0 openF).ready? 1 0x282 = some openF ∧ (withColl coll0 openF).collOf openF = some coll0 ∧
      openF.zero [(20, 4), (32, 96)] = true ∧ openF.u 16 4 ≤ coll0.defn.capacity) ∧
    (let f := { openF with phase := .active }
     (withColl coll0 f).active? 1 0x282 = some f ∧ f.admitCyc = none ∧ (withColl coll0 f).collOf f = some coll0 ∧
       coll0.openPoison (f.u 16 4) = none ∧ coll0.validate (f.u 16 4) = some (0xFFFFFFFF, 1) ∧ (withColl collV f).collOf f = some collV ∧
       collV.st = .building ∧ collV.openPoison (f.u 16 4) = none ∧ collV.validate (f.u 16 4) = none ∧ f.u 24 8 = 20) ∧
    (let f := fl 0x283 []
     (withColl collA f).ready? 1 0x283 = some f ∧ (withColl collA f).collOf f = some collA ∧ collA.st ≠ .draining ∧
       f.zero [(16, 16), (40, 88)] = true ∧ aligned64 (f.u 32 8) = true ∧ ((withColl collA f).port ((withColl collA f).flightPort f)).st ≠ .failed) ∧
    (let f := fl 0x284 [(24, 8, 20)]
     (withColl collA f).ready? 1 0x284 = some f ∧ (withColl collA f).collOf f = some collA ∧ collA.destroyS = none ∧
       f.zero [(16, 8), (32, 96)] = true ∧ f.u 24 8 = 20) ∧
    (let c := { collA with st := .draining }
     let s := { up with colls := [(0, c)] }
     tfind s.colls (objKey 0 0) = some c ∧ c.st = .draining ∧ s.collBusy (objKey 0 0) c = false) := by decide +kernel

theorem witness_beat_free : BeatFree (atBeat (withColl collA (fl 0x284 [(24, 8, 20)]))) 20 := beat_free _ rfl rfl

theorem witness_openAt : let c := { collV with st := .opening, openS := some 20, destroyS := some 21 }
    c.st = .opening ∧ c.openS = some 20 ∧ ∀ d, c.destroyS = some d → 20 < d := ⟨rfl, rfl, fun d h => by cases h; decide⟩

/-- A search of one result over vectors of 64 elements, as FP32 from host memory, and a scan of the range [0, 4). -/
def searchFields : List (Nat × Nat × Nat) := [(16, 4, 1), (48, 4, 16)]
def searchF : Flight := fl 0x100 searchFields
def scanF : Flight := fl 0x101 (searchFields ++ [(62, 2, 1), (92, 4, 4)])
def zeroQuery : Bytes := List.replicate 256 0

theorem witness_Sources (s : State) (f : Flight) (h : (s.port (s.flightPort f)).st ≠ .failed) :
    Sources s s f 0 0 256 (.ok zeroQuery) 0 0 0 (.ok []) (slice zeroQuery 0 256) [] :=
  ⟨⟨s, host_source s f 0 256 0 zeroQuery (by decide) h, no_source s f 0 0 0 (.ok [])⟩, fun h => absurd h (by decide), fun h => absurd h (by decide)⟩

theorem witness_SearchesAreAdmittedAndGranted :
    (let s := withColl collA searchF
     s.ready? 1 0x100 = some searchF ∧ s.collOf searchF = some collA ∧ searchFieldsOk false searchF.raw collA.defn = true ∧ collA.st = .active ∧
       searchF.u 31 1 = 0 ∧ collA.defn.dim * fmtBytes (searchF.u 30 1) = 256 ∧ searchF.u 57 1 = 0 ∧ searchF.u 58 2 = 0 ∧
       s.flight? 1 = some searchF ∧ (s.port (s.flightPort searchF)).st ≠ .failed ∧
       allFinite (fmtVec (searchF.u 30 1) collA.defn.dim (slice zeroQuery 0 256)) = true ∧
       filterOk collA.defn.attrWords (chunks 16 (searchF.u 56 1) []) = true ∧ graphWithin searchF.raw collA.defn = true ∧
       graphWithin (raw ((0, 2, 0x100) :: (16, 4, 257) :: [])) collA.defn = false ∧ searchF.cls ≠ 0 ∧
       searchFieldsOk false (fl 0x100 []).raw collA.defn = false ∧ (coll0.st = .building) ∧ ({ collA with st := .draining } : Coll).st = .draining) ∧
    (let s := withColl collA scanF
     s.ready? 1 0x101 = some scanF ∧ s.collOf scanF = some collA ∧ searchFieldsOk true scanF.raw collA.defn = true ∧ scanF.u 61 1 = 0 ∧
       s.flight? 1 = some scanF ∧ rangesOk collA.defn.capacity 0 (rangesOf (scanF.u 62 2) (slice scanF.raw 88 40)) = true) ∧
    (let r := searchReq false searchF.raw 1 0 0 1 collA [] [] []
     let s := { withColl collA (act 0x100 searchFields) with reqs := [r], regs := up.regs ++ [(wngReg 0 0x2808, 64)] }
     s.req? 1 = some r ∧ (s.grantOf 1).isSome = true ∧ r.opcode = 0x100 ∧ r.waiting = true ∧ r.segs ≤ 960 ∧
       0 < bits (s.reg (wngReg r.wing 0x2808)) 9 0) := by decide +kernel
/-- A search of collection 0 in one shard, which stands as given. -/
def shardReq (q : ShardQ) : Req :=
  { fid := 1, opcode := 0x100, wing := 0, key := 0, cls := 1, version := 1, k := 1, waiting := false
    searches := [{ query := List.replicate 64 0, shards := [q] }] }

def shard0 (ph : ShardPh) : ShardQ := { shard := 0, die := 0, pipe := 0, ph }

/-- A module with that search on a collection. -/
def searching (c : Coll) (r : Req) : State := { withColl c (act 0x100 searchFields) with reqs := [r] }

/-- A collection whose SQ8 part lies in region 0 of stack 0. -/
def collR : Coll := { collA with frames := List.replicate 8 { stack := 0, frame := 0, wing := 0 } }

theorem floor_open (s : State) (h : s.regions = []) (h2 : s.refreshTill = []) : FloorOpen s := by
  unfold FloorOpen State.region; rw [h, h2]
  exact ⟨fun k => by simp [tget, tfind], fun k => by simp [tget, tfind]⟩

theorem witness_FloorOpen : FloorOpen (searching collA (shardReq (shard0 .granted))) := floor_open _ rfl rfl

theorem witness_ShardStepsAdvance : collA.defn.inCellar 3 = false := by decide +kernel

theorem witness_ShardStepsAdvance_seed :
    (let r := shardReq (shard0 .granted)
     (searching collA r).shardOf 1 0 0 = some (r, { query := List.replicate 64 0, shards := [shard0 .granted] }, shard0 .granted) ∧
       (searching collA r).reqColl r = some collA ∧ collA.poisoned (entryKey 0) (4 * (collA.entries 0).length) = false) := by decide +kernel

theorem witness_ShardStepsAdvance_expand_ends :
    (let q := shard0 .expanding
     q.ph = .expanding ∧ bestUnexpanded q.beam = none ∧ (shardReq q).clauses = []) := by decide +kernel

theorem witness_ShardStepsAdvance_expand_goes :
    (let q := { shard0 .expanding with beam := [{ score := 0, node := 0, expanded := false }] }
     bestUnexpanded q.beam ≠ none ∧ (shardReq q).expandLimit.1 = 0) := by decide +kernel

theorem witness_ShardStepsAdvance_scan :
    (let q := { shard0 .scanning with ranges := [(0, 4)] }
     let r := { shardReq q with opcode := 0x101 }
     let e := envOf collA r { query := List.replicate 64 0, shards := [q] }
     q.handed = none ∧ scanNext e q = some 0 ∧ (searching collA r).handoffRegion e q 0 = none ∧ (searching collA r).reqColl r = some collA) := by decide +kernel

theorem witness_ShardStepsAdvance_hand_off :
    (let q := { shard0 .scanning with ranges := [(0, 4)] }
     let r := { shardReq q with opcode := 0x101, useStacks := true }
     let e := envOf collR r { query := List.replicate 64 0, shards := [q] }
     let s := { searching collR r with regions := [(0, { st := .opened })], regs := (searching collR r).regs }
     scanNext e q = some 0 ∧ s.handoffRegion e q 0 = some 0 ∧ (s.stkQueue 0).length < s.handoffMax 0) := by decide +kernel

theorem witness_ShardStepsAdvance_handed :
    (let q := { shard0 .scanning with ranges := [(0, 4)], handed := some (7, 0) }
     let r := { shardReq q with opcode := 0x101, useStacks := true }
     let o : StkOp := { id := 7, stack := 0, fid := some 1, opcode := 0, wing := 0, cls := 1, running := true, regions := [0] }
     let s := { searching collR r with regions := [(0, { st := .opened })], stkOps := [o] }
     q.handed = some (7, 0) ∧ s.stkOps.find? (fun o => o.id == 7) = some o ∧ o.running = true ∧ o.refused = false ∧
       pagePoisoned (envOf collR r { query := List.replicate 64 0, shards := [q] }) q 0 = false) := by decide +kernel

theorem witness_ShardStepsAdvance_merge :
    (let q := { shard0 .listed with runs := [{ floor := false, cands := [] }, { floor := true, cands := [] }] }
     q.ph = .listed ∧ 2 ≤ q.runs.length ∧ q.runs.length ≤ 16) := by decide +kernel

theorem witness_ShardStepsAdvance_refine :
    (let q := { shard0 .refining with refineWait := [0] }
     let s := searching collA (shardReq q)
     q.ph = .refining ∧ 0 ∈ q.refineWait ∧ s.accesses = [] ∧ collA.codePoison true 0 = false ∧
       s.flight? 1 = some (act 0x100 searchFields) ∧ (act 0x100 searchFields).phase ≠ .done ∧ (shardReq q).fromPort = none) := by decide +kernel

theorem witness_JoinWritesResultsAndCompletes : let r := shardReq (shard0 .accepted)
    let s := searching collA r
    s.req? 1 = some r ∧ r.waiting = false ∧ (shard0 .accepted).ph = .accepted ∧ r.opcode = 0x100 ∧ r.searches = [{ query := List.replicate 64 0, shards := [shard0 .accepted] }] ∧
    r.parts = [] ∧ r.fromPort = none ∧ s.flight? 1 = some (act 0x100 searchFields) ∧ (act 0x100 searchFields).phase = .active ∧
    (s.port (s.flightPort (act 0x100 searchFields))).st ≠ .failed ∧ 0 < r.k := by decide +kernel

/-- The fields of a VEC_INSERT of one FP32 vector and of a VEC_DELETE of one, into change set 7. -/
def insertF : Flight := fl 0x200 [(16, 1, 7), (20, 4, 1), (40, 8, 320)]
def deleteF : Flight := fl 0x201 [(16, 1, 7), (20, 4, 1), (40, 8, 8)]
def insertBytes : Bytes := List.replicate 320 0

/-- Jobs that insert vector 5, and that delete vectors 5 with a change set that is staged. -/
def job (insert : Bool) : StageJob := { fid := 1, cset := 7, insert, efmt := 0, recs := [(5, insertBytes)] }
def collS (l : List StageJob) : Coll := { collA with stage := l, csets := [(7, { st := .staging, base := 1 })] }

theorem witness_StagingPublishingRetiring_source :
    Source (withColl collA insertF) (withColl collA insertF) insertF (insertF.u 17 1) (insertF.u 32 8) (insertF.u 40 8) (.ok insertBytes) 0
      (slice insertBytes 0 320) ∧
    Source (withColl (collS []) deleteF) (withColl (collS []) deleteF) deleteF (deleteF.u 17 1) (deleteF.u 32 8) (deleteF.u 40 8)
      (.ok [5, 0, 0, 0, 0, 0, 0, 0]) 0 (slice [5, 0, 0, 0, 0, 0, 0, 0] 0 8) :=
  ⟨host_source _ insertF 0 320 0 insertBytes (by decide) (by decide +kernel), host_source _ deleteF 0 8 0 _ (by decide) (by decide +kernel)⟩

theorem witness_StagingPublishingRetiring :
    (let s := withColl collA insertF
     s.ready? 1 0x200 = some insertF ∧ s.collOf insertF = some collA ∧ insertOk insertF collA.defn = true ∧ collA.st = .active ∧
       s.flight? 1 = some insertF ∧ tfind s.colls insertF.obj = some collA ∧
       (∀ b ∈ chunks (insertRec collA.defn (insertF.u 18 1)) (insertF.u 20 4) (slice insertBytes 0 320), recOk collA.defn (insertF.u 18 1) b = true) ∧
       (collA.cset 7).st = .empty) ∧
    (let s := withColl (collS []) deleteF
     s.ready? 1 0x201 = some deleteF ∧ s.collOf deleteF = some (collS []) ∧ deleteOk deleteF = true ∧
       (∀ b ∈ chunks 8 (deleteF.u 20 4) (slice [5, 0, 0, 0, 0, 0, 0, 0] 0 8), fld b 6 2 = 0) ∧ ((collS []).cset 7).st = .staging ∧
       ((collS []).cset 7).base = (collS []).latest) ∧
    (let f := act 0x200 []
     (withColl (collS [job true]) f).flight? 1 = some f ∧ f.phase ≠ .done ∧ (collS [job true]).stage = [job true] ∧
       (collS [job true]).defn.winParts = [] ∧ ((collS [job true]).resolve (job true)).isOk = true ∧
       ((collS [job true]).resolve { job true with recs := List.replicate 65 (5, []) }).isOk = false) ∧
    (let f := fl 0x210 [(16, 1, 7), (20, 4, 1), (24, 8, 20)]
     let s := atBeat (withColl (collS []) f)
     s.ready? 1 0x210 = some f ∧ s.collOf f = some (collS []) ∧ f.u 16 1 ≤ 7 ∧ f.zero [(17, 3), (32, 96)] = true ∧ (collS []).st = .active ∧
       ((collS []).cset (f.u 16 1)).st ≠ .publishing ∧ (∀ j ∈ (collS []).stage, j.cset ≠ f.u 16 1) ∧ f.u 20 4 = ((collS []).cset (f.u 16 1)).base ∧
       f.u 20 4 = (collS []).latest ∧ f.u 24 8 = 20 ∧ s.beat.number = some 10 ∧ s.beat.sched = [] ∧ ((collS []).cset 7).switchS = none) ∧
    (let f := fl 0x211 [(16, 1, 7)]
     (withColl (collS []) f).ready? 1 0x211 = some f ∧ f.zero [(17, 111)] = true ∧ (∀ j ∈ (collS []).stage, j.fid ≠ 1)) ∧
    (let f := fl 0x212 [(20, 4, 1)]
     let r := { shardReq (shard0 .granted) with fid := 2, version := 0 }
     let s := { withColl collA f with reqs := [r] }
     s.ready? 1 0x212 = some f ∧ s.collOf f = some collA ∧ f.zero [(16, 4), (24, 104)] = true ∧ f.u 20 4 ≤ collA.version ∧
       (∀ r ∈ s.pinned f.obj, r.fid ≠ 1) ∧ r ∈ s.pinned f.obj ∧ r.version < f.u 20 4 ∧ r.fromPort = none) ∧
    tfind (withColl (collS []) insertF).colls 0 = some (collS []) ∧ (collS []).st = .active := by decide +kernel

/-- A Porch entry and a tombstone that are published and due. -/
def porchE : PorchEnt := { node := 3, vid := 5, cset := 7, vis := some 1 }
def tombE : Tomb := { node := 3, vid := 5, cset := 7, del := some 1 }

theorem witness_MortarFoldsInTheBackground :
    (let c := { collA with porch := [porchE] }
     let s := { up with colls := [(0, c)] }
     tfind s.colls (objKey 0 0) = some c ∧ c.defn.inCellar 3 = false ∧
       (s.mergeable (objKey 0 0) c (3 % c.defn.shards)).find? (fun x => !(c.poisoned (c.key 0 x.node) 8)) = some porchE ∧
       s.mortarPaused (c.die (3 % c.defn.shards)) = false ∧
       (s.setReg (mortarReg 0 0) 1).mortarPaused (c.die (3 % c.defn.shards)) = true) ∧
    (let c := { collA with tombs := [tombE] }
     let s := { up with colls := [(0, c)] }
     tombE ∈ c.tombs ∧ tombE.del = some 1 ∧ 1 ≤ s.oldest (objKey 0 0) c ∧ s.mortarPaused (c.die (3 % c.defn.shards)) = false) ∧
    0 < collA.defn.shards ∧ collA.st = .active := by decide +kernel

/-- The fields of a KV_CREATE: one layer, one head of 64 elements, FP8, one shard, 64 tokens. -/
def sessFields : List (Nat × Nat × Nat) := [(16, 2, 1), (18, 1, 1), (19, 1, 1), (20, 2, 64), (23, 1, 1), (24, 4, 64)]
def sessF : Flight := fl 0x310 sessFields
def sess0 : Sess := { sessOfRaw sessF with dies := [0] }
def withSess (e : Sess) (f : Flight) : State := { holding up f with sessions := [(0, e)] }

theorem witness_SessionsAreKept :
    (let s := holding quota sessF
     s.ready? 1 0x310 = some sessF ∧ sessF.zero [(35, 1), (40, 88)] = true ∧ (sessOfRaw sessF).fieldsOk = true ∧ hHandle sessF.raw < 16384 ∧
       s.sessOf sessF = none ∧ s.sessions.length < 16384) ∧
    (let n := (sessOfRaw sessF).layers * (sessOfRaw sessF).shards
     Room (holding quota sessF) 0 (n * (sessOfRaw sessF).charge.1) (n * (sessOfRaw sessF).charge.2) ∧
       (holding up sessF).floorQuota 0 < (holding up sessF).floorUse 0 + n * (sessOfRaw sessF).charge.1) := by unfold Room; decide +kernel

def appendF : Flight := fl 0x311 [(20, 4, 1), (40, 8, 512)]

theorem witness_SessionsAreKept_append :
    Source (withSess sess0 appendF) (withSess sess0 appendF) appendF (appendF.u 18 1) (appendF.u 32 8) (appendF.u 40 8)
      (.ok (List.replicate 512 0)) 0 (slice (List.replicate 512 0) 0 512) ∧
    (let s := withSess sess0 appendF
     s.ready? 1 0x311 = some appendF ∧ s.sessOf appendF = some sess0 ∧ sess0.waits = [] ∧
       appendOk appendF sess0 (sess0.layersOf (appendF.u 16 2)) = true ∧ s.flight? 1 = some appendF ∧ tfind s.sessions appendF.obj = some sess0 ∧
       allFinite (fmtVec (appendF.u 19 1) (512 / fmtBytes (appendF.u 19 1)) (slice (List.replicate 512 0) 0 512)) = true) ∧
    (let e := { sess0 with waits := [7] }
     let s := withSess e appendF
     s.sessOf appendF = some e ∧ e.waits ≠ [] ∧ 1 ∉ e.waits ∧ appendFields appendF e (e.layersOf (appendF.u 16 2)) = true ∧ s.sessClosing e = false) :=
  ⟨host_source _ appendF 0 512 0 (List.replicate 512 0) (by decide) (by decide +kernel), by decide +kernel, by decide +kernel⟩

theorem witness_SessionsAreKept_turns :
    (let f := fl 0x313 [(20, 4, 0), (24, 4, 64)]
     let s := withSess sess0 f
     s.ready? 1 0x313 = some f ∧ s.sessOf f = some sess0 ∧ sess0.waits = [] ∧ f.zero [(18, 2), (28, 100)] = true ∧ sess0.layersOf (f.u 16 2) ≠ []) ∧
    (let e := { sess0 with maxTokens := 64 * 4096, resident := 2, lens := [(0, 64 * 2048)] }
     let s := { up with sessions := [(0, e)] }
     tfind s.sessions (objKey 0 0) = some e ∧ 0 < e.layers ∧ 0 < e.shards ∧ e.spilling = [] ∧ (e.spillWait 0 0).head?.isSome = true) ∧
    (let e := { sess0 with spilling := [kvName 0 0 0] }
     kvLayer (kvName 0 0 0) = 0 ∧ kvShard (kvName 0 0 0) = 0 ∧ up.flashOwes (unitsOf 0 (e.winPage (kvName 0 0 0) * pageSize) pageSize) = false) ∧
    (let f := fl 0x314 [(20, 4, 8)]
     let s := withSess sess0 f
     s.ready? 1 0x314 = some f ∧ s.flight? 1 = some f ∧ s.sessOf f = some sess0 ∧ f.zero [(16, 4), (24, 104)] = true ∧ s.reqs = [] ∧
       s.accesses = [] ∧ sess0.spilled = [] ∧ hOpcode f.raw = 0x314 ∧
       (let r := { shardReq (shard0 .granted) with opcode := 0x312 }
        r ∈ { s with reqs := [r] }.reqs ∧ r.key = f.obj)) ∧
    (let f := fl 0x315 []
     let s := withSess sess0 f
     s.ready? 1 0x315 = some f ∧ s.flight? 1 = some f ∧ hOpcode f.raw = 0x315 ∧ s.sessOf f = some sess0 ∧ f.zero [(16, 112)] = true ∧
       s.reqs = []) := by decide +kernel

/-- Attention of one query: over collection 0 with its own values, over session 0, and around a ring of two. -/
def one32 : Nat := 0x3F800000
def memF : Flight := fl 0x300 [(16, 4, 1), (48, 4, 320), (52, 1, 1), (53, 1, 1), (56, 4, one32), (80, 4, 1), (84, 2, 64)]
def kvF : Flight := fl 0x312 [(48, 4, 320), (52, 4, one32), (60, 1, 1)]
def ringF : Flight := fl 0x318 [(22, 1, 2), (26, 2, 1), (48, 4, 320), (52, 4, one32)]

theorem witness_AttentionIsAdmitted :
    (let s := withColl collA memF
     let f := memF
     s.ready? 1 0x300 = some f ∧ s.collOf f = some collA ∧ memOk f collA.defn = true ∧ collA.st = .active ∧ f.u 54 1 ≠ 1 ∧ f.u 31 1 = 0 ∧
       f.u 53 1 * f.u 52 1 * collA.defn.dim * fmtBytes (f.u 30 1) = 256 ∧ f.u 62 1 = 0 ∧ f.u 60 2 = 0 ∧ s.flight? 1 = some f ∧
       (s.port (s.flightPort f)).st ≠ .failed ∧
       (queriesOf (f.u 30 1) (f.u 53 1 * f.u 52 1) collA.defn.dim (slice zeroQuery 0 256)).all allFinite = true ∧
       (memLocal f collA.defn []).ok (f.u 53 1) = true ∧ memOk (fl 0x300 []) collA.defn = false) ∧
    (let s := withSess sess0 kvF
     let f := kvF
     s.ready? 1 0x312 = some f ∧ s.sessOf f = some sess0 ∧ sess0.waits = [] ∧ kvOk f sess0 = true ∧ f.u 19 1 = 0 ∧
       f.u 60 1 * sess0.hkv * sess0.group * sess0.dh * fmtBytes (f.u 18 1) = 256 ∧ f.u 58 1 = 0 ∧ f.u 56 2 = 0 ∧ s.flight? 1 = some f ∧
       (s.port (s.flightPort f)).st ≠ .failed ∧
       (queriesOf (f.u 18 1) (f.u 60 1 * sess0.hkv * sess0.group) sess0.dh (slice zeroQuery 0 256)).all allFinite = true ∧
       (kvLocal f sess0 []).ok (f.u 60 1) = true) ∧
    (let s := withSess sess0 ringF
     let f := ringF
     s.ready? 1 0x318 = some f ∧ s.sessOf f = some sess0 ∧ ringOk f sess0 = true ∧ f.u 19 1 = 0 ∧
       f.u 26 2 * sess0.hkv * sess0.group * sess0.dh * fmtBytes (f.u 18 1) = 256 ∧ s.flight? 1 = some f ∧ (s.port (s.flightPort f)).st ≠ .failed ∧
       (queriesOf (f.u 18 1) (f.u 26 2 * sess0.hkv * sess0.group) sess0.dh (slice zeroQuery 0 256)).all allFinite = true) := by decide +kernel


/-- An instruction word of a class and an operation with an immediate. -/
def insn (cls op imm : Nat) : Nat := cls * 2 ^ 60 + op * 2 ^ 54 + imm

/-- Brick 0 of wing 0, its program resident and running, with words in its store and registers. -/
def ent0 : BrickEnt := { brick := 0, base := 0, bytes := 4096, entry := 0, pscale := 2048, wins := [{ base := 2 ^ 48, pages := 4, perm := 3 }] }
def prog0 : Prog := { bricks := [ent0], ptc := 0, quantum := 0, wdogUs := 0, priv := 1, order := 0, st := .running, resident := true }
def brick0 (m : List (Nat × Bytes)) (c : Ctx) : Brick :=
  { prog := some 0, st := .running, ctx := c, store := m.foldl (fun t x => putBytes t x.1 x.2) [] }
def bricked (m : List (Nat × Bytes)) (c : Ctx) : State := { up with bricks := [(0, brick0 m c)], progs := [(0, prog0)] }
def run0 (m : List (Nat × Bytes)) (c : Ctx) : Run := { b := 0, key := 0, prog := prog0, ent := ent0, br := brick0 m c, cyc := 2000000 }

/-- The controller at an instruction, with registers. -/
def ctl (w : Nat) (c : Ctx) : State := bricked [(0, natLe w 8)] c
def rctl (w : Nat) (c : Ctx) : Run := run0 [(0, natLe w 8)] c

theorem ok_some {α β : Type} {e : Except α β} (h : e.toOption.isSome = true) : ∃ b, e = .ok b := by
  cases e with
  | ok b => exact ⟨b, rfl⟩
  | error _ => cases h

theorem witness_starts : ∀ x ∈ [(0, 0), (0, 1), (0, 2), (0, 3), (0, 4), (0, 5), (0, 6), (0, 7), (0, 8), (0, 9), (0, 10), (0, 11), (0, 12), (0, 13),
      (1, 0), (1, 1), (1, 2), (1, 3), (2, 0), (2, 1), (2, 2), (2, 3), (2, 4), (2, 5), (2, 6), (2, 7), (2, 8), (2, 9),
      (3, 0), (3, 1), (3, 2), (3, 3), (3, 4)],
    Starts (ctl (insn x.1 x.2 0) {}) 0 x.1 x.2 (rctl (insn x.1 x.2 0) {}) := by
  unfold Starts
  decide +kernel

/-- An ADD s1, s2, s3 that waits on latch 5, which holds one unit. -/
def addWord : Nat := insn 0 0 0 + 2 ^ 53 + 5 * 2 ^ 47 + 1 * 2 ^ 35 + 2 * 2 ^ 30 + 3 * 2 ^ 25
def addCtx : Ctx := { s := [(2, 7), (3, 8)], latch := [(5, { value := 1 })] }

theorem witness_ControllerInstructions : Starts (ctl addWord addCtx) 0 0 0 (rctl addWord addCtx) ∧
    (let x := started (rctl (insn 1 0 0) {})
     let a := (x.br.ctx.sget (insnA (insn 1 0 0)) + insnSext (insn 1 0 0)).toNat
     a % 8 = 0 ∧ ∃ bs, x.load a 8 = .ok bs) ∧
    (let r := rctl (insn 1 2 4) {}
     Starts (ctl (insn 1 2 4) {}) 0 1 2 r ∧ ((started r).br.ctx.sget (insnA r.word) + insnSext r.word).toNat = 4 ∧
       ∃ bs, (started r).load 4 4 = .ok bs) ∧
    (let x := started (rctl (insn 1 1 0) {})
     let a := (x.br.ctx.sget (insnA (insn 1 1 0)) + insnSext (insn 1 1 0)).toNat
     a % 8 = 0 ∧ x.ent.holds a 8 = true) ∧
    (let r := rctl (insn 1 3 4092) {}
     let a := ((started r).br.ctx.sget (insnA r.word) + insnSext r.word).toNat
     Starts (ctl (insn 1 3 4092) {}) 0 1 3 r ∧ a % 4 = 0 ∧ (started r).ent.holds a 4 = true) ∧
    (∀ e, (started (rctl (insn 2 4 0) {})).br.ctx.queueOf e = []) ∧
    (let c : Ctx := { latch := [(0, { value := 254 })] }
     let r := rctl (insn 3 0 0) c
     Starts (ctl (insn 3 0 0) c) 0 3 0 r ∧ ((started r).br.ctx.latchAt (bits (insnImm r.word) 5 0)).value < 255) ∧
    (let c : Ctx := { latch := [(0, { value := 1 })] }
     ∀ o ∈ [1, 2], let r := rctl (insn 3 o 0) c
     Starts (ctl (insn 3 o 0) c) 0 3 o r ∧ 0 < ((started r).br.ctx.latchAt (bits (insnImm r.word) 5 0)).value) := by
  unfold Starts
  refine ⟨by decide +kernel, ⟨by decide +kernel, ok_some (by decide +kernel)⟩, ⟨by decide +kernel, by decide +kernel, ok_some (by decide +kernel)⟩,
    by decide +kernel, by decide +kernel, fun e => rfl, by decide +kernel, by decide +kernel⟩

/-- A HALT that has begun, and taken its latch with it, starts again without the latch. -/
theorem witness_begun : let w := insn 2 4 0 + 2 ^ 53 + 5 * 2 ^ 47
    let r := rctl w { begun := true }
    Starts (ctl w { begun := true }) 0 2 4 r ∧ started r = r ∧ r.canTake 0 5 = false := by
  unfold Starts
  decide +kernel

theorem witness_InstructionEndKeepsRegisters : ((ctl 0 {}).brick 0).prog = some 0 ∧ tfind (ctl 0 {}).progs 0 = some prog0 := by decide +kernel

/-- An engine instruction at the head of its queue, with what the scalar registers gave it at dispatch. -/
def qent (cls op imm a b d : Nat) : QEnt :=
  { word := BitVec.ofNat 64 (insn cls op imm), addr := 0, a := BitVec.ofNat 64 a, b := BitVec.ofNat 64 b, d := BitVec.ofNat 64 d }
def qctx (cls : Nat) (q : QEnt) : Ctx := { queue := [(cls - 3, [q])] }

theorem witness_engine_starts : ∀ x ∈ [(4, 0, 0), (4, 1, 0), (4, 2, 0), (4, 3, 0), (4, 4, 0), (5, 0, 0), (5, 0, 1), (5, 1, 0), (5, 2, 0), (5, 3, 0),
      (5, 4, 0), (5, 5, 0), (5, 6, 0), (5, 7, 0), (5, 8, 0), (5, 9, 0), (6, 0, 0), (6, 1, 0), (6, 2, 0), (6, 3, 0), (7, 0, 0), (7, 1, 0),
      (7, 2, 0), (7, 3, 0), (7, 4, 0)],
    let q := qent x.1 x.2.1 x.2.2 0 0 0
    EngineStarts (bricked [] (qctx x.1 q)) 0 x.1 x.2.1 (run0 [] (qctx x.1 q)) q := by
  unfold EngineStarts
  decide +kernel

/-- Bytes with fields at offsets, as (offset, bytes, value). -/
def blob (n : Nat) (l : List (Nat × Nat × Nat)) : Bytes := l.foldl (fun bs x => bs.take x.1 ++ natLe x.2.2 x.2.1 ++ bs.drop (x.1 + x.2.1)) (List.replicate n 0)

/-- One LUT or vector instruction with what it reads in the store at 512, 1024 and 2048: a DEQ block of one code of 4 bits, a history block of
one row, a privileged entry of scale 1.0, 16 rescale entries of multiplier 1. -/
def lutMem : List (Nat × Bytes) :=
  [(512, blob 32 [(8, 1, 4), (12, 4, 1)]), (576, blob 192 [(0, 1, 1), (4, 2, 1)]), (1024, blob 128 ((List.range 16).map fun i => (8 * i, 4, 1))),
    (2048, natLe one32 4)]
def lutRun (cls op imm a b d : Nat) : Run := run0 lutMem (qctx cls (qent cls op imm a b d))

/-- What a read of the store gives. -/
def gives (r : Run) (a n : Nat) : Bytes := ((r.load a n).toOption).getD []
def reads (r : Run) (a n : Nat) : Bool := (r.load a n).toOption.isSome

theorem reads_ok {r : Run} {a n : Nat} (h : reads r a n = true) : r.load a n = .ok (gives r a n) := by
  unfold reads gives at *
  cases e : r.load a n with
  | ok b => rfl
  | error _ => rw [e] at h; cases h

theorem witness_EngineInstructions_products :
    ∀ x ∈ [(4, 0), (4, 1), (4, 2), (5, 1)], let q := qent x.1 x.2 0 0 0 0
      let r := taken (run0 [] (qctx x.1 q)) q.word.toNat
      let sh := shapeOf q.word.toNat
      reads r 0 (sh.rows * sh.len) = true ∧ reads r 0 (2 * sh.rows * sh.len) = true ∧ reads r 0 (16 * sh.len) = true ∧
        reads r 0 (8 * sh.len) = true ∧ reads r 0 (16 * 2 * sh.len) = true := by decide +kernel

theorem witness_EngineInstructions_moves :
    (bit (insnImm (qent 5 0 1 0 0 0).word.toNat) 0 = true ∧ bit (insnImm (qent 5 0 0 0 0 0).word.toNat) 0 = false) ∧
    reads (lutRun 5 0 0 0 0 0) 0 16 = true ∧ reads (lutRun 5 6 0 0 0 0) 0 512 = true ∧ (lutRun 4 4 0 0 0 0).ent.holds 0 1024 = true ∧
    (lutRun 5 7 0 3584 0 0).ent.holds 3584 512 = true := by decide +kernel

theorem witness_EngineInstructions_deq : let x := lutRun 5 2 0 0 512 256
    let g := gives x 512 32
    reads x 512 32 = true ∧ deqOk g = true ∧ fld g 8 1 = 4 ∧ fld g 12 4 = 1 ∧ reads x (fld g 0 4) (tblBytes (fld g 9 1) * 16) = true ∧
      reads x 0 1 = true ∧ Fits x 256 1 := by unfold Fits; decide +kernel

theorem witness_EngineInstructions_quant : let x := lutRun 5 3 64 0 576 256
    let w := (qent 5 3 64 0 576 256).word.toNat
    let h := gives x 576 64
    let v := fmtVec 0 1 (gives x 0 4)
    let blk := gives x 576 (histBytes 1)
    let y := quantRow 0 (fld h 3 1) (scaleOfMax (fld h 3 1) (histScaleMax blk 0 (rowAmax v))) v
    reads x 576 64 = true ∧ histOk h = true ∧ bits (insnImm w) 5 0 = 0 ∧ fld h 4 2 = 1 ∧ reads x 576 (histBytes 1) = true ∧
      bits (insnImm w) 17 6 = 1 ∧ reads x 0 4 = true ∧ x.ent.holds 256 4 = true ∧ Fits x (256 + 64) y.1.length ∧
      Fits x 576 (histAfter blk 0 (rowAmax v) y.2.1 y.2.2).length := by unfold Fits; decide +kernel

theorem witness_EngineInstructions_qpriv : let x := lutRun 5 4 64 0 0 256
    let w := (qent 5 4 64 0 0 256).word.toNat
    let g := gives x (x.ent.pscale + 16 * 0) 16
    bits (insnImm w) 4 0 = 0 ∧ 0 < x.prog.priv ∧ reads x (x.ent.pscale + 16 * 0) 16 = true ∧ privOk g = true ∧ bits (insnImm w) 17 6 = 1 ∧
      reads x 0 4 = true ∧ x.ent.holds 256 4 = true ∧ Fits x (256 + 64) (quantRow 0 (fld g 4 1) (f32At g 0) (fmtVec 0 1 (gives x 0 4))).1.length := by
  unfold Fits
  decide +kernel

theorem witness_EngineInstructions_rescale : let x := lutRun 5 5 0 1024 0 3072
    let es := gives x 1024 128
    let cells := (List.range 256).map fun k => rescaleElem (slice es (8 * (k % 16)) 8) (x.br.ctx.aget 0 (k / 16) (k % 16))
      (f32At (gives x 0 64) (4 * (k / 16)))
    reads x 1024 128 = true ∧ reads x 0 64 = true ∧ (∀ j, j < 16 → rescaleOk (slice es (8 * j) 8) = true) ∧
      Fits x 3072 (cells.map Prod.fst).flatten.length := by
  unfold Fits
  decide +kernel

/-- A Floor range of four pages of wing 0, all in Floor frames, and a Mover instruction of brick 0, which wing 0 has. -/
def floorRange : Range := { wing := 0, tier := 1, base := 2 ^ 30, pages := 4, ready := true }
def floored (s : State) : State :=
  { s with ranges := [floorRange], pages := (List.range 4).map fun i => (2 ^ 30 + i, { tier := 1 }), regs := up.regs ++ [(wngReg 0 0x2820, 1)] }
def moving (op a b d : Nat) : State := floored (bricked [(512, blob 32 [(0, 8, 2 ^ 48), (8, 4, 64), (12, 4, 1), (20, 4, 128)])] (qctx 6 (qent 6 op 0 a b d)))

theorem bringsIn_one {x : Run} {s : State} {c : Piece} {bs : Bytes} (hn : c.n ≠ 0) (h : x.ent.holds c.store c.n = true)
    (g : x.ent.grants 0 c.tier c.n = true) (e : (s.readRange x.who x.wing c.tier c.n).2 = .bytes bs) : ∃ t, BringsIn x t s [c] := by
  simp only [BringsIn, if_neg hn]
  exact ⟨_, h, g, _, bs, Prod.ext rfl e, rfl⟩

/-- An MGET of 64 bytes and an MGATHER of one row of 64 bytes bring them in. -/
def getRun : Run := run0 [(512, blob 32 [(0, 8, 2 ^ 48), (8, 4, 64), (12, 4, 1), (20, 4, 128)])] (qctx 6 (qent 6 0 0 (2 ^ 48) 64 64))
theorem witness_MoverAndPostInstructions_get :
    Fits getRun 64 64 ∧ ent0.grants 0 (2 ^ 48) 64 = true ∧ (chunksFrom 0 64).length = 1 ∧
    ∃ v, BringsIn getRun v (moving 0 (2 ^ 48) 64 64) ((chunksFrom 0 64).map fun o =>
      { tier := 2 ^ 48 + o, store := 64 + o, n := min 4096 (64 - o), next := o + 4096 }) := by
  refine ⟨Or.inr (by decide +kernel), by decide +kernel, by decide +kernel, ?_⟩
  exact bringsIn_one (bs := List.replicate 64 0) (by decide +kernel) (by decide +kernel) (by decide +kernel) (by decide +kernel)

theorem witness_MoverAndPostInstructions_gather :
    (let g := blob 32 [(0, 8, 2 ^ 48), (8, 4, 64), (12, 4, 1), (20, 4, 128)]
     gatherOk g = true ∧ fld g 12 4 = 1 ∧ fld g 8 4 = 64 ∧ fld g 16 4 = 0 ∧ fld g 20 4 = 128 ∧ fld g 0 8 = 2 ^ 48 ∧ reads getRun 512 32 = true ∧
       gives getRun 512 32 = g ∧ reads getRun 0 4 = true) ∧
    ∃ v, BringsIn getRun v (moving 2 512 0 0) [{ tier := 2 ^ 48, store := 128, n := 64, next := 1 }] :=
  ⟨by decide +kernel, bringsIn_one (bs := List.replicate 64 0) (by decide +kernel) (by decide +kernel) (by decide +kernel) (by decide +kernel)⟩

/-- An MPUT of 64 bytes takes them out. -/
theorem witness_MoverAndPostInstructions_put : let s := moving 1 (2 ^ 48) 64 64
    reads getRun 64 64 = true ∧ ent0.grants 1 (2 ^ 48) 64 = true ∧ s.inRanges 0 (2 ^ 48) 64 = true ∧
    ∃ v, TakesOut getRun (2 ^ 48) (List.replicate 64 0) v s (chunksFrom 0 64) := by
  refine ⟨by decide +kernel, by decide +kernel, by decide +kernel, ?_⟩
  have e : chunksFrom 0 64 = [0] := by decide +kernel
  simp only [e, TakesOut]
  exact ⟨_, by decide +kernel, by decide +kernel, by decide +kernel, by decide +kernel, _, _, (Prod.eta _).symm, by decide +kernel, by decide +kernel, rfl⟩

theorem witness_MoverAndPostInstructions_post :
    (∀ o, (moving 0 0 0 0).brickWing 0 = some o → o = getRun.wing) ∧ reads getRun 0 0 = true ∧
    (let p : Packet := { w0 := 0, w1 := 0, payload := [] }
     ({ pkts := [p], wr := 2 } : Fifo).pkts = [p] ∧ ent0.holds 4080 p.bytes.length = true) := by
  have e : (moving 0 0 0 0).brickWing 0 = some 0 := by decide +kernel
  exact ⟨fun o h => by rw [e] at h; cases h; decide +kernel, by decide +kernel, by decide +kernel⟩

/-- A posted packet and the states in which it meets its program resident, and not. -/
def posted : Transit := { id := 9, src := none, fid := some 1, dst := 0, fifo := 0, dprog := 0, pkt := { w0 := 0, w1 := 0, payload := [] } }
def postedTo : State := { holding (bricked [] {}) (act 0x504 []) with transit := [posted] }
theorem witness_MoverAndPostInstructions_deliver :
    postedTo.transit.find? (fun t => t.id == 9) = some posted ∧ postedTo.err.fatal = false ∧ postedTo.postTo 0 0 = true ∧
      ((postedTo.brick 0).ctx.fifoAt 0).room posted.pkt = true ∧ postedTo.postAhead posted = false ∧ posted.src ≠ some posted.dst ∧
      ((postedTo.brick 0).ctx.fifoAt 0).bind = none ∧ postedTo.flight? 1 = some (act 0x504 []) ∧ (act 0x504 []).phase ≠ .done ∧
      tfind postedTo.progs 0 = some prog0 ∧ { postedTo with progs := [(0, { prog0 with resident := false })] }.postTo 0 0 = false := by
  decide +kernel

/-- A module whose wing 0 has brick 0 and Floor quota, and a program image of one brick entry with 64 bytes of initial contents. -/
def hall : State := quota.setReg (wngReg 0 0x2820) 1
def image0 : Bytes := blob 128 [(8, 4, 4096), (16, 4, 0xFFFFFFFF), (24, 8, 64), (32, 8, 64)]
def loadP : Flight := fl 0x500 [(16, 2, 1), (19, 1, 1), (20, 4, 1000), (40, 8, 128)]
def withProg (p : Prog) (f : Flight) : State := { bricked [] {} with progs := [(0, p)], flights := [f], nextId := 2 }
def progL : Prog := { prog0 with st := .loaded }

/-- The loading module, and the same with a resident program that stands over the other's brick. -/
def loading : State := holding hall loadP
def progN : Prog := progOf loadP image0 2

theorem floorRoom_of {s : State} {w n : Nat} (h : s.floorUse w + n ≤ s.floorQuota w ∧ ∀ i, i < 12 → n ≤ s.stackFree w i) : FloorRoom s w n := h

theorem witness_ProgramsLoadRunAndEnd_load :
    (loading.ready? 1 0x500 = some loadP ∧ loadOk loadP = true ∧ hHandle loadP.raw < 256 ∧ loading.progAt loadP = none ∧
      Source loading loading loadP (loadP.u 24 1) (loadP.u 32 8) (loadP.u 40 8) (.ok image0) 0 image0 ∧ loading.flight? 1 = some loadP) ∧
    ((∀ k, k < 1 → loading.entOk 0 progN.priv 128 image0 k = true) ∧ noRepeat progN.uses = true ∧ loading.progs.length < 1024 ∧
      loading.sliceGroup 0 progN.uses = [] ∧ FloorRoom loading 0 ((saveDemands progN.bricks []).map Prod.snd).sum) ∧
    (let s := { loading with progs := [(5, { prog0 with resident := true })] }
     ∃ e ∈ s.sliceGroup 0 progN.uses, e.2.resident = true ∨ e.2.switching = true) := by
  refine ⟨⟨by decide +kernel, by decide +kernel, by decide +kernel, by decide +kernel, ?_, by decide +kernel⟩, ⟨by decide +kernel, by decide +kernel,
    by decide +kernel, by decide +kernel, floorRoom_of (by decide +kernel)⟩, by decide +kernel⟩
  have h := host_source loading loadP 0 (loadP.u 40 8) 0 image0 (by decide +kernel) (by decide +kernel)
  have e : slice image0 0 (loadP.u 40 8) = image0 := by decide +kernel
  have k : loadP.u 24 1 = 0 := by decide +kernel
  have a : loadP.u 32 8 = 0 := by decide +kernel
  rw [e] at h
  rw [k, a]
  exact h

theorem torn_none (m : List (Nat × Bytes)) (c : Ctx) (b : Nat) : ((bricked m c).brick b).torn = [] := by
  have e : ((bricked m c).brick b) = (if 0 = b then brick0 m c else {}) := by
    show ((tfind [(0, brick0 m c)] b).getD {}) = _
    rw [tfind]
    by_cases h : (0 : Nat) = b
    · rw [if_pos h, if_pos h]; rfl
    · rw [if_neg h, if_neg h]; split <;> rfl
  rw [e]; split <;> rfl

theorem witness_ProgramsLoadRunAndEnd_start :
    (let f := fl 0x501 []
     let s := withProg progL f
     s.ready? 1 0x501 = some f ∧ s.progAt f = some progL ∧ f.zero [(16, 8), (32, 96)] = true ∧ progL.st = .loaded ∧ progL.startFid = none ∧
       f.u 24 8 = 0 ∧ progL.resident = true ∧ (withProg { progL with resident := false } f).progAt f = some { progL with resident := false } ∧
       (fl 0x501 [(24, 8, 20)]).u 24 8 = 20) ∧
    (∀ b, ((withProg progL (fl 0x501 [])).brick b).torn = []) ∧ BeatFree (atBeat (withProg progL (fl 0x501 [(24, 8, 20)]))) 20 := by
  refine ⟨by decide +kernel, fun b => torn_none [] {} b, beat_free _ rfl rfl⟩

theorem witness_ProgramsLoadRunAndEnd_wait_stop :
    (let f := fl 0x502 []
     let p : Prog := { prog0 with st := .ended, firstFault := some (0, 2, 0) }
     (withProg prog0 f).ready? 1 0x502 = some f ∧ (withProg prog0 f).progAt f = some prog0 ∧ f.zero [(16, 112)] = true ∧ prog0.st ≠ .ended ∧
       (withProg p f).progAt f = some p ∧ p.st = .ended ∧ prog0.firstFault = none) ∧
    (let f := fl 0x503 []
     (withProg prog0 f).ready? 1 0x503 = some f ∧ (withProg prog0 f).progAt f = some prog0 ∧ f.zero [(16, 112)] = true ∧ 1 ∉ prog0.waits ∧
       prog0.startFid ≠ some 1 ∧ (∀ b ∈ prog0.uses, ((withProg prog0 f).brick b).prog = some f.obj)) := by decide +kernel

def postF : Flight := fl 0x504 [(18, 2, 8)]
theorem witness_ProgramsLoadRunAndEnd_post : let s := withProg prog0 postF
    s.ready? 1 0x504 = some postF ∧ s.progAt postF = some prog0 ∧ postOk postF = true ∧ prog0.uses.contains (postF.u 16 1) = true ∧
      prog0.st = .running ∧ s.postTo postF.obj (postF.u 16 1) = true ∧ (postF.u 24 1 = 0 ∧ postF.u 18 2 = 8) ∧
      Source s s postF 0 0 8 (.ok (List.replicate 8 7)) 0 (slice (List.replicate 8 7) 0 8) ∧ s.flight? 1 = some postF :=
  ⟨by decide +kernel, by decide +kernel, by decide +kernel, by decide +kernel, by decide +kernel, by decide +kernel, by decide +kernel,
    host_source _ _ _ _ _ _ (by decide) (by decide +kernel), by decide +kernel⟩

theorem witness_ProgramsLoadRunAndEnd_unload_resume :
    (let f := fl 0x505 []
     (withProg prog0 f).ready? 1 0x505 = some f ∧ (withProg prog0 f).progAt f = some prog0 ∧ f.zero [(16, 112)] = true ∧ prog0.st = .running ∧
       (withProg progL f).progAt f = some progL ∧ progL.st ≠ .running ∧ 1 ∉ progL.waits ∧ progL.startFid ≠ some 1) ∧
    (let p : Prog := { prog0 with resident := false, switching := true }
     tfind { up with progs := [(0, p)] }.progs (objKey 0 0) = some p ∧ p.switching = true ∧ p.startFid = none) ∧
    (let p : Prog := { progL with resident := false, switching := true, startFid := some 1 }
     tfind { up with progs := [(0, p)] }.progs (objKey 0 0) = some p ∧ p.switching = true ∧ p.startFid = some 1 ∧ p.startBeat = none ∧
       p.st = .loaded) := by decide +kernel

theorem witness_ProgramsLoadRunAndEnd_watchdog :
    (bricked [] {}).run? 0 = some (run0 [] {}) ∧ (run0 [] {}).br.wdogAt < (bricked [] {}).cyc ∧
      (bricked [] { wdogLeft := 10000000 }).run? 0 = some (run0 [] { wdogLeft := 10000000 }) ∧
      (bricked [] { wdogLeft := 10000000 }).cyc ≤ (run0 [] { wdogLeft := 10000000 }).br.wdogAt := by decide +kernel

/-- A vocabulary image of one token, the byte "a", and a module with it in slot 0. -/
def vocabImage : Bytes := blob 16 [(0, 4, 8), (4, 1, 1), (8, 1, 0x61)]
def vocabA : Vocab := { wing := 0, tokens := [{ bytes := [0x61], special := false, final := false }], pages := 1 }
def cutS : Stream := { cut := true, segLen := 16, outW := 1 }
def textS : Stream := { cut := false, draft := some [[0, 0, 0]], history := [0] }
def streaming (x : Stream) (f : Flight) : State := { holding quota f with vocabs := [(0, vocabA)], streams := [(0, x)] }

def vocabF : Flight := fl 0x610 [(20, 4, 1), (40, 8, 16)]
def vocabbing : State := holding quota vocabF
theorem slotFree_none {s : State} {w k : Nat} (h : tfind s.vocabs k = none) : SlotFree s w k := fun v e => by rw [h] at e; cases e
theorem slotFree_own {s : State} {w k : Nat} {v : Vocab} (h : tfind s.vocabs k = some v) (o : v.wing = w) (n : s.streams = []) : SlotFree s w k :=
  fun x e => by rw [h] at e; cases e; exact ⟨o, fun y hy => by rw [n] at hy; cases hy⟩

theorem witness_TextIsCutIntoSegments_load :
    (vocabbing.ready? 1 0x610 = some vocabF ∧ vocabF.zero [(12, 4), (18, 2), (24, 8), (48, 80)] = true ∧ vocabF.u 16 1 = 0 ∧ vocabF.u 17 1 = 0 ∧
      vocabF.u 40 8 = 16 ∧ inside 1 262144 (vocabF.u 20 4) = true ∧ aligned64 (vocabF.u 32 8) = true ∧ 8 * vocabF.u 20 4 ≤ vocabF.u 40 8 ∧
      tokensOf vocabImage (vocabF.u 20 4) = some vocabA.tokens ∧ vocabbing.flight? 1 = some vocabF) ∧
    SlotFree vocabbing 0 0 ∧ FloorRoom (vocabbing.freeSlot 0) 0 (cdiv (vocabF.u 40 8) pageSize) ∧
    Source vocabbing vocabbing vocabF 0 0 16 (.ok vocabImage) 0 (slice vocabImage 0 16) ∧ slice vocabImage 0 16 = vocabImage :=
  ⟨by decide +kernel, slotFree_none rfl, floorRoom_of (by decide +kernel), host_source _ _ _ _ _ _ (by decide) (by decide +kernel), by decide +kernel⟩

theorem witness_TextIsCutIntoSegments_drop :
    (let f := fl 0x611 []
     let s := { holding up f with vocabs := [(0, vocabA)] }
     (s.ready? 1 0x611 = some f ∧ f.zero [(12, 4), (17, 111)] = true ∧ f.u 16 1 = 0) ∧ SlotFree s 0 0) ∧
    (let f := fl 0x620 [(16, 1, 1), (20, 2, 16), (22, 1, 1)]
     let s := holding up f
     s.ready? 1 0x620 = some f ∧ streamOpenOk f = true ∧ hHandle f.raw < 4096 ∧ s.streamOf f = none ∧ s.streams.length < 4096 ∧ f.u 16 1 = 1) ∧
    (∀ x ∈ ([[0x61], [0xC3, 0xA9]] : List Bytes), 1 ≤ x.length ∧ x.length ≤ 16) :=
  ⟨⟨by decide +kernel, slotFree_own (v := vocabA) rfl rfl rfl⟩, by decide +kernel, by decide +kernel⟩

def cutF : Flight := fl 0x600 [(20, 4, 5), (48, 4, 16)]
def abcde : Bytes := [0x61, 0x62, 0x63, 0x64, 0x65]
theorem witness_TextIsCutIntoSegments_cut : let s := streaming cutS cutF
    (s.ready? 1 0x600 = some cutF ∧ s.streamOf cutF = some cutS ∧ cutS.cut = true ∧ cutF.zero [(18, 2), (24, 8), (52, 76)] = true ∧
      cutF.u 16 1 = 0 ∧ cutF.u 17 1 ≤ 1 ∧ cutF.u 20 4 = 5 ∧ inside 1 1048576 (cutF.u 20 4) = true ∧ aligned64 (cutF.u 40 8) = true ∧
      cdiv (cutF.u 20 4 + 3) (cutS.segLen - 3) * cutS.segLen * cutS.outW ≤ cutF.u 48 4 ∧ s.flight? 1 = some cutF ∧
      tfind s.streams cutF.obj = some cutS ∧ (s.port (s.flightPort cutF)).st ≠ .failed) ∧
    Source s s cutF 0 0 5 (.ok abcde) 0 (slice abcde 0 5) :=
  ⟨by decide +kernel, host_source _ _ _ _ _ _ (by decide) (by decide +kernel)⟩

/-- A draft source of one passage of one token. -/
def draftBytes : Bytes := natLe 1 4 ++ List.replicate 60 0 ++ natLe 0 4
def draftF : Flight := fl 0x630 [(16, 1, 1), (20, 4, 1), (40, 8, 68)]

theorem witness_StreamsFeedAndDraft_open : let f := fl 0x620 []
    let s := { holding up f with vocabs := [(0, vocabA)] }
    (s.ready? 1 0x620 = some f ∧ streamOpenOk f = true ∧ hHandle f.raw < 4096 ∧ s.streamOf f = none ∧ s.streams.length < 4096 ∧ f.u 16 1 = 0 ∧
      tfind s.vocabs (f.u 17 1) = some vocabA ∧ vocabA.wing = f.wing ∧ f.u 18 1 = 0 ∧ stopsOf [] 0 = some [] ∧ s.flight? 1 = some f) ∧
    Source s s f (f.u 19 1) (f.u 32 8) 0 (.ok []) 0 [] := ⟨by decide +kernel, no_source _ _ _ _ _ _⟩

def feedF : Flight := fl 0x621 [(20, 4, 1), (48, 4, 456)]
theorem witness_StreamsFeedAndDraft_feed : let s := streaming textS feedF
    (s.ready? 1 0x621 = some feedF ∧ s.streamOf feedF = some textS ∧ textS.cut = false ∧ textS.stopped = false ∧
      feedF.zero [(18, 2), (24, 8), (52, 76)] = true ∧ feedF.u 16 1 = 0 ∧ feedF.u 17 1 ≤ 1 ∧ feedF.u 20 4 = 1) ∧
    (inside 1 4096 (feedF.u 20 4) = true ∧ aligned64 (feedF.u 32 8) = true ∧ aligned64 (feedF.u 40 8) = true ∧
      384 * feedF.u 20 4 + 72 ≤ feedF.u 48 4 ∧ zeroAt feedF.cont (4 * feedF.u 20 4) (feedF.cont.length - 4 * feedF.u 20 4) = true) ∧
    (tfind s.vocabs textS.vocab = some vocabA ∧ (slice (natLe 0 4) 0 4).length = 4 ∧ (∀ i ∈ words32 (natLe 0 4), i < vocabA.tokens.length) ∧
      s.flight? 1 = some feedF ∧ tfind s.streams feedF.obj = some textS ∧ (s.port (s.flightPort feedF)).st ≠ .failed ∧ textS.stops = [] ∧
      textS.held = []) ∧
    Source s s feedF 0 0 4 (.ok (natLe 0 4)) 0 (slice (natLe 0 4) 0 4) :=
  ⟨by decide +kernel, by decide +kernel, by decide +kernel, host_source _ _ _ _ _ _ (by decide) (by decide +kernel)⟩

theorem witness_StreamsFeedAndDraft_close_source :
    (let f := fl 0x622 []
     (streaming textS f).ready? 1 0x622 = some f ∧ (streaming textS f).streamOf f = some textS ∧ f.zero [(16, 112)] = true) ∧
    (let f := draftF
     let s := streaming textS f
     (s.ready? 1 0x630 = some f ∧ s.streamOf f = some textS ∧ textS.cut = false ∧ f.zero [(18, 2), (24, 8), (48, 80)] = true ∧
       inside 1 64 (f.u 16 1) = true ∧ f.u 17 1 = 0 ∧ inside 1 65536 (f.u 20 4) = true ∧ f.u 40 8 = 68 ∧
       roundUp (4 * f.u 16 1) 64 + 4 * f.u 20 4 = 68) ∧
     (zeroAt draftBytes (4 * f.u 16 1) (roundUp (4 * f.u 16 1) 64 - 4 * f.u 16 1) = true ∧
       (∀ l ∈ words32 (slice draftBytes 0 (4 * f.u 16 1)), 1 ≤ l) ∧ (words32 (slice draftBytes 0 (4 * f.u 16 1))).foldl (· + ·) 0 = f.u 20 4 ∧
       tfind s.vocabs textS.vocab = some vocabA ∧ (∀ i ∈ words32 (draftBytes.drop (roundUp (4 * f.u 16 1) 64)), i < vocabA.tokens.length) ∧
       s.flight? 1 = some f ∧ tfind s.streams f.obj = some textS) ∧
     Source s s f 0 0 68 (.ok draftBytes) 0 (slice draftBytes 0 68) ∧ slice draftBytes 0 68 = draftBytes ∧
     FloorRoom (s.freeInternal f.wing textS.frames) f.wing (cdiv (f.u 40 8) pageSize)) :=
  ⟨by decide +kernel, by decide +kernel, by decide +kernel, host_source _ _ _ _ _ _ (by decide) (by decide +kernel), by decide +kernel,
    floorRoom_of (by decide +kernel)⟩

theorem witness_StreamsFeedAndDraft_propose :
    (let f := fl 0x631 [(16, 1, 1), (17, 1, 2)]
     let s := streaming textS f
     s.ready? 1 0x631 = some f ∧ s.streamOf f = some textS ∧ textS.draft = some [[0, 0, 0]] ∧ textS.stopped = false ∧
       f.zero [(18, 22), (48, 80)] = true ∧ inside 1 8 (f.u 16 1) = true ∧ inside 1 16 (f.u 17 1) = true ∧ aligned64 (f.u 40 8) = true ∧
       (draftMatch textS.history 1 [[0, 0, 0]]).isSome = true ∧ draftMatch textS.history 2 [[0, 0, 0]] = none ∧
       (s.port (s.flightPort f)).st ≠ .failed) := by decide +kernel

/-- A wing 0 with quotas in every tier, and its ranges. -/
def rich : State := (up.setReg (wngReg 0 0x2008) (4096 + 4096 * 2 ^ 32)).setReg (wngReg 0 0x2010) (64 * 2 ^ 32 + 2 ^ 56)
def ranged (l : List Range) (f : Flight) : State := { holding rich f with ranges := l }
def allocF (tier : Nat) : Flight := fl 0x940 [(16, 1, tier), (20, 4, 2)]
/-- A page held in a window-cache frame. -/
def cachedEnt : PageEnt := { tier := 2 }
def cellarRange : Range := { wing := 0, tier := 2, base := 2 * 2 ^ 30, pages := 1 }
def freeF : Flight := fl 0x941 [(20, 4, 4), (24, 8, 2 ^ 30 * pageSize)]
def pinF (v base : Nat) : Flight := fl 0x942 [(16, 1, v), (20, 4, 1), (24, 8, base * pageSize)]

theorem witness_TierRangesComeAndGo_alloc :
    (∀ tier ∈ [1, 2, 3], let f := allocF tier
     let s := ranged [] f
     (s.allocBase f).toOption = some (tier * 2 ^ 30) ∧ bit (f.u 17 1) 1 = false ∧ s.ready? 1 0x940 = some f ∧ allocFieldsOk f = true) ∧
    (let f := allocF 1
     let s := ranged [] f
     s.floorUse f.wing + f.u 20 4 ≤ s.floorQuota f.wing ∧ isRegionRange 1 (f.u 18 1) (f.u 20 4) = false ∧
       (∀ i, i < 12 → f.u 20 4 ≤ s.stackFree f.wing i) ∧ (holding up f).floorQuota f.wing < (holding up f).floorUse f.wing + f.u 20 4) ∧
    (let f := fl 0x940 [(16, 1, 1), (18, 1, 1), (20, 4, 8)]
     let s := ranged [] f
     isRegionRange 1 (f.u 18 1) (f.u 20 4) = true ∧ s.floorUse f.wing + f.u 20 4 ≤ s.floorQuota f.wing ∧
       (s.freeRegions f.wing ((f.u 18 1 - 1) / 3) (f.u 20 4 / 8)).isSome = true) ∧
    (let f := allocF 2
     let s := ranged [] f
     s.cellarUse f.wing + f.u 20 4 ≤ s.cellarQuota f.wing ∧ s.cellarTotal + f.u 20 4 ≤ 106811523) ∧
    (let f := allocF 3
     let s := { ranged [] f with bps := [(0, { en := .enabled })] }
     s.annexUse f.wing + f.u 20 4 ≤ s.annexQuota f.wing ∧ s.annexRanges (f.u 19 1) < 256 ∧ (s.bp (f.u 19 1)).en = .enabled) ∧
    (let r := { floorRange with fid := some 1, ready := false }
     let s := ranged [r] (act 0x940 [])
     s.ranges.find? (fun r => r.fid == some 1 && r.tier == 1) = some r ∧ s.active? 1 0x940 = some (act 0x940 [])) := by decide +kernel

theorem witness_TierRangesComeAndGo_free :
    (let s := ranged [floorRange] freeF
     s.ready? 1 0x941 = some freeF ∧ freeF.zero [(12, 4), (16, 4), (32, 96)] = true ∧
       s.exactRange freeF.wing (freeF.u 24 8) (freeF.u 20 4) = some floorRange ∧ s.programOn floorRange = false ∧
       s.windowsOn 0 floorRange.base floorRange.pages = false ∧ s.namers floorRange 1 = [] ∧ s.journalFull floorRange = false ∧
       { s with progs := [(0, prog0)] }.programOn floorRange = true ∧
       { s with flights := [freeF, { act 0x942 [(20, 4, 1), (24, 8, 2 ^ 48)] with fid := 2 }] }.namers floorRange 1 = [2]) ∧
    (let r := { floorRange with freeFrom := some 1, freeFor := [2] }
     let f := { freeF with phase := .active }
     let g := { act 0x942 [] with fid := 2 }
     let s := { ranged [r] f with flights := [f, g] }
     s.ranges.find? (fun r => r.freeFrom == some 1) = some r ∧ s.active? 1 0x941 = some f ∧
       (∃ g ∈ s.flights, g.fid ∈ r.freeFor ∧ g.phase ≠ .done) ∧ s.journalFull r = false ∧
       (∀ g ∈ { s with flights := [f] }.flights, g.fid ∈ r.freeFor → g.phase = .done) ∧ { s with flights := [] }.active? 1 0x941 = none) := by
  decide +kernel

theorem witness_TierRangesComeAndGo_pin :
    (let f := pinF 0 (2 ^ 30)
     let s := ranged [floorRange] f
     s.ready? 1 0x942 = some f ∧ s.rangeOver f.wing (f.u 24 8) (f.u 20 4) = some floorRange ∧ f.zero [(12, 4), (17, 3), (32, 96)] = true ∧
       f.u 16 1 ≤ 1 ∧ floorRange.tier = 1) ∧
    (∀ v ∈ [0, 1], let f := pinF v (2 * 2 ^ 30)
     let s := { ranged [cellarRange] f with pages := [(2 * 2 ^ 30, cachedEnt)] }
     s.ready? 1 0x942 = some f ∧ s.rangeOver f.wing (f.u 24 8) (f.u 20 4) = some cellarRange ∧ cellarRange.tier ≠ 1 ∧ f.u 16 1 = v ∧
       (s.page 0 (2 * 2 ^ 30)).cached = true ∧ (s.page 0 (2 * 2 ^ 30)).filling = false ∧ s.inLost 0 (2 * 2 ^ 30 * pageSize) 1 = false ∧
       s.cacheUse 0 ≤ s.cacheMax 0) ∧
    (let x : PinWait := { fid := 1, wing := 0, pages := [2 * 2 ^ 30] }
     let f := { pinF 1 (2 * 2 ^ 30) with phase := .active }
     let s := { ranged [cellarRange] f with pins := [x], pages := [(2 * 2 ^ 30, cachedEnt)] }
     s.pins.find? (fun x => x.fid == 1) = some x ∧ s.flight? x.fid = some f ∧ f.phase = .active ∧
       (s.page 0 (2 * 2 ^ 30)).cached = true ∧ (s.page 0 (2 * 2 ^ 30)).filling = false ∧ s.inLost 0 (2 * 2 ^ 30 * pageSize) 1 = false) := by
  decide +kernel

/-- Host port 0 enabled, with its window 0 on four Floor pages of wing 0. -/
def hosted : State :=
  { (up.setReg (winAReg 0 0) (2 ^ 48 + 1)).setReg (winBReg 0 0) 4 with
    ports := [(0, { st := .enabled })], ranges := [floorRange], pages := (List.range 4).map fun i => (2 ^ 30 + i, { tier := 1 }) }
def cleanable : State := { up.setReg 0x3000 (2 ^ 16) with pages := [(2 ^ 31, { tier := 2, dirty := true })], beat := { up.beat with beats := 1 } }

theorem witness_HostMemoryReadsAndWrites_window :
    (let s := hosted
     let h := s.hostWin 0 0
     s.err.fatal = false ∧ s.link.cxl = true ∧ (s.port 0).st = .enabled ∧ s.creditHeld = false ∧ (s.port 0).queue = [] ∧ s.bwOpen 0 = true ∧
       s.winOfDpa 0 64 = some 0 ∧ s.err.armed = false ∧ s.accesses = [] ∧ h.shared = false ∧ h.tierAddr 64 / 64 * 64 < 2 ^ 52 ∧
       s.inLost h.wing (h.tierAddr 64) 64 = false ∧ s.inRanges h.wing (h.tierAddr 64) 64 = true ∧
       s.floorBusy h.wing (h.tierAddr 64) 64 = false ∧ (s.page h.wing (h.tierAddr 64 / pageSize)).tier = 1 ∧
       (s.page h.wing (h.tierAddr 64 / pageSize)).filling = false ∧ s.winOfDpa 0 (4 * pageSize) = none) := by decide +kernel

/-- The same window, shared: a line that no host holds, and one that port 0 owns. -/
def hostedShared : State := hosted.setReg (winAReg 0 0) (2 ^ 48 + 3)
theorem witness_HostMemoryReadsAndWrites_shared : let s := hostedShared
    let h := s.hostWin 0 0
    let k := lineKey h.wing (h.tierAddr 64 / 64 * 64)
    s.winOfDpa 0 64 = some 0 ∧ h.shared = true ∧ s.snoops = [] ∧ s.dirEnt? k = none ∧ s.dir.length < dirSize ∧
      { s with dir := [{ stamp := 0, line := k, owner := some 0, holders := [0] }] }.dirEnt? k = some { stamp := 0, line := k, owner := some 0, holders := [0] } := by
  decide +kernel

theorem witness_HostMemoryReadsAndWrites_late :
    (tget 0 hosted.bwTicks 0 < hosted.cyc / 1500 + 1 ∧ (hosted.port 0).queue = []) ∧
    (let s := cleanable
     2 ^ 31 < 2 ^ 34 ∧ bits (s.reg 0x3000) 31 16 ≠ 0 ∧ (s.page 0 (2 ^ 31)).cached = true ∧ (s.page 0 (2 ^ 31)).dirty = true ∧
       (s.page 0 (2 ^ 31)).busy = false ∧ bits (s.reg 0x3000) 31 16 ≤ s.beat.beats - (s.page 0 (2 ^ 31)).age ∧ s.cellarStop = none) ∧
    (let a : Access := { id := 3, wing := 0, fid := some 1, page := 2 ^ 31, cause := 1, issued := 0 }
     let s := { holding up (act 0x100 []) with accesses := [a] }
     s.accesses.find? (fun a => a.id == 3) = some a ∧ a.stalled = false ∧ s.stillOut a = true ∧ lateAfter a.cause < s.cyc - a.issued ∧
       s.cyc - 2000000 ≤ lateAfter a.cause) := by decide +kernel

theorem witness_HostMemoryReadsAndWrites_fill :
    (let s := { up with pages := [(2 ^ 31, { tier := 2, busy := true, filling := true }), (2 ^ 31 + 1, { tier := 2, busy := true })] }
     (∀ p ∈ [2 ^ 31, 2 ^ 31 + 1], s.annexBusy 0 p = false ∧ s.flashBusy (pageUnits 0 p) = false ∧
       (s.page 0 p).filling = (p == 2 ^ 31) ∧ (s.page 0 p).busy = true) ∧ NoWaiters s) ∧ SetUpHeard up 0 :=
  ⟨⟨by decide +kernel, rfl, rfl, fun r h => nomatch h⟩, up_setup⟩

/-- A range of one region of compute stack 0, and a module in which that region has a state. -/
def regionRange : Range := { wing := 0, tier := 1, base := 2 ^ 30, pages := 8, stack := 1, regions := [5] }
def regioned (x : Region) (f : Flight) : State :=
  { holding up f with
    ranges := [regionRange], regions := [(5, x)], pages := (List.range 8).map fun i => (2 ^ 30 + i, floorEnt (regionFrame 0 5 i)) }
def openR : Flight := fl 0x700 [(20, 4, 1), (24, 8, 2 ^ 48)]
def sealR : Flight := fl 0x701 [(20, 4, 1), (24, 8, 2 ^ 48)]

theorem witness_RegionsOpenAndSeal_open :
    (let s := regioned {} openR
     s.ready? 1 0x700 = some openR ∧ regionFieldsOk openR false = true ∧ s.namedRegions openR = some [5] ∧ [5].any s.regionMoving = false ∧
       s.movePart openR = some (s, 0) ∧ s.flight? 1 = some openR ∧ openR.u 17 1 = 0 ∧
       (let shut := ((s.namedRegions openR).getD []).filter fun k => (s.region k).st == .guarded
        (∀ i, i < 4 → s.openRegions i + (shut.filter fun k => regionStack k == i).length ≤ profOpenMax s.prof) ∧
        (∀ x ∈ s.poolFrames, x.wing = openR.wing)) ∧
       [5].any (regioned { st := .sealing } openR).regionMoving = true) ∧
    (let j : RegionJob := { fid := 1, sealing := false, left := [5], changed := 1 }
     let f := { openR with phase := .active }
     let s := { regioned { st := .opening } f with regionJobs := [j] }
     s.regionJobs.find? (fun j => j.fid == 1 && !j.sealing) = some j ∧ j.table = none ∧ s.active? 1 0x700 = some f ∧
       (∀ k ∈ j.left, s.regionBad k = 0) ∧ (∃ k ∈ j.left, { s with frmBad := [2 ^ 42] }.regionBad k ≠ 0) ∧
       { s with flights := [] }.active? 1 0x700 = none) := by decide +kernel

theorem witness_RegionsOpenAndSeal_seal :
    (let s := regioned { st := .opened } sealR
     s.ready? 1 0x701 = some sealR ∧ regionFieldsOk sealR true = true ∧ s.namedRegions sealR = some [5] ∧ [5].any s.regionMoving = false ∧
       [5].filter (fun k => (s.region k).st == .opened) ≠ [] ∧ [5].filter (fun k => ((regioned {} sealR).region k).st == .opened) = []) ∧
    (let f := { sealR with phase := .active }
     let j : RegionJob := { fid := 1, sealing := true, left := [5], changed := 1 }
     let s := { regioned { st := .sealing } f with regionJobs := [j] }
     isCompute 0 = true ∧ 5 < 36864 ∧ (s.region (regionKey (0 / 3) 5)).st = .sealing ∧ s.regionRuns 5 = false ∧ s.memWaits = [] ∧ j.table = none ∧
       (∀ j' ∈ s.regionJobs, j'.fid = 1 → j' = j) ∧ s.flight? 1 = some f ∧ f.phase ≠ .done ∧
       { s with stkOps := [{ id := 7, stack := 0, fid := none, opcode := 0, wing := 0, cls := 1, running := true, regions := [5] }] }.regionRuns 5 =
         true) ∧
    (let s := regioned { st := .opened, held := true } openR
     WingHeard s 0 0 ∧ s.spanRegion 0 (8 * (bits (2 ^ 48) 51 21 + 0)) = some 5 ∧ (s.region 5).st = .opened) ∧
    SetUpHeard up 0 := by unfold WingHeard SetUpHeard Hearing Reaches; decide +kernel

/-- Compute operations with operands in that region. -/
def stkF (op : Nat) (l : List (Nat × Nat × Nat)) : Flight := fl op ([(32, 8, 2 ^ 48), (40, 8, 2 ^ 48 + 4096)] ++ l)
def fillF : Flight := fl 0x731 [(20, 4, 64), (40, 8, 2 ^ 48)]
def stkOp7 (op : Nat) (aux rows : Bytes) : StkOp :=
  { id := 7, stack := 0, fid := some 1, opcode := op, wing := 0, cls := 1, running := true, regions := [5], aux, rows }
def opRun (f : Flight) (aux rows : Bytes) : State :=
  { regioned { st := .opened } { f with phase := .active } with stkOps := [stkOp7 (hOpcode f.raw) aux rows] }

def stkFs : List Flight :=
  [fillF, stkF 0x730 [(20, 4, 64)], stkF 0x710 [(18, 2, 32), (20, 4, 1)], stkF 0x711 [(18, 2, 4), (20, 4, 1)],
    stkF 0x720 [(18, 2, 64), (20, 4, 1)], stkF 0x721 [(20, 4, 1)]]

theorem witness_StackOperationsRun_submit :
    (let s := regioned { st := .opened } fillF
     (s.ready? 1 0x731 = some fillF ∧ stkFieldsOk fillF = true ∧ s.oneStack fillF.wing fillF.stkSpans = some 0 ∧
       (∀ x ∈ fillF.stkSpans, s.freeing (some 1) 0 x.1 x.2 = false) ∧ s.inputsOk fillF = true ∧ (s.stkQueue 0).length < 1024 ∧
       auxBytes fillF = 0 ∧ s.flight? 1 = some fillF) ∧
     Source s s fillF 0 0 0 (.ok []) 0 []) ∧
    (let f := { fillF with phase := .active }
     (regioned { st := .opened } f).active? 1 0x731 = some f ∧ ∀ o ∈ (regioned { st := .opened } f).stkOps, o.fid ≠ some 1) :=
  ⟨⟨by decide +kernel, no_source _ _ _ _ _ _⟩, by decide +kernel⟩

theorem witness_StackOperationsRun_dispatch :
    (let f := { fillF with phase := .active }
     let o := { stkOp7 0x731 [] [] with running := false }
     let s := { regioned { st := .opened } f with stkOps := [o] }
     isCompute 0 = true ∧ s.err.fatal = false ∧ s.nextStkOp (0 / 3) = some o ∧ s.flight? 1 = some f ∧ f.phase ≠ .done ∧ 0x710 ≤ o.opcode ∧
       s.touchedRegions 0 f.stkSpans = [some 5] ∧ s.shut (some 5) = false ∧ s.addOutside f 0 [] = false ∧ (s.region 5).held = false ∧
       (regioned {} f).shut (some 5) = true ∧ ((regioned { st := .opened, held := true } f).region 5).held = true) ∧
    (let f := { stkF 0x720 [(18, 2, 64), (20, 4, 1)] with phase := .active }
     (regioned { st := .opened } f).addOutside f 0 (natLe 0xFFFFFFFF 4) = true) := by decide +kernel

theorem witness_StackOperationsRun_complete : ∀ f ∈ stkFs,
    let o := stkOp7 (hOpcode f.raw) (List.replicate 4 0) (List.replicate 64 0)
    let s := opRun f (List.replicate 4 0) (List.replicate 64 0)
    let g := { f with phase := .active }
    s.stkOps.find? (fun o => o.id == 7 && o.running && isCompute 0 && o.stack == 0 / 3) = some o ∧ s.flight? 1 = some g ∧ g.phase = .active ∧
      (∀ x ∈ g.stkSources o.aux, s.ownedIn g.wing x.1 x.2 = false ∧ (x.2 ≠ 0 → s.firstPoison g.wing x.1 x.2 = none)) ∧
      (∀ x ∈ g.stkTargets o.aux, s.heldIn g.wing x.1 x.2 = false) := by decide +kernel

theorem witness_StackOperationsRun_asks :
    (let s := { opRun fillF [] [] with dir := [{ stamp := 0, line := lineKey 0 (2 ^ 48), owner := some 0, holders := [0] }] }
     let g := { fillF with phase := .active }
     ∃ x ∈ g.stkTargets [], s.heldIn g.wing x.1 x.2 = true) ∧
    (let s := { opRun fillF [] [] with unitQ := [(5, [7])] }
     tget [] s.unitQ (0 / 3 * 64 + 5) = [7] ∧ isCompute 0 = true ∧ 5 < 64) ∧
    (let s := { up with refreshAt := [(5, 2000000)] }
     tfind s.refreshAt (0 / 3 * 64 + 5) = some 2000000 ∧ s.cyc < 2000000 + s.refreshPeriod 0 ∧
       ∀ a, tfind { s with refreshAt := [(5, 0)] }.refreshAt 5 = some a → a + s.refreshPeriod 0 ≤ s.cyc) := by
  refine ⟨by decide +kernel, by decide +kernel, by decide +kernel, by decide +kernel, fun a h => ?_⟩
  have e : a = 0 := (Option.some.inj h).symm
  subst e
  decide +kernel

/-- An embedding table of two members: rows of 16 FP32 elements, in region 5 of compute stack 0; a module with it. -/
def embT : Emb :=
  { fmt := 0, update := true, frac := 0, members := 2, index := 0, width := 16, nrows := 4, migSlots := 2, ports := [0xFF, 0], pages := 1, regions := [5] }
def tabled (f : Flight) : State :=
  { holding ((quota.setReg (wngReg 0 0x2308) 1).setReg (wngReg 0 0x2010) (64 * 2 ^ 32)) f with
    embs := [(0, embT)], beat := { up.beat with number := some 10 } }
def createE (opts : Nat) : Flight :=
  fl 0x400 [(17, 1, opts), (19, 1, 2), (22, 2, 16), (24, 4, 4), (28, 4, 2), (32, 1, 0xFF), (33, 1, 0)]
def writeE : Flight := fl 0x401 [(24, 4, 1), (40, 8, 64)]
def gatherE : Flight := fl 0x410 [(20, 4, 1), (48, 4, 64)]
def updateE : Flight := fl 0x420 [(20, 4, 1), (40, 8, 128)]
def pantryE : Flight := fl 0x430 [(20, 4, 1), (24, 4, 1), (28, 8, 20), (48, 8, 64)]
def migrateE (dir : Nat) : Flight := fl 0x440 [(16, 1, dir), (17, 1, 1), (20, 4, 1), (24, 8, 20), (40, 8, 64)]
def row64 : Bytes := List.replicate 64 0

def creatingE (o : Nat) : State := { tabled (createE o) with embs := [] }
def pagesE (o : Nat) : Nat := cdiv ((embOfFields (createE o)).localRows + (embOfFields (createE o)).migSlots) (embOfFields (createE o)).q
theorem witness_EmbeddingTables_create :
    (∀ o ∈ [0, 1], (creatingE o).ready? 1 0x400 = some (createE o) ∧ createFieldsOk (createE o) = true ∧
      tfind (creatingE o).embs (createE o).obj = none ∧ (creatingE o).embs.length < 1024 ∧ (embOfFields (createE o)).update = (o == 1)) ∧
    FloorRoom (creatingE 0) 0 (pagesE 0) ∧
    ((creatingE 1).embRegions 0 (pagesE 1) = some [0] ∧ (creatingE 1).floorUse 0 + pagesE 1 ≤ (creatingE 1).floorQuota 0 ∧
      ∀ i, i < 4 → (creatingE 1).openRegions i + ([0].filter fun k => regionStack k == i).length ≤ profOpenMax (creatingE 1).prof) :=
  ⟨by decide +kernel, floorRoom_of (by decide +kernel), by decide +kernel⟩

theorem witness_EmbeddingTables_create_ends :
    (let f := { createE 1 with phase := .active }
     let j : RegionJob := { fid := 1, sealing := false, left := [5], changed := 1, table := some 0 }
     let e := { embT with ready := false }
     let s := { tabled f with embs := [(0, e)], regions := [(5, { st := .opening })], regionJobs := [j] }
     s.regionJobs.find? (fun j => j.fid == 1 && !j.sealing) = some j ∧ j.table = some 0 ∧ tfind s.embs 0 = some e ∧ s.active? 1 0x400 = some f ∧
       (∀ k ∈ j.left, s.regionBad k = 0) ∧
       (∃ k ∈ j.left, { s with embs := [(0, { e with bad := [0] })] }.regionBad k ≠ 0) ∧ { s with flights := [] }.active? 1 0x400 = none) := by
  decide +kernel

theorem witness_EmbeddingTables_write : let s := tabled writeE
    (s.ready? 1 0x401 = some writeE ∧ s.embOf writeE = some embT ∧ writeE.zero [(16, 1), (18, 2), (28, 4), (48, 80)] = true ∧ writeE.u 17 1 = 0 ∧
      writeE.u 20 4 + writeE.u 24 4 ≤ embT.localRows ∧ writeE.u 40 8 = 64 ∧ writeE.u 24 4 * embT.rb = 64 ∧ aligned64 (writeE.u 32 8) = true ∧
      s.addsRun writeE.obj embT (writeE.u 20 4) (writeE.u 24 4) = false ∧ s.flight? 1 = some writeE ∧ tfind s.embs writeE.obj = some embT ∧
      (embT.mem.map Prod.fst).Pairwise (· < ·)) ∧
    Source s s writeE 0 0 64 (.ok row64) 0 (slice row64 0 64) :=
  ⟨by decide +kernel, host_source _ _ _ _ _ _ (by decide) (by decide +kernel)⟩

theorem witness_EmbeddingTables_destroy :
    (let f := fl 0x402 []
     (tabled f).ready? 1 0x402 = some f ∧ (tabled f).embOf f = some embT ∧ f.zero [(16, 112)] = true ∧ (∀ m ∈ embT.migs, m.switched = true) ∧
       (∀ g ∈ (tabled f).flights, g.wing = f.wing → g.phase = .active → g.fid ≠ 1 → g.obj = f.obj → hOpcode g.raw < 0x400 ∨ 0x500 ≤ hOpcode g.raw) ∧
       embT.regions ≠ [] ∧ { embT with regions := [] }.regions = [] ∧ (tabled f).embFrames = []) ∧
    (let f := { fl 0x402 [] with phase := .active }
     let j : RegionJob := { fid := 1, sealing := true, left := [5], changed := 0, table := some 0 }
     let s := { tabled f with regions := [(5, { st := .sealing })], regionJobs := [j] }
     isCompute 0 = true ∧ 5 < 36864 ∧ (s.region (regionKey (0 / 3) 5)).st = .sealing ∧ s.regionRuns 5 = false ∧ j ∈ s.regionJobs ∧
       (∀ j' ∈ s.regionJobs, j'.fid = j.fid → j' = j) ∧ s.flight? j.fid = some f ∧ f.phase ≠ .done) := by decide +kernel

theorem witness_EmbeddingTables_gather : let s := tabled gatherE
    (s.ready? 1 0x410 = some gatherE ∧ s.embOf gatherE = some embT ∧ gatherFieldsOk gatherE embT = true ∧ gatherE.u 19 1 = 0 ∧
      4 * gatherE.u 20 4 = 4 ∧ 4 * gatherE.u 24 4 = 0 ∧ s.flight? 1 = some gatherE ∧ (∀ g ∈ words32 (natLe 0 4) ++ words32 [], g < embT.nrows)) ∧
    ((∀ j ∈ s.embJobs, j.fid ≠ 1) ∧ (∀ p ∈ s.prefRows, p.key ≠ gatherE.obj) ∧ (s.port (s.flightPort gatherE)).st ≠ .failed ∧
      (∀ g ∈ words32 (natLe 0 4), bit (gatherE.u 17 1) 0 = false) ∧ words32 [] = [] ∧
      (∀ g ∈ words32 (natLe 0 4), embT.moving g = false ∧ embT.slotOf g = some 0 ∧ embT.rowBad 0 = false)) ∧
    Source s s gatherE 0 0 4 (.ok (natLe 0 4)) 0 (slice (natLe 0 4) 0 4) ∧ Source s s gatherE 0 0 0 (.ok []) 0 [] :=
  ⟨by decide +kernel, by decide +kernel, host_source _ _ _ _ _ _ (by decide) (by decide +kernel), no_source _ _ _ _ _ _⟩

def rows128 : Bytes := List.replicate 128 0
theorem witness_EmbeddingTables_update : let s := tabled updateE
    (s.ready? 1 0x420 = some updateE ∧ s.embOf updateE = some embT ∧ updateFieldsOk updateE embT = true ∧ updateE.u 17 1 = 0 ∧
      updateE.u 40 8 = 128 ∧ s.flight? 1 = some updateE ∧ (∀ i, i < 4 → (s.stkQueue i).length < 1024) ∧ (∀ j ∈ s.embJobs, j.fid ≠ 1)) ∧
    (∀ x ∈ updRows updateE embT rows128, x.1 < embT.nrows ∧ allFinite x.2 = true ∧ embT.moving x.1 = false ∧ embT.slotOf x.1 = some 0 ∧
      embT.slotRegion 0 = some 5 ∧ regionStack 5 < 4) ∧
    Source s s updateE 0 0 128 (.ok rows128) 0 (slice rows128 0 128) ∧ slice rows128 0 128 = rows128 :=
  ⟨by decide +kernel, by decide +kernel, host_source _ _ _ _ _ _ (by decide) (by decide +kernel), by decide +kernel⟩

theorem witness_EmbeddingTables_add :
    (let f := { updateE with phase := .active }
     let j : EmbJob := { fid := 1, key := 0, gather := false, ops := 1 }
     let o := stkOp7 0x420 (natLe 0 4) row64
     let s := { tabled f with stkOps := [o], embJobs := [j] }
     (s.stkOps.find? (fun o => o.id == 7 && o.running && isCompute 0 && o.stack == 0 / 3) = some o ∧ o.ask = none ∧ s.embFrames = [] ∧
       s.flight? 1 = some f ∧ f.phase = .active ∧ s.embOf f = some embT ∧ opAdds o embT.width = [(0, row64)]) ∧
     (embT.slotOf 0 = some 0 ∧ embT.rowBad 0 = false ∧ s.job? 1 = some j ∧ j.waits = [] ∧ j.parked = [])) := by decide +kernel

theorem witness_EmbeddingTables_pantry : let s := tabled pantryE
    (s.ready? 1 0x430 = some pantryE ∧ s.embOf pantryE = some embT ∧ pantryE.zero [(16, 1), (18, 2), (36, 4), (56, 72)] = true ∧
      pantryE.u 17 1 = 0 ∧ pantryE.u 20 4 ≤ 65536 ∧ inside 1 65535 (pantryE.u 24 4) = true ∧ pantryE.u 48 8 = 64 ∧
      roundUp (4 * pantryE.u 20 4) 64 = 64 ∧ aligned64 (pantryE.u 40 8) = true ∧ pantryE.u 28 8 = 20 ∧ embT.sets = []) ∧
    (s.pantryUse pantryE.wing (some pantryE.obj) + pantryE.u 20 4 * embT.rb ≤ 65536 * bits (s.reg (wngReg pantryE.wing 0x2308)) 15 0 ∧
      (∀ g ∈ (words32 row64).take (pantryE.u 20 4), g < embT.nrows) ∧ s.flight? 1 = some pantryE ∧ tfind s.embs pantryE.obj = some embT) ∧
    BeatFree s 20 ∧ Source s s pantryE 0 0 64 (.ok row64) 0 (slice row64 0 64) ∧ slice row64 0 64 = row64 :=
  ⟨by decide +kernel, by decide +kernel, beat_free _ rfl rfl, host_source _ _ _ _ _ _ (by decide) (by decide +kernel), by decide +kernel⟩

def rowsOf (dir : Nat) : Bytes := natLe (if dir = 0 then 0 else 1) 4 ++ List.replicate 60 0
theorem witness_EmbeddingTables_migrate : (∀ dir ∈ [0, 1], let f := migrateE dir
    let s := tabled f
    let bs := rowsOf dir
    (s.ready? 1 0x440 = some f ∧ s.embOf f = some embT ∧ f.zero [(19, 1), (48, 80)] = true ∧ f.u 16 1 = dir ∧ f.u 17 1 < embT.members ∧
      f.u 17 1 ≠ embT.index ∧ f.u 18 1 = 0 ∧ inside 1 4096 (f.u 20 4) = true ∧ f.u 40 8 = 64 ∧ roundUp (4 * f.u 20 4) 64 = 64) ∧
    (aligned64 (f.u 32 8) = true ∧ slice bs 0 64 = bs ∧ f.u 24 8 = 20 ∧
      (eachOnce ((words32 bs).take (f.u 20 4))).all (embT.canMove (f.u 16 1 == 0) (f.u 17 1)) = true ∧
      embT.slotsTaken + 1 ≤ embT.migSlots ∧ embT.holdersNamed + 1 ≤ 65536 ∧ s.flight? 1 = some f ∧ tfind s.embs f.obj = some embT)) ∧
    (∀ dir, BeatFree (tabled (migrateE dir)) 20) ∧
    Source (tabled (migrateE 0)) (tabled (migrateE 0)) (migrateE 0) 0 0 64 (.ok (rowsOf 0)) 0 (slice (rowsOf 0) 0 64) :=
  ⟨by decide +kernel, fun _ => beat_free _ rfl rfl, host_source _ _ _ _ _ _ (by decide) (by decide +kernel)⟩

theorem witness_EmbeddingTables_stats : let f := fl 0x450 []
    (tabled f).ready? 1 0x450 = some f ∧ (tabled f).embOf f = some embT ∧ f.zero [(16, 24), (48, 80)] = true ∧ aligned64 (f.u 40 8) = true ∧
      ((tabled f).port ((tabled f).flightPort f)).st ≠ .failed := by decide +kernel

/-- A journal with nothing in it has room for an entry. -/
theorem room_one (c : Cellar) (h : c.journal = []) : c.room 1 = true := by
  have b := Config.journalEntryFit.isLt
  refine decide_eq_true ?_
  rw [h, List.length_nil, Nat.zero_add, Nat.one_mul]
  exact b

/-- A wing whose Cellar range is cached and dirty. -/
def cellared (f : Flight) : State := { ranged [cellarRange] f with pages := [(2 * 2 ^ 30, { tier := 2, dirty := true })] }
def discardF : Flight := fl 0x800 [(20, 4, 1), (24, 8, 2 ^ 49)]
def syncF : Flight := fl 0x801 [(20, 4, 1), (24, 8, 2 ^ 49)]

theorem witness_CellarDiscardsSyncsAndShutsDown_discard :
    ((let s := cellared discardF
      s.ready? 1 0x800 = some discardF ∧ discardF.zero [(12, 4), (16, 4), (32, 96)] = true ∧ discardF.u 20 4 ≠ 0 ∧ discardF.u 24 8 % 16384 = 0 ∧
        (s.cellarRange 0 (discardF.u 24 8) (discardF.u 20 4 * 16384)).isSome = true ∧ s.cellarStop = none ∧
        s.heldIn 0 (discardF.u 24 8) (discardF.u 20 4 * 16384) = false ∧ (s.frm.map Prod.fst).Pairwise (· < ·) ∧
        (s.low.map Prod.fst).Pairwise (· < ·)) ∧ (cellared discardF).cellar.room 1 = true) ∧
    (let s := cellared syncF
     s.ready? 1 0x801 = some syncF ∧ syncF.zero [(12, 4), (16, 4), (32, 96)] = true ∧ syncF.u 20 4 ≠ 0 ∧ syncF.u 24 8 % pageSize = 0 ∧
       (s.cellarRange 0 (syncF.u 24 8) (syncF.u 20 4 * pageSize)).isSome = true ∧ s.cellarStop = none ∧
       (pageRun (syncF.u 24 8 / pageSize) (syncF.u 20 4)).filter (fun p => (s.page 0 p).dirty) = [2 ^ 31] ∧
       (s.page 0 (2 ^ 31)).filling = false ∧ 2 ^ 31 < 2 ^ 34) :=
  ⟨⟨by decide +kernel, room_one _ rfl⟩, by decide +kernel⟩

theorem witness_CellarDiscardsSyncsAndShutsDown_commit :
    (let f := act 0x801 []
     let x := (1, [2 ^ 31])
     let s := { holding up f with cellar := { syncs := [x] } }
     (s.flight? 1 = some f ∧ f.phase = .active ∧ f.admitCyc.isSome = true ∧ hOpcode f.raw = 0x801 ∧
       s.cellar.syncs.find? (fun x => x.1 == f.fid) = some x ∧ (∀ p ∈ x.2, s.flashOwes (pageUnits 0 p) = false)) ∧ s.cellar.room 1 = true) ∧
    (let f := act 0x210 [(20, 4, 1)]
     let s := withColl collA f
     s.flight? 1 = some f ∧ hOpcode f.raw = 0x210 ∧ (∀ g ∈ s.flights, g.obj = f.obj → g.phase = .active → g.admitCyc.isSome = true →
       hOpcode g.raw = 0x210 ∨ hOpcode g.raw = 0x282 → f.commits ≤ g.commits) ∧ tfind s.colls f.obj = some collA ∧
       s.winClean 0 f.cls collA = (s, true)) :=
  ⟨⟨by decide +kernel, room_one _ rfl⟩, by decide +kernel⟩

theorem witness_CellarDiscardsSyncsAndShutsDown_health :
    (let f := fl 0x810 []
     let s := holding up f
     s.ready? 1 0x810 = some f ∧ f.zero [(12, 4), (16, 24), (48, 80)] = true ∧ aligned64 (f.u 40 8) = true ∧ (s.port (s.flightPort f)).st ≠ .failed) ∧
    (({ st := .mounted } : Cellar).st = .mounted ∧ ({ st := .readOnly } : Cellar).st ≠ .mounted ∧ ({ st := .shutDown } : Cellar).st ≠ .mounted ∧
      ({ st := .shutDown } : Cellar).st ≠ .readOnly) ∧
    (let s := { up with cellar := { closing := true } }
     s.cellar.closing = true ∧ s.durableKeys = [] ∧ s.cellar.writing = false) ∧
    (let s := { up with cyc := 3600 * 1500000000, cellar := { st := .mounted } }
     s.cellar.st ≠ .mounting ∧ roundUp (s.cellar.tempCyc + 3600 * 1500000000) 1500 ≤ s.cyc) ∧ SetUpHeard up 0 :=
  ⟨by decide +kernel, by decide +kernel, by decide +kernel, by decide +kernel, up_setup⟩

theorem background_bound : backgroundSeconds ≤ 259200 ∧ 1 ≤ backgroundSeconds := by unfold backgroundSeconds; omega
theorem witness_CellarDiscardsSyncsAndShutsDown_background :
    (let s := { up with cyc := 400000000000000, cellar := { st := .mounted } }
     s.cellar.st = .mounted ∧ s.boot.hkImage.isSome = true ∧
       roundUp (max s.boot.hkFrom (s.cellar.bgFrom.getD 0) + 1500000000 * backgroundSeconds) 1500 ≤ s.cyc) ∧
    up.cyc < roundUp (max up.boot.hkFrom (up.cellar.bgFrom.getD 0) + 1500000000 * backgroundSeconds) 1500 := by
  have b := background_bound
  refine ⟨⟨rfl, rfl, ?_⟩, ?_⟩
  · show roundUp (0 + 1500000000 * backgroundSeconds) 1500 ≤ 400000000000000
    unfold roundUp cdiv; omega
  · show 2000000 < roundUp (0 + 1500000000 * backgroundSeconds) 1500
    unfold roundUp cdiv; omega

/-- A module with flash operations of block 0. -/
def flashOp (id cls : Nat) (use : FlashUse) (on : Bool) : FlashOp := { id, cls, unit := 3, block := some 0, pu := 0, use, running := on }
def flashing (l : List FlashOp) : State := { up with cellar := { ops := l } }

/-- Block 0 in use with a valid unit: on its Cellar die garbage collection finds it, one spare block being in use. -/
def worn : Cellar := { st := .mounted, spareUsed := 1, blocks := [(0, { inUse := true, valid := [3], reads := 10 ^ 9 })], map := [(3, 0)] }

theorem worn_empty : worn.canEmpty 0 = true := by
  simp [Cellar.canEmpty, Cellar.block, Cellar.openBlock, worn, tget, tfind]

theorem witness_gc_block : ∃ b, worn.gcBlock (blockChan 0 / 16) = some b := by
  have h : 0 ∈ worn.service.filter fun b => worn.canEmpty b && blockChan b / 16 == blockChan 0 / 16 := by
    simp only [List.mem_filter, worn_empty]
    simp [Cellar.service, Cellar.block, worn, tget, tfind]
  unfold Cellar.gcBlock
  cases worn.foldBlock (blockChan 0 / 16) with
  | some b => exact ⟨b, rfl⟩
  | none =>
    show ∃ b, (match worn.service.filter fun b => worn.canEmpty b && blockChan b / 16 == blockChan 0 / 16 with
      | [] => none
      | b :: t => some (t.foldl worn.emptier b)) = some b
    cases e : worn.service.filter fun b => worn.canEmpty b && blockChan b / 16 == blockChan 0 / 16 with
    | nil => rw [e] at h; cases h
    | cons b t => exact ⟨_, rfl⟩

theorem witness_flash_issue : let o := flashOp 7 0 .fill false
    let r := flashOp 6 3 .write true
    let d := Config.blockDie 0
    (flashing [o]).cellar.nextOp d = some o ∧ (flashing [o]).cellar.onNow d = none ∧ (flashing [o, r]).cellar.nextOp d = some o ∧
    (flashing [o, r]).cellar.onNow d = some r := by
  simp [flashing, flashOp, Cellar.nextOp, Cellar.onNow, FlashOp.onDie, Cellar.mayStart, FlashUse.isRead, FlashUse.isErase, List.range, List.range.loop]

theorem witness_FlashOperationsAndTheMap_issue : let o := flashOp 7 0 .fill false
    let s := flashing [o]
    let d := Config.blockDie 0
    (s.err.fatal = false ∧ s.cellar.chanDown.contains o.chan = false ∧ s.cellar.chanOff.contains o.chan = false ∧ o.cls = 0 ∧
      o.use.isRead = true ∧ FlashUse.write.isRead = false ∧
      { s with cellar := { s.cellar with chanOff := [o.chan] } }.cellar.chanOff.contains o.chan = true) ∧
    (s.cellar.nextOp d = some o ∧ s.cellar.onNow d = none ∧ (flashing [o, flashOp 6 3 .write true]).cellar.onNow d = some (flashOp 6 3 .write true)) :=
  ⟨⟨rfl, rfl, rfl, rfl, rfl, rfl, by simp⟩, witness_flash_issue.1, witness_flash_issue.2.1, witness_flash_issue.2.2.2⟩

theorem witness_FlashOperationsAndTheMap_read : (∀ use ∈ [FlashUse.fill, .access 4],
    (flashing [flashOp 7 0 use true]).cellar.ops.find? (fun o => o.id == 7 && o.running && o.use.isRead) = some (flashOp 7 0 use true)) ∧
    ∀ l, NoWaiters (flashing l) :=
  ⟨by decide +kernel, fun l => ⟨rfl, rfl, fun r h => nomatch h⟩⟩

theorem witness_FlashOperationsAndTheMap_program :
    (∀ use ∈ [FlashUse.write, .erase true, .copied 5, .segment 0], let o := flashOp 7 0 use true
     (flashing [o]).cellar.ops.find? (fun o => o.id == 7 && o.running && !o.suspended && !o.use.isRead) = some o ∧ o.stale = false ∧
       { o with stale := true }.stale = true ∧ o.block = some 0 ∧ ∀ x ∈ (flashing [o]).cellar.ops, x.id ≠ o.id → x.block.isSome = true) ∧
    (flashing []).cellar.canMap 3 = true ∧ ({ dirtySegs := (List.range 1024).map (· + 1) } : Cellar).canMap 3 = false := by
  refine ⟨by decide +kernel, ?_, ?_⟩
  · simp only [Cellar.canMap, room_one (flashing []).cellar rfl]; decide +kernel
  · have e : ((List.range 1024).map (· + 1)).contains (3 / 65536) = false ∧ ((List.range 1024).map (· + 1)).length = 1024 := by decide +kernel
    simp only [Cellar.canMap, e.1, e.2]; simp

theorem witness_FlashOperationsAndTheMap_empty :
    worn.st = .mounted ∧ (∃ b, worn.gcBlock (blockChan 0 / 16) = some b) ∧ worn.canEmpty 0 = true ∧
      bits (up.reg 0x4008) 9 0 * 1000 ≤ (worn.block 0).reads ∧ ({ dirtySegs := [4] } : Cellar).nextSegment = some 4 ∧
      ({} : Cellar).nextSegment = none :=
  ⟨rfl, witness_gc_block, worn_empty, by decide +kernel, by decide +kernel, by decide +kernel⟩

theorem journal_long (n : Nat) : n ≤ ({ journal := List.replicate n .commit } : Cellar).journal.length * Config.journalEntry := by
  show n ≤ (List.replicate n JEntry.commit).length * (Config.journalEntryFit.val + 1)
  rw [List.length_replicate]
  exact Nat.le_mul_of_pos_right _ (Nat.succ_pos _)

theorem witness_FlashOperationsAndTheMap_journal :
    2097152 ≤ ({ journal := List.replicate 2097152 .commit } : Cellar).journal.length * Config.journalEntry ∧
      up.cellar.journal.length * Config.journalEntry < 2097152 ∧ roundUp (up.cellar.journalCyc + 15000000) 1500 ≤ 15000000 ∧
      up.cyc < roundUp (up.cellar.journalCyc + 15000000) 1500 := by
  refine ⟨journal_long 2097152, ?_, by decide +kernel, by decide +kernel⟩
  · simp [up, State.reset]

/-- The host link down, and a module with host port 1 in a state. -/
def unlinked : State := { up with link := {} }
def porting (st : EnState) : State := { up with ports := [(1, { st })] }

theorem witness_LinkAndPortsComeAndGo :
    (unlinked.power.rails = .good ∧ unlinked.power.perst = false ∧ unlinked.link.trained = false ∧ up.link.trained = true) ∧
    ((porting .enabled).link.trained = true ∧ ((porting .enabled).port 1).st ≠ .disabled ∧ ((porting .enabled).port 1).st ≠ .failed ∧
      ((porting .failed).port 1).st = .failed ∧ ((porting .failed).port 0).st = .disabled ∧ 1 < 8) ∧
    up.power.rails = .good ∧ (up.link.trained = true ∧ unlinked.link.trained = false) ∧
    (let s := { porting .enabled with dir := [{ line := 2 ^ 42, holders := [1], owner := some 1, stamp := 0 }] }
     (s.port 1).st = .enabled ∧ (∀ e ∈ s.dir, 1 ∈ e.holders) ∧ s.portDrained 1 = false) ∧
    (let s := porting .draining
     (s.port 1).st = .draining ∧ s.portDrained 1 = true) := by decide +kernel

/-- Window 0 of port 0 as `hosted` has it, shared, and port 1 ready to take it over. -/
def sharing : State :=
  { hosted.setReg (winAReg 0 0) (2 ^ 48 + 3) with
    regs := ((hosted.setReg (winAReg 0 0) (2 ^ 48 + 3)).setReg (hpReg 1 0x10) 1).regs, ports := [(0, { st := .enabled }), (1, { st := .enabled })] }
def overF : Flight := fl 0x950 [(16, 1, 0), (17, 1, 1), (24, 8, 20)]

theorem witness_PortHeard : PortHeard up 0 := up_port

theorem witness_WindowsGrantsAndSnoops_windows :
    (let h := winFields (setBits (2 ^ 48) 0 0 1) 4
     (hosted.port 0).winBusy.contains 1 = false ∧ (hosted.hostWin 0 1).valid = false ∧
       { hosted with regs := ((hosted.setReg (winBReg 0 1) (4 + 4 * 2 ^ 32)).setReg (winAReg 0 0) 0).regs }.winOk 0 1 h = true ∧
       hosted.winOk 0 1 (winFields 1 0) = false ∧ (hosted.hostWin 0 0).valid = true ∧ hosted.dir = [] ∧ hosted.snoops = [] ∧ hosted.memWaits = [] ∧ (hosted.port 0).queue = [] ∧
       ({ hosted with ports := [(0, { winBusy := [0] })] }.port 0).winBusy.contains 0 = true) := by decide +kernel

theorem witness_WindowsGrantsAndSnoops_hand_over : let s := atBeat { sharing with flights := [overF], nextId := 2 }
    let x := handoverOf overF
    let h := s.hostWin x.from_ x.fromWin
    (s.ready? 1 0x950 = some overF ∧ overF.zero [(12, 4), (20, 4), (40, 88)] = true ∧ x.from_ ≤ 7 ∧ x.to_ ≤ 7 ∧ x.from_ ≠ x.to_ ∧ x.fromWin ≤ 15 ∧
      x.toWin ≤ 15 ∧ overF.u 32 8 % pageSize = 0 ∧ overF.u 24 8 = 20) ∧
    (h.valid = true ∧ h.shared = true ∧ h.wing = x.wing ∧ (s.hostWin x.to_ x.toWin).valid = false ∧ (s.port x.to_).winBusy.contains x.toWin = false ∧
      (s.port x.to_).st = .enabled ∧ bit (s.reg (hpReg x.to_ 0x10)) x.wing = true ∧ x.toDpa + h.pages ≤ 2 ^ 27 ∧
      ∀ i, i < 16 → i ≠ x.toWin → (s.hostWin x.to_ i).valid = true →
        runsMeet (s.hostWin x.to_ i).dpa (s.hostWin x.to_ i).pages x.toDpa h.pages = false) ∧
    BeatFree s 20 := ⟨by decide +kernel, by decide +kernel, beat_free _ rfl rfl⟩

theorem witness_WindowsGrantsAndSnoops_snoops : (∀ inv ∈ [true, false], let x : Snoop := { id := 9, port := 0, line := 2 ^ 42, inv, sent := 0 }
    let s := { hosted with snoops := [x] }
    s.snoops.find? (fun x => x.id == 9) = some x ∧ s.memWaits = [] ∧ (s.page (x.line / 2 ^ 46) (keyAddr x.line / pageSize)).tier = 1 ∧
      (s.port 0).st ≠ .disabled ∧ (s.port 0).st ≠ .failed ∧
      roundUp (x.sent + 1500000 * bits (s.reg (hpReg x.port 0x20)) 9 0) 1500 < 2000000000 ∧
      { s with cyc := 0 }.cyc ≤ roundUp (x.sent + 1500000 * bits (s.reg (hpReg x.port 0x20)) 9 0) 1500) ∧
    ∀ p, (hosted.port p).winBusy = [] := by
  refine ⟨by decide +kernel, fun p => ?_⟩
  show ((tfind [(0, ({ st := .enabled } : Port))] p).getD {}).winBusy = []
  rw [tfind]
  by_cases h : (0 : Nat) = p
  · rw [if_pos h]; rfl
  · rw [if_neg h]; split <;> rfl

theorem witness_ManagementCommandsAnswer :
    (∀ p ∈ [MPath.mailbox 0, .fmLd, .mctp], up.pathOpen p = true) ∧ up.boot.hkImage.isSome = true ∧ carriesMld .fmLd = true ∧
    carriesMld (.mailbox 0) = false ∧ up.isReady = true ∧ (up.port 0).queue = [] ∧ carriesMem 0 (.mailbox 0) = true ∧
    carriesMem 1 (.mailbox 1) = true ∧ carriesMem 0 .fmLd = false ∧ unlinked.pathOpen .fmLd = false := by decide +kernel

/-- The same module in phase 5, and before its firmware runs. -/
def early (image : Option Bytes) : State := { up with boot := { phase := 5, hkImage := image } }
theorem witness_ManagementCommandsAnswer_early :
    (early (some [])).pathOpen .mctp = true ∧ (early (some [])).isReady = false ∧ (early none).pathOpen .mctp = true ∧ (early none).earlyPath .mctp = true ∧
    carriesMld .mctp = true ∧ (early none).pathOpen (.mailbox 0) = true ∧ (early none).earlyPath (.mailbox 0) = true ∧
    carriesMld (.mailbox 0) = false ∧ (early none).pathOpen .fmLd = true ∧ (early none).earlyPath .fmLd = false := by decide +kernel

/-- Port 0 of Bruvia enabled with its link in a state; and so with more of it set. -/
def bp0 (l : LinkSt) : BpSt := { en := .enabled, link := l }
def bruvia (b : BpSt) : State := { up with bps := [(0, b)] }
def badFlit : Bytes := List.replicate 63 0 ++ [1]

theorem witness_BruviaLinksTrainAndDrop :
    ((bruvia (bp0 .down)).power.rails = .good ∧ (bruvia (bp0 .down)).err.fatal = false ∧ ((bruvia (bp0 .down)).bp 0).en = .enabled ∧
      ((bruvia (bp0 .down)).bp 0).link = .down ∧ (bp0 .up).link ≠ .down) ∧
    (∀ g ∈ [true, false], let b := { bp0 .train with epochGot := g }
     b.link = .train ∧ b.epochSent = false ∧ b.epochGot = g) ∧
    (let s := bruvia { bp0 .up with txFlits := 1 }
     s.linkHeard 0 = true ∧ 0 < (s.bp 0).unacked ∧ (s.bp 0).ackCyc + 30000 < s.cyc ∧ (s.bp 0).link ≠ .down ∧
       (bruvia (bp0 .up)).bp 0 = bp0 .up ∧ (bp0 .up).unacked = 0) ∧
    (let s := bruvia (bp0 .up)
     s.linkHeard 0 = true ∧ crc16 (slice badFlit 0 62) ≠ fld badFlit 62 2 ∧ (s.bp 0).dropping = false) ∧
    (let b := { bp0 .up with rxFlits := 128 }
     (bruvia b).linkHeard 0 = true ∧ 0 < b.rxPending ∧ 128 ≤ b.rxPending ∧ (bp0 .up).rxPending = 0) ∧
    (let s := bruvia { bp0 .down with leftUp := some 0 }
     (s.bp 0).leftUp = some 0 ∧ (s.bp 0).link ≠ .up ∧ roundUp (0 + 1500000 * bits (s.reg (bpReg 0 0x10)) 31 16) 1500 < 2000000000000 ∧
       { s with cyc := 0 }.cyc ≤ roundUp (0 + 1500000 * bits (s.reg (bpReg 0 0x10)) 31 16) 1500) ∧
    (let b := { bp0 .up with en := .draining, drainFrom := some 2000000 }
     b.draining = true ∧ b.outstanding = [] ∧ (bp0 .up).draining = false) := by decide +kernel

/-- A frame of a type on a channel, of epoch 0. -/
def frame (typ chan : Nat) (args : Bytes) : Frame := { blankFrame with typ, chan, args := argsOf args, epoch := 0 }

theorem witness_LinkFramesAreCountedAndTaken :
    ((bruvia (bp0 .up)).linkHeard 0 = true ∧ (bruvia (bp0 .down)).linkHeard 0 = false ∧
      ((bruvia (bp0 .up)).bp 0).stale { frame 0 8 [] with epoch := 5 } = true) ∧
    (∀ b ∈ [bp0 .up, { bp0 .up with txFlits := 1 }, { bp0 .up with txFlits := 1, replays := 7 }],
      let f := frame 1 8 (natLe 0 4 ++ natLe b.unacked 1)
      Heard (bruvia b) 0 f ∧ bit (fld f.args 4 1) 0 = (b.unacked == 1) ∧ b.txq = [] ∧
        ((b.received f).acked f 2000000).unacked = b.unacked ∧ ((b.received f).acked f 2000000).replays = b.replays) ∧
    (∀ x ∈ [(LinkSt.up, frame 0 8 []), (.train, frame 2 8 []), (.up, frame 2 8 []), (.ident, frame 3 8 []), (.ident, frame 4 8 []),
        (.up, frame 0x10 9 []), (.up, frame 0x11 9 [])], Heard (bruvia (bp0 x.1)) 0 x.2) ∧
    (let b := { bp0 .ident with proof := some [], nonceRx := [1] }
     b.link = .ident ∧ b.proof.isSome = true ∧ (bp0 .up).link ≠ .ident ∧ bit ((bruvia b).reg (bpReg 0 0x10)) 0 = false) ∧
    ((bruvia { bp0 .ident with lastPeer := some (Config.sha3 []) }).bp 0).lastPeer = some (Config.sha3 ((bruvia (bp0 .ident)).bp 0).peerKey) ∧
    (let s := { (bruvia (bp0 .up)).setReg (bpReg 0 0x10) 2 with beat := { up.beat with beats := 1, number := some 0 } }
     bit (s.reg (bpReg 0 0x10)) 1 = true ∧ 0 ∉ s.beat.healthSent ∧ (s.bp 0).link = .up ∧ s.err.fatal = false ∧ s.healthDue 0 = true ∧
       s.beat.periodNs * 24 ≤ 4 * 16 * s.beatPos) := by
  unfold Heard
  exact ⟨by decide +kernel, by decide +kernel, by decide +kernel, by decide +kernel, rfl, by decide +kernel⟩

/-- A frame with every field at the top of its width. -/
def topFrame : Frame :=
  { typ := 0xFFFF, chan := 15, colour := 3, hdrVer := 255, wing := 15, last := true, resp := true, epoch := 2 ^ 32 - 1, seq := 2 ^ 32 - 1, tag := 2 ^ 32 - 1
    deadline := 2 ^ 32 - 1, args := List.replicate 40 0xFF, payload := List.replicate 8191 0xFF, resv := false }
theorem witness_FrameBytesSpellTheFrame : topFrame.typ < 2 ^ 16 ∧ topFrame.chan < 16 ∧ topFrame.colour < 4 ∧ topFrame.hdrVer < 256 ∧
    topFrame.wing < 16 ∧ topFrame.epoch < 2 ^ 32 ∧ topFrame.seq < 2 ^ 32 ∧ topFrame.tag < 2 ^ 32 ∧ topFrame.deadline < 2 ^ 32 ∧
    topFrame.args.length = 40 ∧ topFrame.payload.length < 2 ^ 13 ∧ topFrame.resv = false := by
  refine ⟨by decide, by decide, by decide, by decide, by decide, by decide, by decide, by decide, by decide, rfl, ?_, rfl⟩
  show (List.replicate 8191 (0xFF : Byte)).length < 2 ^ 13
  rw [List.length_replicate]; decide

/-- The 64 bytes of a header, each field where Table 18-2 has it. -/
theorem test_frame_bytes : (frameBytes { frame 0x11 9 [0xAA] with epoch := 0x01020304, tag := 0x0A0B0C0D }).take 26 =
    [0x11, 0, 9, 1, 0, 0, 0, 1, 4, 3, 2, 1, 0, 0, 0, 0, 0x0D, 0x0C, 0x0B, 0x0A, 0, 0, 0, 0, 0xAA, 0] := by decide +kernel

/-- Port 0 up with wing 0 mapped to wing 0, its meter of class 1 off, or on and out of tokens. -/
def mapped (b : BpSt) : State := { (bruvia b).setReg (bpReg 0 0x28) 1 with bps := [(0, b)] }
def metered (b : BpSt) : State := (mapped b).setReg (meterReg 0 1 1 0x10) 0x4001
def reqFrame (typ : Nat) (args payload : Bytes) : Frame := { frame typ 1 args with payload, tag := 4 }
def respFrame (typ : Nat) (args payload : Bytes) : Frame := { reqFrame typ args payload with resp := true }
def sent (typ : Nat) (fid : Option Nat) (args : Bytes) : BpReq := { tag := 4, typ, fid, wing := 0, chan := 1, args }
def pageArgs : Bytes := argsOf (annexArgs 0 0 64 0)
def annexRange : Range := { wing := 0, tier := 3, base := 3 * 2 ^ 30, pages := 2 }

theorem witness_PagesCrossBruvia_requests :
    (∀ typ ∈ [0x300, 0x301, 0x310, 0x311, 0x320, 0x100, 0x200], let f := reqFrame typ [] []
     Heard (mapped (bp0 .up)) 0 f ∧ f.resp = false ∧ (mapped (bp0 .up)).mapWing 0 f.wing = some 0 ∧ f.chan ≤ 7 ∧
       ((metered (bp0 .up)).police 0 1 f.chan (64 + f.payload.length) f.colour).2.drop = true ∧ Heard (metered (bp0 .up)) 0 f ∧
       (metered (bp0 .up)).mapWing 0 f.wing = some 0 ∧ (mapped (bp0 .up)).mapWing 0 1 = none ∧
       (mapped (bp0 .up)).mapWing 0 { f with chan := 9 }.wing = some 0 ∧ Heard (mapped (bp0 .up)) 0 { f with chan := 9 }) ∧
    (let f := { reqFrame 0x20 (natLe 2 4) [] with chan := 9 }
     let g : Grant := { tag := 4, first := 0, pages := 2 }
     let s := (bruvia (bp0 .up)).setReg (bpReg 0 0x18) 16
     Heard s 0 f ∧ ({ bp0 .up with grants := [g] }.grants.find? fun x => x.tag == f.tag) = some g ∧
       ((bp0 .up).grants.find? fun x => x.tag == f.tag) = none ∧ fld f.args 0 4 = 2 ∧ fld (frame 0x20 9 []).args 0 4 = 0 ∧
       (bruvia (bp0 .up)).lendMax 0 < (bp0 .up).lentPages + 2 ∧ (bp0 .up).lentPages + 2 ≤ s.lendMax 0 ∧ (bp0 .up).freeRun 2 = some 0 ∧
       (∀ i, i < 12 → 2 ≤ s.stackFree 16 i)) := by
  unfold Heard
  exact ⟨by decide +kernel, by decide +kernel⟩

theorem witness_PagesCrossBruvia_answers :
    (∀ st ∈ [0, 0x61], let f := { reqFrame 0x21 (natLe 7 4 ++ natLe 2 4 ++ natLe st 1) [] with chan := 9, resp := true }
     let r := sent 0x20 (some 1) (natLe 2 4)
     let x := { annexRange with fid := some 1, ready := false }
     let fl := act 0x940 [(16, 1, 3), (20, 4, 2)]
     let s := { holding up fl with bps := [(0, { bp0 .up with reqs := [r] })], ranges := [x] }
     Heard s 0 f ∧ s.reqOf 0 f = some r ∧ s.flight? 1 = some fl ∧ fld f.args 8 1 = st ∧ fl.phase = .active ∧ hOpcode fl.raw = 0x940 ∧
       s.ranges.find? (fun x => x.fid == some 1 && x.tier == 3) = some x ∧ x.lost = false) ∧
    (let b := { bp0 .up with lent := [(0, 2)] }
     let f := reqFrame 0x301 pageArgs (List.replicate 64 1)
     Policed (mapped b) 0 f 0 ∧ f.resp = false ∧ b.pageReqOk f true = true ∧ b.pageReqOk { f with payload := [] } false = true ∧
       (bp0 .up).pageReqOk f true = false ∧ (bp0 .up).pageReqOk f false = false ∧ (bruvia b).mapWing 0 f.wing = none) ∧
    (∀ typ ∈ [0x300, 0x301], let f := respFrame typ pageArgs (if typ = 0x300 then List.replicate 64 1 else [])
     let r := { sent typ none pageArgs with access := some 9 }
     let s := { mapped { bp0 .up with reqs := [r] } with ranges := [annexRange] }
     Heard s 0 f ∧ f.resp = true ∧ s.reqOf 0 f = some r ∧ s.memWaits = [] ∧ (s.bp 0).deferred = [] ∧ r.typ = typ ∧
       s.borrowed 0 (fld r.args 0 4) = some (0, 3 * 2 ^ 30)) := by
  unfold Policed Heard
  exact ⟨by decide +kernel, by decide +kernel, by decide +kernel⟩

/-- A search of the neighbour as one frame, and a table with row 1 being moved in from member 1, at port 0. -/
def fanF : Frame := { reqFrame 0x100 (natLe 0 4) ((searchF.raw.drop 16) ++ zeroQuery) with last := true }
def rowArgs (g : Nat) : Bytes := argsOf (natLe 0 4 ++ natLe g 4)
def movingIn : Emb := { embT with migs := [{ fid := 1, out := false, peer := 1, rows := [0], beat := 20, switched := true }], holders := [(0, 1)] }
def rowed (e : Emb) (b : BpSt) : State := { mapped b with embs := [(0, e)] }

theorem witness_WorkCrossesBruvia :
    (let s := { mapped (bp0 .up) with colls := [(0, collA)] }
     let raw := List.replicate 16 0 ++ fanF.payload.take 112
     Policed s 0 fanF 0 ∧ fld fanF.args 0 4 < 4096 ∧ tfind s.colls (objKey 0 (fld fanF.args 0 4)) = some collA ∧ fanF.last = true ∧
       { fanF with last := false }.last = false ∧ searchFieldsOk false raw collA.defn = true ∧
       fanF.payload.length = 112 + collA.defn.dim * fmtBytes (fld raw 30 1) + 16 * fld raw 56 1 ∧ (collA.st ≠ .building ∧ collA.st ≠ .opening ∧ collA.st ≠ .draining) ∧
       coll0.st = .building ∧ allFinite (fmtVec (fld raw 30 1) collA.defn.dim (slice fanF.payload 112 256)) = true ∧
       filterOk collA.defn.attrWords (chunks 16 (fld raw 56 1) (slice fanF.payload 368 0)) = true ∧
       tfind (mapped (bp0 .up)).colls (objKey 0 (fld fanF.args 0 4)) = none) ∧
    (let f := { respFrame 0x101 [] [] with last := true }
     let r := sent 0x100 (some 1) []
     let s := mapped { bp0 .up with reqs := [r] }
     Heard s 0 f ∧ s.reqOf 0 f = some r ∧ r.typ = 0x100 ∧ r.fid = some 1) ∧
    (∀ typ ∈ [0x310, 0x311], let f := reqFrame typ (rowArgs 0) (if typ = 0x311 then row64 else [])
     let s := rowed embT (bp0 .up)
     Policed s 0 f 0 ∧ f.resp = false ∧ f.typ = typ ∧ fld f.args 0 4 < 1024 ∧ tfind s.embs (objKey 0 (fld f.args 0 4)) = some embT ∧
       ¬ (embT.nrows ≤ fld f.args 4 4 ∨ (f.typ = 0x311 ∧ (f.payload.length ≠ 4 * embT.width ∨ embT.update = false))) ∧
       embT.nrows ≤ fld (rowArgs 4) 4 4 ∧ movingIn.moving 0 = true ∧ embT.moving (fld f.args 4 4) = false ∧ embT.slotOf (fld f.args 4 4) = some 0 ∧
       embT.slotOf 1 = none ∧ embT.rowBad 0 = false ∧ { embT with bad := [0] }.rowBad 0 = true ∧ tfind (mapped (bp0 .up)).embs 0 = none) ∧
    (let f := reqFrame 0x320 (rowArgs 0) row64
     let s := rowed movingIn (bp0 .up)
     let m : Mig := { fid := 1, out := false, peer := 1, rows := [0], beat := 20, switched := true }
     m.stale = false ∧ movingIn.written.contains (0 / movingIn.members) = false ∧ Policed s 0 f 0 ∧ f.resp = false ∧ embT.awaits 0 0 = none ∧ tfind s.embs (objKey 0 (fld f.args 0 4)) = some movingIn ∧
       movingIn.awaits 0 (fld f.args 4 4) = some m ∧ f.payload.length = movingIn.rb ∧ s.migOf m.fid = some (0, movingIn, m) ∧
       movingIn.home 0 = movingIn.index ∧ tfind movingIn.slots 0 = none ∧ s.embJobs = [] ∧ s.embFrames = []) ∧
    (∀ typ ∈ [0x310, 0x311, 0x320], let f := respFrame typ (rowArgs 0) []
     let r := { sent typ (if typ = 0x320 then some 1 else none) (rowArgs 0) with relay := if typ = 0x320 then none else some (1, reqFrame typ (rowArgs 0) []) }
     let s := mapped { bp0 .up with reqs := [r] }
     Heard s 0 f ∧ f.resp = true ∧ s.reqOf 0 f = some r ∧ (typ = 0x320 → r.fid = some 1) ∧ (typ ≠ 0x320 → r.relay.isSome = true) ∧ s.embJobs = [] ∧
       s.embFrames = []) ∧
    (let f := reqFrame 0x200 [] row64
     Policed (mapped (bp0 .up)) 0 f 0 ∧ (mapped (bp0 .up)).ringReq 0 0 (fld f.args 0 2) = none) ∧
    (let f := respFrame 0x30 (natLe 0x60 1 ++ natLe 0 1 ++ natLe 0x200 2) []
     let r := sent 0x100 (some 1) []
     let g := act 0x100 searchFields
     let s := { holding up g with bps := [(0, { bp0 .up with reqs := [r] })] }
     let u := { holding up g with bps := [(0, { bp0 .up with ringTags := [(4, 1)] })] }
     Heard s 0 f ∧ s.reqOf 0 f = some r ∧ r.relay = none ∧ r.typ ≠ 0x320 ∧ s.flight? 1 = some g ∧ g.phase ≠ .done ∧
       (sent 0x310 none []).typ ≠ 0x300 ∧ (sent 0x310 none []).typ ≠ 0x301 ∧ Heard u 0 f ∧ u.reqOf 0 f = none ∧
       (u.bp 0).ringTags.find? (fun x => x.1 == f.tag) = some (4, 1) ∧ fld f.args 2 2 = 0x200) := by
  unfold Policed Heard
  exact ⟨by decide +kernel, by decide +kernel, by decide +kernel, by decide +kernel, by decide +kernel, by decide +kernel, by decide +kernel⟩

/-- A module with its supply in a state. -/
def powered (p : Power) : State := { up with power := p }
def goodP : Power := up.power
def offP : Power := { goodP with rails := .off }

theorem witness_PowerComesAndGoes :
    (offP.rails = .off ∧ offP.pwrEn = true ∧ offP.input = true ∧ offP.offLatch = false ∧ goodP.pwrEn = true ∧ goodP.rails = .good ∧
      { offP with pwrEn := false }.pwrEn = false ∧ { offP with offCyc := some 0 }.offCyc = some 0 ∧ 0 + 150000000 ≤ 150000000 ∧
      (powered { offP with offCyc := some 0 }).cyc < 0 + 150000000 ∧ offP.offCyc = none ∧ { goodP with rails := .starting }.rails = .starting ∧
      goodP.rails ≠ .starting) ∧
    (goodP.flush = none ∧ { goodP with flush := some 2 }.flush = some 2 ∧ goodP.rails ≠ .off) ∧
    (∀ a ∈ [0, 1], (powered { goodP with flush := some 1, afterFlush := a }).power.flush = some 1) := by decide +kernel

/-- A wing's durable Cellar page, dirty in the window cache when the flush begins. -/
def durableR : Range := { cellarRange with durable := true }
def flushing : State :=
  { powered { goodP with flush := some 1 } with
    ranges := [durableR], pages := [(2 * 2 ^ 30, { tier := 2, dirty := true })], frm := [(2 ^ 49, 7)], cellar := { st := .flushing } }

theorem witness_DurableBytesOutliveTheFlush : flushing.power.flush = some 1 ∧ flushing.cellar.st ≠ .mounting ∧
    (flushing.frm.map Prod.fst).Pairwise (· < ·) ∧ (flushing.low.map Prod.fst).Pairwise (· < ·) ∧ (flushing.pages.map Prod.fst).Pairwise (· < ·) ∧
    2 ^ 49 < 2 ^ 52 ∧ flushing.rangeAt 0 (2 ^ 49 / pageSize) = some durableR ∧ durableR.tier = 2 ∧ durableR.durable = true ∧ durableR.ready = true ∧
    tget 0 flushing.frm (memKey 0 (2 ^ 49)) = 7 := by decide +kernel

theorem witness_BankLimiterAndTemperaturesAct :
    goodP.input = true ∧ { goodP with input := false }.input = false ∧ goodP.rails = .good ∧ goodP.flush = none ∧ offP.rails ≠ .good ∧ 399 < 400 ∧
    (let p := { goodP with bankOk := false, startBefore := 3000000000 }
     p.rails = .good ∧ p.bankOk = false ∧ p.bankLow = false ∧ 3000000000 < p.startBefore + up.cyc) ∧ goodP.bankOk = true := by decide +kernel

/-- A module in a phase of start-up, and one with a half of the profile's submission held. -/
def starting (b : Boot) : State := { up with boot := b, cellar := {} }
def liveBoot : Boot := up.boot

theorem witness_StartUpReachesReady_phases :
    ((up.power.rails = .good ∧ up.power.flush = none) ∧ ({ phase := 2 } : Boot).phase = 2 ∧ ({ phase := 3 } : Boot).phase = 3 ∧
      ({ phase := 5 } : Boot).phase = 5 ∧ ({ phase := 5 } : Boot).fail = false ∧ (starting { phase := 5 }).colls = [] ∧
      (starting { phase := 5 }).mirrors = [] ∧ (starting { phase := 3, fail := true }).boot.fail = true) ∧ (starting { phase := 5 }).mgmtWaits = [] ∧
    (starting { phase := 5 }).cellar.reserveSpent = 0 := by decide +kernel

/-- A Cellar whose flush reserve is spent beyond what the implementation keeps more than it needs. -/
def spentReserve : Cellar := { blocks := List.replicate (Config.reserveExtra + 1) (reserveBase, { inUse := true }) }
theorem witness_StartUpReachesReady_waits : spentReserve.reserveFull = false := by
  have h : 0 < (327680 + Config.slcUnits - 1) / Config.slcUnits := by
    have k : 0 < Config.slcUnits := by unfold Config.slcUnits; omega
    exact Nat.div_pos (by omega) k
  have m : inReserve reserveBase = true := by
    have b : reserveBase < systemBase := by unfold systemBase Config.reserveBlocks; omega
    unfold inReserve
    simp [b]
  have e : spentReserve.reserveSpent = Config.reserveExtra + 1 := by
    unfold Cellar.reserveSpent spentReserve
    rw [List.filter_replicate_of_pos (by simp [m])]
    exact List.length_replicate ..
  unfold Cellar.reserveFull
  simp [e]

theorem witness_StartUpReachesReady_resets :
    ({ liveBoot with rstPending := true }.rstPending = true ∧ liveBoot.rstPending = false ∧ liveBoot.writing = false ∧
      { liveBoot with writing := true }.writing = true ∧ up.pathOpen .mctp = true ∧ State.reset.pathOpen .mctp = false ∧
      ((List.range 16).any fun w => up.wingSt w != .disabled) = false ∧
      ((List.range 16).any fun w => { up with wings := [(3, .enabled)] }.wingSt w != .disabled) = true ∧ up.beatRefusal 5 = some .busy ∧
      liveBoot.profTarget = none ∧ { liveBoot with profTarget := some (1, 20) }.profTarget.isSome = true ∧ up.profFits 1 = true ∧
      { up with progs := [(0, { prog0 with bricks := [{ ent0 with brick := 100 }] })] }.profFits 3 = false) ∧
    SetUpHeard up 0 ∧ BeatFree (atBeat up) 20 := ⟨by decide +kernel, up_setup, beat_free _ rfl rfl⟩

theorem witness_StartUpReachesReady_watchdog : liveBoot.hkImage.isSome = true ∧ ({} : Boot).hkImage = none ∧
    { up with cyc := 0 }.cyc ≤ roundUp (liveBoot.hkFrom + 1500000 * bits (up.reg 0x2018) 15 0) 1500 := by decide +kernel
theorem witness_FirmwareIsTransferred :
    up.fwHeard .mctp = true ∧ carriesMem 0 .mctp = true ∧ up.fwHeard .fmLd = true ∧ carriesMem 0 .fmLd = false ∧ unlinked.fwHeard .fmLd = false ∧
    liveBoot.writing = false ∧ { liveBoot with writing := true }.writing = true ∧ liveBoot.startImage = none ∧
    { liveBoot with bootArea := some [] }.startImage ≠ none ∧
    (let b := { liveBoot with xfer := true, xferOff := 128 }
     b.xfer = true ∧ b.xferOff ≤ 128 ∧ ¬ (b.xfer = true ∧ b.xferOff ≤ 0)) ∧
    ((List.replicate 128 (0 : Byte)).length % 128 = 0 ∧ 128 % 128 = 0 ∧ 128 + (List.replicate 128 (0 : Byte)).length ≤ 33554432 ∧
      ¬ (List.replicate 64 (0 : Byte)).length % 128 = 0) ∧ liveBoot.xfer = false ∧
    (let b := { liveBoot with writing := true, noImage := true, phase := 2 }
     b.writing = true ∧ b.rstPending = false ∧ b.noImage = true ∧ b.phase = 2 ∧ { b with rstPending := true }.rstPending = true ∧ up.power.flush = none) :=
  by decide +kernel

theorem witness_RequestersAreAttested :
    up.pathOpen (.doe 0) = true ∧ spdmKey (.doe 0) = some 0 ∧ unlinked.pathOpen (.doe 0) = false ∧ up.pathOpen .fmLd = true ∧ spdmKey .fmLd = none ∧
    (tget {} up.spdm 0).level = 0 ∧ ({ version := true } : SpdmSt).level = 1 ∧ ({ version := true, caps := true } : SpdmSt).level = 2 ∧
    ({ version := true, caps := true, algs := true } : SpdmSt).level = 3 ∧ up.measurement 6 = [] ∧ (up.measurement 5) ≠ [] ∧
    (let s := { bruvia { bp0 .ident with nonceRx := [1] } with signings := [.identProof 0] }
     s.signings = .identProof 0 :: [] ∧ (s.bp 0).link = .ident ∧ (s.bp 0).nonceRx ≠ [] ∧ (bp0 .down).link ∉ [LinkSt.ident, .up]) ∧
    (let s := { up with signings := [.spdm (.doe 0) 0x83 [] []] }
     s.signings = .spdm (.doe 0) 0x83 [] [] :: []) := by decide +kernel

theorem witness_ErrorsAreMetAndRecovered_units :
    (up.boot.hkImage.isSome = true ∧ up.power.rails = .good ∧ up.err.fatal = false ∧ isCompute 0 = true ∧ isCompute 1 = false ∧ up.err.busy = none ∧
      ({ busy := some (2, 3) } : Err).busy.isSome = true ∧
      (∀ o ∈ (opRun fillF [] []).stkQueue 0, o.opcode ≠ 0 ∧ o.fid = some 1) ∧ (opRun fillF [] []).stkQueue 0 ≠ []) ∧
    (let s := { up with cellar := { chanDown := [3] } }
     3 ∈ s.cellar.chanDown ∧ s.err.fatal = false ∧ 4 ∉ s.cellar.chanDown) ∧
    (liveBoot.setupClosed = false ∧ bits 3 1 0 = 3 ∧ bits 4 1 0 ≠ 3) ∧
    ((let val := 0x16
       let old := up.reg (wngReg 0 0x3808)
       6 ≤ bits val 3 0 ∧ bits val 3 0 ≤ 12 ∧ bit old 4 = false ∧ bit val 4 = true ∧ up.granted (bits val 10 8) 0 = true)) := by decide +kernel

theorem witness_ErrorsAreMetAndRecovered_scrub :
    (up.power.rails = .good ∧ up.err.fatal = false ∧
      (let s := hosted
       (s.page 0 (2 ^ 48 / pageSize)).resident = true ∧ (s.rangeAt 0 (2 ^ 48 / pageSize)).isSome = true ∧ 
         s.pageRegion 0 (2 ^ 48 / pageSize) = some 0 ∧ (s.region 0).st ≠ .opened) ∧
      (let s := { up with colls := [(0, collA)], sessions := [(0, sess0)], embs := [(0, embT)] }
       tfind s.colls (0 * 65536 + 0) = some collA ∧ s.anyOpen (collA.partRegions (64 * 0 / 2 ^ 48)) = false ∧ collA.defn.inCellar (64 * 0 / 2 ^ 48) = false ∧
         tfind s.sessions (0 * 65536 + 0) = some sess0 ∧ tfind s.embs (0 * 65536 + 0) = some embT ∧ s.anyOpen embT.regions = false ∧
         (s.brick 0).st ≠ .running)) ∧
    ({ up with err := { fatal := true } }.err.fatal = true ∧ 1 ≤ 2 ∧ 2 ≤ 3 ∧
      (let s := holding up (act 0x100 searchFields)
       s.flight? 1 = some (act 0x100 searchFields) ∧ (act 0x100 searchFields).phase ≠ .done)) := by decide +kernel

theorem witness_WorkKeepsSetUp : touchesSetup .mapSegmentWrite = false ∧ exec .mapSegmentWrite up = .next up := ⟨rfl, rfl⟩

/-! ## Ill-formed commands -/

/-- A line of 64 bytes, one that is short, and a frame whose type is out of range. -/
def okLine : LineWrite := { data := List.replicate 64 none, poison := false }
def shortLine : LineWrite := { data := [], poison := false }
def badFrame : Frame := { blankFrame with typ := 65536 }

theorem test_ill_formed_1 :
    (Instr.regWrite 9 0 0 0 0).wf = false ∧
    (Instr.regWrite 0 0 8388608 0 0).wf = false ∧
    (Instr.regWrite 0 0 0 0 18446744073709551616).wf = false ∧
    (Instr.regWrite 0 1 0 0 0).wf = false ∧
    (∀ c ∈ [Instr.regWriteLowHalfHold, Instr.sqAbort, Instr.wngFlushDoneWrite, Instr.stkRegionSelWrite, Instr.hpGrantWrite,
      Instr.policerConfigWrite, Instr.wngErrEnable], (c 9 0 0).wf = false) ∧
    (∀ c ∈ [Instr.regWriteLowHalfHold, Instr.policerConfigWrite], (c 0 8388608 0).wf = false) ∧
    (∀ c ∈ [Instr.regWriteLowHalfHold, Instr.wngFlushDoneWrite, Instr.stkRegionSelWrite, Instr.hpGrantWrite, Instr.policerConfigWrite,
      Instr.wngErrEnable], (c 0 0 18446744073709551616).wf = false) ∧
    (∀ c ∈ [Instr.regReadLowHalfCapture, Instr.counterClear, Instr.beatNextWrite, Instr.beatCfgWrite, Instr.wngAbort,
      Instr.tptPeekAddrWrite, Instr.hpCtrlFail, Instr.bpRetrain, Instr.profSetFirstWord, Instr.profSetSubmit, Instr.rstCtrlModule,
      Instr.errInjectArm], (c 9 0).wf = false) ∧
    (∀ c ∈ [Instr.regReadLowHalfCapture, Instr.counterClear], (c 0 8388608).wf = false) ∧
    (Instr.mctpRegisterAccess false 8388608 0 0).wf = false ∧
    (Instr.mctpRegisterAccess false 0 0 18446744073709551616).wf = false ∧
    (∀ c ∈ [Instr.counterSnap, Instr.mortarPause, Instr.hpEnWrite, Instr.bpEnWrite, Instr.stackRecover, Instr.channelRecover], (c 9 0
      false).wf = false) ∧
    (Instr.counterSnap 0 8388608 false).wf = false ∧
    (∀ c ∈ [Instr.beatNextWrite, Instr.beatCfgWrite, Instr.tptPeekAddrWrite, Instr.profSetFirstWord, Instr.profSetSubmit,
      Instr.errInjectArm], (c 0 18446744073709551616).wf = false) ∧
    (∀ c ∈ [Instr.sliceResume, Instr.cqEntrySend, Instr.msixCoalesceExpiry, Instr.collDrainDone, Instr.stagingSweep, Instr.pageFillDone,
      Instr.writeBackDone, Instr.backgroundClean], (c 16 0).wf = false) ∧
    (∀ c ∈ [Instr.hpBwWindowEnd, Instr.hpDrainEnd, Instr.ldReset], (c 8).wf = false) ∧
    (∀ c ∈ [Instr.brickWatchdogExpiry, Instr.opAdd, Instr.opSub, Instr.opAnd, Instr.opOr, Instr.opXor, Instr.opShl, Instr.opShr,
      Instr.opSar, Instr.opMul, Instr.opAddi, Instr.opMovhi, Instr.opSlt, Instr.opSltu, Instr.opSeq, Instr.opLd, Instr.opSt, Instr.opLdw,
      Instr.opStw, Instr.opBeqz, Instr.opBnez, Instr.opJal, Instr.opJr, Instr.opHalt, Instr.opWdog, Instr.opRdcyc, Instr.opRdbeat,
      Instr.opFence, Instr.opClrsat, Instr.opSig, Instr.opWait, Instr.opTry, Instr.opRdl, Instr.opSetl, Instr.opMma8, Instr.opMmaf8,
      Instr.opMmab, Instr.opAzero, Instr.opAst, Instr.opCbset, Instr.opLdot, Instr.opDeq, Instr.opQuant, Instr.opQpriv, Instr.opRescale,
      Instr.opVld, Instr.opVst, Instr.opVop, Instr.opVred, Instr.opMget, Instr.opMput, Instr.opMgather, Instr.opMfill, Instr.opPsend,
      Instr.opPhead, Instr.opPtake, Instr.opPdrop, Instr.opPbind], (c 256).wf = false) ∧
    (Instr.descriptorFetch (.ok [0]) []).wf = false ∧
    (Instr.descriptorFetch (.ok (List.replicate 128 0)) [0]).wf = false ∧
    (∀ c ∈ [Instr.cqEntrySend, Instr.msixCoalesceExpiry], (c 0 64).wf = false) ∧
    (∀ c ∈ [Instr.sqDoorbell, Instr.cqDoorbell], (c 8 0 0 0).wf = false) ∧
    (∀ c ∈ [Instr.sqDoorbell, Instr.cqDoorbell, Instr.wngBrickWrite], (c 0 16 0 0).wf = false) := by
  decide +kernel

theorem test_ill_formed_2 :
    (∀ c ∈ [Instr.sqDoorbell, Instr.cqDoorbell], (c 0 0 64 0).wf = false) ∧
    (∀ c ∈ [Instr.sqDoorbell, Instr.cqDoorbell, Instr.hpWinValidSet, Instr.hpWinValidClear, Instr.wngBrickWrite], (c 0 0 0
      18446744073709551616).wf = false) ∧
    (∀ c ∈ [Instr.enableWriteOn, Instr.enableWriteOff], (c 9 .wing 0 0).wf = false) ∧
    (∀ c ∈ [Instr.enableWriteOn, Instr.enableWriteOff], (c 0 .wing 16 0).wf = false) ∧
    (∀ c ∈ [Instr.enableWriteOn, Instr.enableWriteOff], (c 0 .wing 0 64).wf = false) ∧
    (Instr.enableDrainEnd .wing 16 0).wf = false ∧
    (Instr.enableDrainEnd .wing 0 64).wf = false ∧
    (∀ c ∈ [Instr.sqAbort, Instr.wngFlushDoneWrite, Instr.wngErrEnable], (c 0 16 0).wf = false) ∧
    (Instr.sqAbort 0 0 64).wf = false ∧
    (Instr.wngAbort 0 16).wf = false ∧
    (∀ c ∈ [Instr.seedShard, Instr.expandStep, Instr.flatScanPage, Instr.stackHandoffResult, Instr.mantelMergePass,
      Instr.mortarRepairSweep], (c 0 0 16).wf = false) ∧
    (Instr.refineReadReturn 0 0 16 0 .ok).wf = false ∧
    (∀ c ∈ [Instr.mortarMerge, Instr.mortarTombApply, Instr.mortarRepairSweep], (c 16 0 0).wf = false) ∧
    (Instr.mortarPause 0 4 false).wf = false ∧
    (Instr.kvSpill 16 0 0 0).wf = false ∧
    (Instr.kvSpill 0 0 0 16).wf = false ∧
    (Instr.kvPrefetchHoldExpiry 16 0 0 0 0).wf = false ∧
    (Instr.kvPrefetchHoldExpiry 0 0 0 16 0).wf = false ∧
    (Instr.cxlMemRead 8 0 0 false false).wf = false ∧
    (Instr.cxlMemRead 0 35184372088832 0 false false).wf = false ∧
    (Instr.cxlMemRead 0 0 65536 false false).wf = false ∧
    (Instr.cxlMemWrite 8 0 0 okLine false).wf = false := by
  decide +kernel

theorem test_ill_formed_3 :
    (Instr.cxlMemWrite 0 35184372088832 0 okLine false).wf = false ∧
    (Instr.cxlMemWrite 0 0 65536 okLine false).wf = false ∧
    (Instr.cxlMemWrite 0 0 0 shortLine false).wf = false ∧
    (∀ c ∈ [Instr.stkSealDone, Instr.bankSliceEnd, Instr.refreshDue, Instr.stkOpComplete], (c 12 0).wf = false) ∧
    (Instr.stkOpDispatch 12).wf = false ∧
    (Instr.stkRegionSelWrite 0 12 0).wf = false ∧
    (∀ c ∈ [Instr.celShutdown, Instr.glbSetupClose], (c 9).wf = false) ∧
    (Instr.hpCtrlFail 0 8).wf = false ∧
    (Instr.hpEnWrite 0 8 false).wf = false ∧
    (Instr.hpGrantWrite 0 8 0).wf = false ∧
    (∀ c ∈ [Instr.hpWinValidSet, Instr.hpWinValidClear, Instr.wngBrickWrite], (c 9 0 0 0).wf = false) ∧
    (∀ c ∈ [Instr.hpWinValidSet, Instr.hpWinValidClear], (c 0 8 0 0).wf = false) ∧
    (∀ c ∈ [Instr.hpWinValidSet, Instr.hpWinValidClear], (c 0 0 16 0).wf = false) ∧
    (∀ c ∈ [Instr.getLdInfo, Instr.getLdAllocations, Instr.getQosControl, Instr.getQosStatus, Instr.getQosAllocatedBw,
      Instr.setLdAllocations, Instr.setQosControl, Instr.setQosAllocatedBw, Instr.getFwInfo, Instr.getVersion, Instr.getCapabilities,
      Instr.negotiateAlgorithms, Instr.getDigests], (c (.mailbox 8)).wf = false) ∧
    (∀ c ∈ [Instr.getQosBwLimit, Instr.identify, Instr.getHealthInfo], (c .mctp 8).wf = false) ∧
    (∀ c ∈ [Instr.getQosBwLimit, Instr.unsupportedCommand, Instr.identify, Instr.getHealthInfo], (c (.mailbox 8) 0).wf = false) ∧
    (Instr.setQosBwLimit .mctp 8 0 1).wf = false ∧
    (Instr.setQosBwLimit .mctp 0 0 0).wf = false ∧
    (Instr.setQosBwLimit (.mailbox 8) 0 0 1).wf = false ∧
    (Instr.getEventRecords .mctp 8 0).wf = false ∧
    (Instr.getEventRecords .mctp 0 4).wf = false ∧
    (Instr.getEventRecords (.mailbox 8) 0 0).wf = false := by
  decide +kernel

theorem test_ill_formed_4 :
    (Instr.clearEventRecords .mctp 8 0 0).wf = false ∧
    (Instr.clearEventRecords .mctp 0 4 0).wf = false ∧
    (∀ c ∈ [Instr.clearEventRecords, Instr.getCertificate], (c (.mailbox 8) 0 0 0).wf = false) ∧
    (Instr.setEventInterruptPolicy (.mailbox 8) false).wf = false ∧
    (Instr.wngBrickWrite 0 0 4 0).wf = false ∧
    (Instr.bpEnWrite 0 6 false).wf = false ∧
    (∀ c ∈ [Instr.bpDrainEnd, Instr.bruviaLinkDown, Instr.bruviaTrainDone, Instr.bruviaAckTimeout, Instr.linkCtlSendTimer,
      Instr.bruviaLostTimeout, Instr.healthSend, Instr.bruviaSignalDetect], (c 6).wf = false) ∧
    (Instr.bpRetrain 0 6).wf = false ∧
    (Instr.flitCrcFail 6 []).wf = false ∧
    (∀ c ∈ [Instr.idleFrame, Instr.linkCtl, Instr.epochFrame, Instr.identHello, Instr.identProof, Instr.beatAnnounce, Instr.healthFrame,
      Instr.annexGrantReq, Instr.annexGrant, Instr.annexRelease, Instr.refuseFrame, Instr.fanoutFrame, Instr.resultPart, Instr.ringBlock,
      Instr.annexRd, Instr.annexWr, Instr.annexRowRd, Instr.annexAtom, Instr.rowMigrate], (c 6 blankFrame).wf = false) ∧
    (∀ c ∈ [Instr.idleFrame, Instr.linkCtl, Instr.epochFrame, Instr.identHello, Instr.identProof, Instr.beatAnnounce, Instr.healthFrame,
      Instr.annexGrantReq, Instr.annexGrant, Instr.annexRelease, Instr.refuseFrame, Instr.fanoutFrame, Instr.resultPart, Instr.ringBlock,
      Instr.annexRd, Instr.annexWr, Instr.annexRowRd, Instr.annexAtom, Instr.rowMigrate], (c 0 badFrame).wf = false) ∧
    (Instr.identVerifyDone 6 false).wf = false ∧
    (Instr.railsGood 4).wf = false ∧
    (Instr.thermalThreshold (.hall 4) 0).wf = false ∧
    (Instr.thermalTrip (.hall 4)).wf = false ∧
    (Instr.transferFw (.mailbox 8) .full 0 0 []).wf = false ∧
    (Instr.activateFw (.mailbox 8) false 0).wf = false ∧
    (Instr.rstCtrlModule 0 256).wf = false ∧
    (Instr.challenge (.mailbox 8) []).wf = false ∧
    (Instr.getMeasurements (.mailbox 8) 0 false).wf = false ∧
    (Instr.stackRecover 0 12 false).wf = false ∧
    (Instr.channelRecover 0 32 false).wf = false := by
  decide +kernel

theorem test_ill_formed_5 :
    (Instr.channelTrainDone 32 false).wf = false ∧
    (Instr.patrolScrub (.range 16 0) .clean).wf = false := by
  decide +kernel

/-- Frames, lines, sensors and scrub lines that are out of range, each in one field. -/
theorem test_ill_formed_operands :
    (∀ f ∈ [{ blankFrame with chan := 16 }, { blankFrame with colour := 4 }, { blankFrame with hdrVer := 256 }, { blankFrame with wing := 16 },
        { blankFrame with epoch := 2 ^ 32 }, { blankFrame with seq := 2 ^ 32 }, { blankFrame with tag := 2 ^ 32 },
        { blankFrame with deadline := 2 ^ 32 }, { blankFrame with args := [] }, { blankFrame with payload := List.replicate 4097 0 }],
      f.wf = false) ∧ blankFrame.wf = true ∧ okLine.wf = true ∧
    (∀ x ∈ [Sensor.gateCellar 4, .floor 12, .nand 64], x.wf = false) ∧ (MPath.doe 8).wf = false ∧
    (∀ x ∈ [ScrubLine.range 0 (2 ^ 52), .coll 16 0 0, .coll 0 4096 0, .sess 16 0 0, .sess 0 16384 0, .emb 16 0 0, .emb 0 65536 0, .internal 12,
        .store 256 0, .store 0 4718592], x.wf = false) ∧ (Dma.ok [0]).wf 128 = false := by
  decide +kernel

/-! ## The spec's examples -/

/-- Table 22-17: the addresses of the example. -/
theorem test_register_addresses : sqReg 9 5 8 = 0x6410A8 ∧ meterReg 9 0 0 0x10 = 0x642410 ∧ spReg 5 8 = 0x15008 ∧
    brkReg 0x9C (0x200 + 5 * 8) = 0x29C228 ∧ stkReg 6 0x1010 = 0x161010 ∧ bpReg 4 8 = 0x80008 ∧ chReg 20 8 = 0x34008 := by decide

/-- The example of chapter 22: a later write of KIND 1 is a violation, and `GLB_LOCKVIO` holds VIO, COUNT 1, OFFSET 0x000_2020, SRC 0. -/
theorem test_injection_after_setup : (match exec (.errInjectArm 0 1) { up with boot := { liveBoot with setupClosed := true } } with
    | .next t => some (t.reg 0x2020, t.reg 0x18)
    | _ => none) = some (0, 1 + 2 ^ 16 + 0x2020 * 2 ^ 32) := by decide +kernel

/-- Table 03-12: Floor pages of one shard of the example (node table, SQ4, adjacency, attributes). -/
theorem test_collection_sizes : let d : CollDef :=
      { dim := 1024, metric := 2, degree := 4, enc := 7, place := 0, attrWords := 6, shards := 4, capacity := 400000000, flatThresh := 0, flags := 0 }
    [0, 4, 6, 7].map d.partPages = [3052, 195313, 73243, 9156] := by decide +kernel

/-- The flood of chapter 17: of twelve items of 128 bytes against CBS 512 and PBS 1,024, four are green, four yellow, four red. -/
theorem test_flood : (List.range 12).foldl (fun (x : List Nat × Meter) _ => let r := markItem x.2 0 1280; (x.1 ++ [r.1], r.2))
    ([], { tc := 5120, tp := 10240 }) = ([0, 0, 0, 0, 1, 1, 1, 1, 2, 2, 2, 2], { tc := 0, tp := 0 }) := by decide +kernel

/-- Tables 10-7 and 10-8: three feeds of a stream with the stop string "</answer>". -/
def feedTokens : List Token :=
  ([[0x46, 0x65, 0x65, 0x3A, 0x20, 0x31, 0x32, 0x20], [0xE2, 0x82], [0xAC, 0x3C, 0x2F], [0x61, 0x6E, 0x73],
    [0x77, 0x65, 0x72, 0x3E, 0x0A, 0x4E, 0x65, 0x78, 0x74]] : List Bytes).map fun b => { bytes := b, special := false, final := false }
def feedStream : Stream := { cut := false, stops := [[0x3C, 0x2F, 0x61, 0x6E, 0x73, 0x77, 0x65, 0x72, 0x3E]] }

theorem test_feeds :
    (let a := runFeed feedStream feedTokens false [0, 1]
     let b := runFeed { feedStream with carry := a.carry, held := a.held } feedTokens false [2, 3]
     let c := runFeed { feedStream with carry := b.carry, held := b.held } feedTokens false [4]
     (a.carry, a.held, a.out.length, a.count) = ([0xE2, 0x82], [], 8, 2) ∧
       (b.carry, b.held, b.out, b.count) = ([], [0x3C, 0x2F, 0x61, 0x6E, 0x73], [0xE2, 0x82, 0xAC], 2) ∧
       (c.out, c.count, c.stop) = ([], 1, some (1, 4))) := by decide +kernel

/-- Table 13-9: adding 0.1 and -0.05 to 3,145,728 in FX32 with FRAC 20 gives 3,198,157. -/
theorem test_add_fixed : let a := (addRows 1 20 (natLe 3145728 4) (natLe 0x3DCCCCCD 4)).1
    a = natLe (3145728 + 104858) 4 ∧ (addRows 1 20 a (natLe 0xBD4CCCCD 4)).1 = natLe 3198157 4 := by decide +kernel

/-- Tables 08-1 and 08-2: what saturates, what becomes infinite, the canonical NaNs. -/
theorem test_formats : fTo e4m3 0x447A0000 = 0x7E ∧ fTo e5m2 0x47FFFFFF = 0x7B ∧ fTo e5m2 0x7F800000 = 0x7C ∧ fTo bf16 0x7F7FFFFF = 0x7F80 ∧
    fTo e4m3 0x7FC00000 = 0x7F ∧ fTo bf16 0x7FC00000 = 0x7FC0 ∧ fOf e4m3 1 = 0x3B000000 ∧ fToInt (-127) 127 0x7FC00000 = 0 := by decide +kernel

/-- The published check value of the CRC with polynomial 0x1021 and initial value 0xFFFF, of "123456789". -/
theorem test_crc : crc16 [0x31, 0x32, 0x33, 0x34, 0x35, 0x36, 0x37, 0x38, 0x39] = 0x29B1 := by decide +kernel

/-- Table 02-4, 1,125 us: the window closes with no edge; a boundary is taken, LOST is set, the receiver is FREE. -/
theorem test_window_close : (match exec .beatWindowClose { up with cyc := 1687501, beat := { rx := .locked, lost := false, number := some 5000 } } with
    | .next t => some (t.beat.rx, t.beat.lost, t.beat.pend.length)
    | _ => none) = some (.free, true, 1) := by decide +kernel

/-- An ADD of 7 and 8 leaves 15 in its destination, takes the latch it waits on, and moves pc on by 8. -/
theorem test_add : (match exec (.opAdd 0) (ctl addWord addCtx) with
    | .next t => some (((t.brick 0).ctx.sget 1), ((t.brick 0).ctx.latchAt 5).value, (t.brick 0).ctx.pc)
    | _ => none) = some (15, 0, 8) := by decide +kernel

/-- The step takes the command in front and leaves the queue's rest. -/
theorem test_step : (match step { up with pending := [.perstAssert, .linkDown] } with
    | .next t => some (t.power.perst, t.link.trained, t.pending)
    | _ => none) = some (true, false, [.linkDown]) := by decide +kernel

/-- The spec gives its commands no bits. -/
theorem test_no_words : decodeTableWord 16 5 = none ∧ (State.reset.withFetchWord 16 5).pending = [] := ⟨rfl, rfl⟩

end Sys2Proof.Tests
end

/-!
PROOF. The write of `BEAT_CFG` (R30): what bits of a register survive its mask, what a lock violation records, what a taken and a refused
write leave alone, and that a boundary takes its nominal period from the register.
-/
namespace Sys2Proof
open Sys2Proof.Machine

/-! ## Bit fields under a mask -/

theorem bits_and (v m hi lo : Nat) : bits (v &&& m) hi lo = bits v hi lo &&& bits m hi lo := by
  simp only [bits, Nat.and_div_two_pow, Nat.and_mod_two_pow]

/-- A mask that keeps every bit of a field keeps the field. -/
theorem bits_and_of_kept {m hi lo : Nat} (v : Nat) (hm : bits m hi lo = 2 ^ (hi + 1 - lo) - 1) : bits (v &&& m) hi lo = bits v hi lo := by
  rw [bits_and, hm, Nat.and_two_pow_sub_one_eq_mod]
  exact Nat.mod_mod _ _

theorem bit_eq_bits (v i : Nat) : bit v i = (bits v i i == 1) := by
  simp [bit, bits]

/-- `BEAT_CFG` keeps PERIOD_NS and ANN_TX. -/
theorem regMask_beatCfg : regMask 0x80 = 0x3F3FFFFFFF := by
  simp [regMask, regAt, locate, regInfo]

/-- `GLB_LOCKVIO` keeps VIO, COUNT, OFFSET and SRC. -/
theorem regMask_lockVio : regMask 0x18 = 0x0F7FFFFFFFFF0001 := by
  simp [regMask, regAt, locate, regInfo]

/-! ## Lock violations (R517) -/

/-- A register stored and marked as set in this cycle leaves the rest of the state. -/
theorem markSet_setReg_eq (s : State) (off v k : Nat) : (s.setReg off v).markSet k =
    { s with regs := ((s.setReg off v).markSet k).regs, setAt := ((s.setReg off v).markSet k).setAt } := rfl

@[simp] theorem reg_markSet (s : State) (k j : Nat) : (s.markSet k).reg j = s.reg j := rfl

theorem lockVio_eq (s : State) (src off : Nat) :
    s.lockVio src off = { s with regs := (s.lockVio src off).regs, setAt := (s.lockVio src off).setAt } :=
  markSet_setReg_eq s 0x18 _ 0x18

theorem reg_lockVio_other (s : State) (src off : Nat) {k : Nat} (hk : k ≠ 0x18) : (s.lockVio src off).reg k = s.reg k := by
  rw [State.lockVio, reg_markSet, reg_setReg_other s _ hk]

/-- What a lock violation stores, with the count and the offset within their fields. -/
theorem reg_lockVio_same (s : State) (src off : Nat) : (s.lockVio src off).reg 0x18 =
    (1 + min (bits (s.reg 0x18) 31 16 + 1) 65535 * 2 ^ 16 + off % 2 ^ 23 * 2 ^ 32 + src % 16 * 2 ^ 56) &&& regMask 0x18 := by
  rw [State.lockVio, reg_markSet, reg_setReg_same]

theorem lockVio_vio (s : State) (src off : Nat) : bit ((s.lockVio src off).reg 0x18) 0 = true := by
  rw [reg_lockVio_same, regMask_lockVio, bit_eq_bits, bits_and_of_kept _ (by decide), beq_iff_eq]
  simp only [bits]
  omega

theorem lockVio_count (s : State) (src off : Nat) :
    bits ((s.lockVio src off).reg 0x18) 31 16 = min (bits (s.reg 0x18) 31 16 + 1) 65535 := by
  rw [reg_lockVio_same, regMask_lockVio, bits_and_of_kept _ (by decide)]
  generalize bits (s.reg 0x18) 31 16 = n
  simp only [bits]
  omega

theorem lockVio_offset (s : State) (src off : Nat) : bits ((s.lockVio src off).reg 0x18) 54 32 = off % 2 ^ 23 := by
  rw [reg_lockVio_same, regMask_lockVio, bits_and_of_kept _ (by decide)]
  generalize bits (s.reg 0x18) 31 16 = n
  simp only [bits]
  omega

/-! ## The write (R30) -/

theorem hears_of_hearing {s : State} {src : Nat} (h : Hearing s src) : s.hears src = true := by
  obtain ⟨hrails, ⟨rfl, htrained⟩ | ⟨hsrc, hcxl, hfatal⟩⟩ := h
  · simp [State.hears, hrails, htrained]
  · simp [State.hears, hrails, hsrc, hcxl, hfatal]

/-- The set-up device, when it is heard, is refused nothing that is its own. -/
theorem setupRefused_of_setUpHeard {s : State} {src : Nat} (h : SetUpHeard s src) : s.setupRefused src = none := by
  obtain ⟨hhear, hsrc⟩ := h
  have hsetup : isSetup src = true := by simpa [isSetup] using hsrc
  simp [State.setupRefused, hears_of_hearing hhear, hsetup]

theorem exec_beatCfgWrite {s : State} {src : Nat} (val : Nat) (h : SetUpHeard s src) :
    exec (.beatCfgWrite src val) s = .next (s.writeBeatCfg src val) := by
  show execBeatCfgWrite src val s = _
  rw [execBeatCfgWrite, setupRefused_of_setUpHeard h]

theorem writeBeatCfg_of_inRange (s : State) (src : Nat) {val : Nat} (hlo : 10000 ≤ bits val 23 0) (hhi : bits val 23 0 ≤ 10000000) :
    s.writeBeatCfg src val = s.setReg 0x80 val := if_pos ⟨hlo, hhi⟩

theorem writeBeatCfg_of_outOfRange (s : State) (src : Nat) {val : Nat} (h : bits val 23 0 < 10000 ∨ 10000000 < bits val 23 0) :
    s.writeBeatCfg src val = s.lockVio src 0x80 := if_neg (by omega)

/-- A stored `BEAT_CFG` holds the written PERIOD_NS whole. -/
theorem period_setReg_beatCfg (s : State) (val : Nat) : bits ((s.setReg 0x80 val).reg 0x80) 23 0 = bits val 23 0 := by
  rw [reg_setReg_same, regMask_beatCfg, bits_and_of_kept _ (by decide)]

/-! ## The boundary (R30) -/

@[simp] theorem beat_adopt_periodNs (b : Beat) (n : Nat) : (b.adopt n).periodNs = b.periodNs := by
  unfold Beat.adopt
  split
  · rfl
  · split <;> rfl

@[simp] theorem beat_advance_periodNs (b : Beat) : b.advance.periodNs = b.periodNs := by
  unfold Beat.advance
  split
  · rfl
  · split <;> rfl

/-- What becomes of the number leaves the nominal period. -/
@[simp] theorem beat_count_periodNs (b : Beat) (offer : Option Offer) (relock : Bool) : (b.count offer relock).1.periodNs = b.periodNs := by
  unfold Beat.count
  split
  · split
    · exact beat_adopt_periodNs b _
    · exact beat_advance_periodNs b
  · exact beat_advance_periodNs b

@[simp] theorem closeBeat_periodNs (s : State) (due : Nat) : (s.closeBeat due).beat.periodNs = bits (s.reg 0x80) 23 0 := rfl

@[simp] theorem keepBeat_periodNs (s t : State) : (s.keepBeat t).beat.periodNs = s.beat.periodNs := rfl

/-- A boundary takes the period of the register, whatever events fire at it. -/
theorem boundary_periodNs (s : State) (x : PendBoundary) : (s.boundary x).beat.periodNs = bits (s.reg 0x80) 23 0 := by
  simp only [State.boundary, keepBeat_periodNs]
  split <;> simp

theorem exec_beatBoundary_due {s : State} {x : PendBoundary} {rest : List PendBoundary} (hpend : s.beat.pend = x :: rest)
    (hrails : s.power.rails = .good) (hdue : x.due ≤ s.cyc) :
    exec .beatBoundary s = .next ({ s with beat := { s.beat with pend := rest } }.boundary x) := by
  show execBeatBoundary s = _
  rw [execBeatBoundary, hpend]
  exact congrArg _ (if_pos ⟨hrails, hdue⟩)

/-! ## BEAT_CFG_WRITE in and out of range -/

theorem beatCfgWrite_inRange {s : State} {src val : Nat} (h : SetUpHeard s src) (hlo : 10000 ≤ bits val 23 0)
    (hhi : bits val 23 0 ≤ 10000000) : exec (.beatCfgWrite src val) s = .next (s.setReg 0x80 val) := by
  rw [exec_beatCfgWrite val h, writeBeatCfg_of_inRange s src hlo hhi]

theorem beatCfgWrite_outOfRange {s : State} {src val : Nat} (h : SetUpHeard s src)
    (hval : bits val 23 0 < 10000 ∨ 10000000 < bits val 23 0) : exec (.beatCfgWrite src val) s = .next (s.lockVio src 0x80) := by
  rw [exec_beatCfgWrite val h, writeBeatCfg_of_outOfRange s src hval]

/-- Settles O15: a period in range is stored and nothing else changes, another one is recorded as a lock violation, and the boundary
is what brings the stored period into use. -/
theorem beatPeriodWrite : Obligations.BeatPeriodWrite := by
  refine ⟨fun s src val h => ⟨fun hlo hhi => ?_, fun hval => ?_⟩, fun s x rest hpend hrails hdue => ?_⟩
  · exact ⟨_, beatCfgWrite_inRange h hlo hhi, reg_setReg_same s 0x80 val, period_setReg_beatCfg s val,
      fun _ hk => reg_setReg_other s val hk, rfl, rfl⟩
  · exact ⟨_, beatCfgWrite_outOfRange h hval, fun _ hk => reg_lockVio_other s src 0x80 hk, lockVio_eq s src 0x80,
      lockVio_vio s src 0x80, lockVio_count s src 0x80, lockVio_offset s src 0x80⟩
  · exact ⟨_, exec_beatBoundary_due hpend hrails hdue, boundary_periodNs _ x⟩

end Sys2Proof

/-!
PROOF. What fixing a completion leaves alone, whatever the descriptor: `OnlyBooks` is a preorder that every step of `State.fix` keeps, and
`within` has nothing to restore after such a step. With the completion that `State.fix` leaves, this settles NOP and FENCE (R396, R400).
-/
namespace Sys2Proof
open Sys2Proof.Machine

/-! ## States that differ in their books only -/

/-- A state with every field that `OnlyBooks` frees taken from another one. -/
def withBooks (s t : State) : State := { s with
  flights := t.flights, stamp := t.stamp, wingNow := t.wingNow, live := t.live, out := t.out, reqs := t.reqs, colls := t.colls
  sessions := t.sessions, progs := t.progs, transit := t.transit, accesses := t.accesses, pins := t.pins
  stkOps := t.stkOps, unitQ := t.unitQ, sliceEnd := t.sliceEnd, debt := t.debt, refreshTill := t.refreshTill, embJobs := t.embJobs
  prefRows := t.prefRows, embs := t.embs, cellar := { s.cellar with syncs := t.cellar.syncs } }

theorem withBooks_withBooks (s t u : State) : withBooks (withBooks s t) u = withBooks s u := rfl

theorem within_withBooks (s t : State) : s.within (withBooks s t) = withBooks s t := rfl

theorem OnlyBooks.eq_withBooks {s t : State} (h : OnlyBooks s t) : t = withBooks s t := h.1

theorem OnlyBooks.refl (s : State) : OnlyBooks s s := ⟨rfl, rfl, rfl, rfl, rfl⟩

theorem OnlyBooks.trans {s t u : State} (hst : OnlyBooks s t) (htu : OnlyBooks t u) : OnlyBooks s u := by
  have hu : u = withBooks s u := by
    calc u = withBooks t u := htu.eq_withBooks
      _ = withBooks (withBooks s t) u := congrArg (withBooks · u) hst.eq_withBooks
      _ = withBooks s u := withBooks_withBooks s t u
  obtain ⟨-, hcolls, hsessions, hprogs, hembs⟩ := hst
  obtain ⟨-, hcolls', hsessions', hprogs', hembs'⟩ := htu
  exact ⟨hu, hcolls'.trans hcolls, hsessions'.trans hsessions, hprogs'.trans hprogs, hembs'.trans hembs⟩

/-- A choice between two steps that change books only. -/
theorem OnlyBooks.ite {s t u : State} {p : Prop} [Decidable p] (ht : OnlyBooks s t) (hu : OnlyBooks s u) :
    OnlyBooks s (if p then t else u) := by
  split
  · exact ht
  · exact hu

/-- A fold of steps that change books only changes books only. -/
theorem onlyBooks_foldl {α : Type} {g : State → α → State} (hg : ∀ s x, OnlyBooks s (g s x)) (l : List α) (s : State) :
    OnlyBooks s (l.foldl g s) := by
  induction l generalizing s with
  | nil => exact OnlyBooks.refl s
  | cons x l ih => exact (hg s x).trans (ih (g s x))

/-- Work that changes books only touched nothing that `within` restores. -/
theorem OnlyBooks.within_eq {s t : State} (h : OnlyBooks s t) : s.within t = t := by
  rw [h.eq_withBooks]
  exact within_withBooks s t

/-! ## Steps that change books only -/

theorem onlyBooks_bump (s : State) (off : Nat) : OnlyBooks s (s.bump off) := ⟨rfl, rfl, rfl, rfl, rfl⟩

theorem onlyBooks_modFlight (s : State) (fid : Nat) (g : Flight → Flight) : OnlyBooks s (s.modFlight fid g) := ⟨rfl, rfl, rfl, rfl, rfl⟩

theorem onlyBooks_modWingBeat (s : State) (w : Nat) (g : WingBeat → WingBeat) : OnlyBooks s (s.modWingBeat w g) :=
  ⟨rfl, rfl, rfl, rfl, rfl⟩

theorem onlyBooks_makeDue (s : State) (fid : Nat) : OnlyBooks s (s.makeDue fid) := ⟨rfl, rfl, rfl, rfl, rfl⟩

theorem onlyBooks_refreshDue (s : State) (w q : Nat) : OnlyBooks s (s.refreshDue w q) := onlyBooks_foldl onlyBooks_makeDue _ s

theorem onlyBooks_hostUnspecified (s : State) (p a n : Nat) : OnlyBooks s (s.hostUnspecified p a n) :=
  (OnlyBooks.refl s).ite ⟨rfl, rfl, rfl, rfl, rfl⟩

theorem onlyBooks_bumpIf (s : State) (p : Prop) [Decidable p] (off : Nat) : OnlyBooks s (if p then s.bump off else s) :=
  (onlyBooks_bump s off).ite (OnlyBooks.refl s)

theorem onlyBooks_countCpl (s : State) (f : Flight) (c : Cpl) : OnlyBooks s (s.countCpl f c) :=
  (onlyBooks_bumpIf s _ _).trans <| (onlyBooks_bumpIf _ _ _).trans <| (onlyBooks_bumpIf _ _ _).trans (onlyBooks_bumpIf _ _ _)

theorem onlyBooks_countEmit (s : State) (fid : Nat) : OnlyBooks s (s.countEmit fid) := by
  unfold State.countEmit
  split
  · exact onlyBooks_bump s _
  · exact OnlyBooks.refl s

theorem onlyBooks_runRefresh (s : State) (key n : Nat) : OnlyBooks s (s.runRefresh key n) :=
  (OnlyBooks.refl s).ite ⟨rfl, rfl, rfl, rfl, rfl⟩

theorem onlyBooks_startSlice (s : State) (key : Nat) (l : List Nat) : OnlyBooks s (s.startSlice key l) := by
  unfold State.startSlice
  split <;> exact ⟨rfl, rfl, rfl, rfl, rfl⟩

theorem onlyBooks_endSlice (s : State) (key : Nat) (l : List Nat) : OnlyBooks s (s.endSlice key l) :=
  (onlyBooks_runRefresh s key _).trans (onlyBooks_startSlice _ key l)

theorem onlyBooks_dropOps (s : State) (gone : StkOp → Bool) : OnlyBooks s (s.dropOps gone) := by
  have hops : OnlyBooks s { s with stkOps := s.stkOps.filter fun o => !gone o } := ⟨rfl, rfl, rfl, rfl, rfl⟩
  refine hops.trans (onlyBooks_foldl (fun s e => ?_) _ _)
  exact (onlyBooks_endSlice s e.1 _).ite ⟨rfl, rfl, rfl, rfl, rfl⟩

/-- Of collections, sessions, programs and tables, the work of a stopped descriptor is all that goes. -/
theorem onlyBooks_dropWork (s : State) (fid : Nat) : OnlyBooks s (s.dropWork fid) := by
  refine ⟨?_, ?_, ?_, ?_, ?_⟩
  · unfold State.dropWork
    rw [(onlyBooks_dropOps s fun o => o.fid == some fid).eq_withBooks]
    rfl
  all_goals simp [State.dropWork, Function.comp_def]

/-! ## Fixing a completion (R404) -/

theorem onlyBooks_fix (s : State) (fid : Nat) (c : Cpl) : OnlyBooks s (s.fix fid c) := by
  unfold State.fix
  split
  · exact OnlyBooks.refl s
  next f _ =>
    refine (OnlyBooks.refl s).ite ?_
    have hdrop := (onlyBooks_countEmit s fid).trans (onlyBooks_dropWork _ fid)
    refine (((OnlyBooks.trans ?_ (onlyBooks_modFlight _ fid _)).trans (onlyBooks_modWingBeat _ f.wing _)).trans
      (onlyBooks_countCpl _ f _)).trans (onlyBooks_refreshDue _ f.wing f.sq)
    exact hdrop.trans ((onlyBooks_hostUnspecified _ _ _ _).ite (OnlyBooks.refl _))

theorem onlyBooks_admitNow (s : State) (fid : Nat) : OnlyBooks s (s.admitNow fid) := by
  refine OnlyBooks.trans ?_ (onlyBooks_modFlight _ fid _)
  split
  · exact onlyBooks_modWingBeat s _ _
  · exact OnlyBooks.refl s

/-- An open descriptor's completion is fixed with the status and the inline result given, and the count that its status lets stand (R403). -/
theorem completed_fix {s : State} {fid : Nat} {f : Flight} (c : Cpl) (h : s.flight? fid = some f) (hp : f.phase ≠ .done) :
    Completed (s.fix fid c) fid c.status (f.finalCpl c).count c.result := by
  obtain ⟨g, hg, hdone, hcpl⟩ := fix_flight h hp
  exact ⟨g, hg, hdone, _, hcpl, rfl, rfl, rfl⟩

theorem completed_fixOk {s : State} {fid : Nat} {f : Flight} {count : Nat} (result : Nat) (h : s.flight? fid = some f)
    (hp : f.phase ≠ .done) (hc : count < 65536) : Completed (s.fixOk fid count result) fid .ok count result := by
  have hcount : (f.finalCpl { count, result }).count = count := Nat.mod_eq_of_lt hc
  have hfix := completed_fix { count, result } h hp
  rwa [hcount] at hfix

theorem completed_fixSt_invalid {s : State} {fid : Nat} {f : Flight} (h : s.flight? fid = some f) (hp : f.phase ≠ .done) :
    Completed (s.fixSt fid .invalid) fid .invalid 0 0 := completed_fix { status := .invalid } h hp

/-! ## NOP (R396) -/

theorem exec_nopDescriptor_ready {s : State} {fid : Nat} {f : Flight} (h : s.ready? fid 0x900 = some f) :
    exec (.nopDescriptor fid) s =
      .next (s.within (if f.zero [(12, 116)] then (s.admitNow fid).fixOk fid 0 0 else s.fixSt fid .invalid)) := by
  show execNopDescriptor fid s = _
  rw [execNopDescriptor, h]
  rfl

theorem nop_wellFormed {s : State} {fid : Nat} {f : Flight} (h : s.ready? fid 0x900 = some f) (hz : f.zero [(12, 116)] = true) :
    Answers (.nopDescriptor fid) s fun t => Completed t fid .ok 0 0 ∧ OnlyBooks s t := by
  obtain ⟨hf, -, -⟩ := ready_flight h
  have hbooks : OnlyBooks s ((s.admitNow fid).fixOk fid 0 0) := (onlyBooks_admitNow s fid).trans (onlyBooks_fix _ fid _)
  refine ⟨_, ?_, completed_fixOk 0 (admitNow_flight hf) (by simp) (by decide), hbooks⟩
  rw [exec_nopDescriptor_ready h, if_pos hz, hbooks.within_eq]

theorem nop_malformed {s : State} {fid : Nat} {f : Flight} (h : s.ready? fid 0x900 = some f) (hz : f.zero [(12, 116)] = false) :
    Answers (.nopDescriptor fid) s fun t => Completed t fid .invalid 0 0 ∧ OnlyBooks s t := by
  obtain ⟨hf, hready, -⟩ := ready_flight h
  have hbooks : OnlyBooks s (s.fixSt fid .invalid) := onlyBooks_fix s fid _
  refine ⟨_, ?_, completed_fixSt_invalid hf (by simp [hready]), hbooks⟩
  rw [exec_nopDescriptor_ready h, if_neg (by simp [hz]), hbooks.within_eq]

/-! ## FENCE (R400) -/

/-- An earlier descriptor of the ring whose completion is open. -/
theorem earlierFixed_eq_false {s : State} {f g : Flight} (hg : g ∈ s.ringFlights f.wing f.sq) (hlt : g.fid < f.fid)
    (hopen : g.phase ≠ .done) : s.earlierFixed f = false := by
  refine List.all_eq_false.mpr ⟨g, hg, ?_⟩
  simp [hopen, hlt]

theorem isHeld_of_fence {s : State} {f : Flight} (hfence : f.fence = true) (h : s.earlierFixed f = false) : s.isHeld f = true := by
  simp [State.isHeld, hfence, h]

theorem exec_descriptorAdmit_held {s : State} {fid : Nat} {f : Flight} (h : s.flight? fid = some f)
    (hchain : s.chainNow f.wing f.sq f.chain ≠ .failed) (hheld : s.isHeld f = true) : exec (.descriptorAdmit fid) s = .next s := by
  show execDescriptorAdmit fid s = _
  simp only [execDescriptorAdmit, h, if_neg hchain, if_pos hheld, ite_self]
  exact congrArg _ (OnlyBooks.refl s).within_eq

/-- Settles O18: a NOP's step is the fixing of its own completion, which changes books only, and FENCE holds a descriptor while an
earlier one of its ring is open. -/
theorem nopCompletesWithOk : Obligations.NopCompletesWithOk := by
  refine ⟨fun s fid f h => ⟨nop_wellFormed h, nop_malformed h⟩, fun s fid f g hf _ hfence hchain hg hlt hopen => ?_⟩
  exact exec_descriptorAdmit_held hf hchain (isHeld_of_fence hfence (earlierFixed_eq_false hg hlt hopen))

end Sys2Proof
